-- ==== Sys2Proof/Word.lean ====
section
/-! DEFINITION. The word types of the register space and of memory, and their plainest arithmetic. -/
namespace Sys2Proof

/-- A register: 64 bits (02_register_pages.md R46). -/
abbrev Word := BitVec 64
/-- A byte of an addressed memory. -/
abbrev Byte := BitVec 8

/-- The unsigned number in bits hi..lo of a natural number. -/
def natBits (n hi lo : Nat) : Nat := (n >>> lo) % 2 ^ (hi + 1 - lo)

/-- `n` with bits hi..lo replaced by the low bits of `v`. -/
def natSetBits (n hi lo v : Nat) : Nat :=
  let w := 2 ^ (hi + 1 - lo)
  n - ((n >>> lo) % w) <<< lo + (v % w) <<< lo

/-- Bit `i` of a natural number. -/
def natBit (n i : Nat) : Bool := n.testBit i

/-- `n + k`, held at `cap` (the saturating counters of the manual). -/
def satAdd (cap n k : Nat) : Nat := min cap (n + k)

/-- 1 for true, 0 for false. -/
def b2n (b : Bool) : Nat := if b then 1 else 0

/-- The number of ones among the low `k` bits of `n`. -/
def popCount : Nat → Nat → Nat
  | 0, _ => 0
  | k + 1, n => n % 2 + popCount k (n / 2)

end Sys2Proof
end

