-- ==== Sys2Proof/Syntax.lean ====
section
/-! DEFINITION. The commands of the block (one constructor per row of spec/opcode_table.json) and their operands. -/
namespace Sys2Proof

/-- Who reaches the register space (02_register_pages.md R73); `hub`: the hub itself (FIRST_SRC 3 of R56). -/
inductive Requester where
  | host | mgmt | rot | hub
  deriving DecidableEq, Repr

/-- A unit of the floor plan (03_floor_plan.md R83, R93). `lane a i`: optical lane i of attachment a;
`host`: the host endpoint, which R91 names. -/
inductive UnitId where
  | hank (n : Nat) | spindle (n j : Nat) | slice (n : Nat) | router (n : Nat)
  | hbmCh (a c : Nat) | hbmAtt (a : Nat) | site (s : Nat) | siteCh (s c : Nat)
  | lane (a i : Nat) | strand (a k : Nat) | eth (e : Nat) | optAtt (a : Nat) | host
  deriving DecidableEq, Repr

/-- Cause codes of the floor plan (03_floor_plan.md R79). -/
inductive Cause where
  | good | fused | notPopulated | assemblyFail | startupFail | dependent | fenced | faulted | inTest | degraded
  deriving DecidableEq, Repr

/-- What fuses and the OTP assembly record hold (03_floor_plan.md R77, R95; 21_bring_up_and_reset.md R599 C2):
the variant, hanks fused at die sort, populated attachments, engines and sites (masks), stack size and rate, units that
failed package test with their sub-cause, failed lanes of site channels (site × 64 + channel, FPD 6 word).
[DEDUCED, log entry 11] -/
structure FuseRecord where
  variant : Nat
  fusedHanks : List Nat
  popHbm : Nat
  popOpt : Nat
  popSites : Nat
  stackGib : Nat
  rate : Nat
  asmFail : List (UnitId × Nat)
  siteLanes : List (Nat × Nat)
  deriving DecidableEq, Repr

/-- The result of a slice's start-up tests (03_floor_plan.md R653): banks that failed, retention test passed. -/
structure SliceTest where
  slice : Nat
  badBanks : Nat
  retOk : Bool
  deriving DecidableEq, Repr

/-- The result of a hank's self-test (21_bring_up_and_reset.md R604, R605): good spindles, check spindle good,
controller and bobbin good. -/
structure HankTest where
  good : Nat
  checkOk : Bool
  ctlOk : Bool
  bobOk : Bool
  deriving DecidableEq, Repr

/-- An SPDM transport (19_trust_and_tenancy.md R562). -/
inductive Transport where
  | i3c | sgmii | doe | fabric
  deriving DecidableEq, Repr

/-- The owner policy (19_trust_and_tenancy.md R565): MIN_SVN for MR 2-7, ALLOW_DOE, ALLOW_FABRIC, IDE_REQUIRED. -/
structure OwnerPolicy where
  minSvn : List Nat
  allowDoe : Bool
  allowFabric : Bool
  ideRequired : Bool
  deriving DecidableEq, Repr

/-- An owner record (R565): the trust anchor's digest and the policy. -/
structure OwnerRec where
  anchor : Nat
  policy : OwnerPolicy
  deriving DecidableEq, Repr

/-- A component image as the ROT finds it (19_trust_and_tenancy.md R553, R568): digest, version, SVN, length, and
whether its manifest signatures and every chunk digest check. -/
structure FwImage where
  digest : BitVec 384
  version : Nat
  svn : Nat
  length : Nat
  sigOk : Bool
  digestOk : Bool
  deriving DecidableEq, Repr

/-- One entry of a job-key blob (19_trust_and_tenancy.md R567): port, slot, NEXT phase. Keys themselves are opaque. -/
structure KeyEntry where
  port : Nat
  slot : Nat
  next : Bool
  keyId : Nat
  deriving DecidableEq, Repr

/-- A job-key blob after the ROT has unwrapped it (R567): version, job tag, whether ID_DIGEST matched and the tag
verified, entries.
[DESIGN CHOICE, log entry 142] -/
structure KeyBlob where
  version : Nat
  job : Nat
  idOk : Bool
  tagOk : Bool
  entries : List KeyEntry
  deriving DecidableEq, Repr

/-- What a boot of the ROT finds for one component of MR 2-7 (R553, R554, R598): the image of the slot tried first and of
the alternate slot. -/
structure BootImage where
  mr : Nat
  main : FwImage
  alt : FwImage
  deriving DecidableEq, Repr

/-- A field of the host's configuration space that a configuration write changes (16_host_endpoint.md R492, R493, R303; `ide`: the address
associations of an IDE stream, 19_trust_and_tenancy.md R571). -/
inductive CfgField where
  | mse (on : Bool) | msix (on mask : Bool) | ats (on : Bool) | pri (on : Bool) (alloc : Nat) | pasid (on : Bool)
  | aspm (on : Bool) | bar4 (logGib : Nat) | pme (en clear : Bool) | aer (clearPoisoned : Bool) | hdm (d : Nat) (on : Bool) (base size dev : Nat)
  | ide (stream : Nat) (assoc : List (Nat × Nat))
  deriving DecidableEq, Repr

/-- A lockstep pair (22_fault_detection.md R617). -/
inductive LockUnit where
  | management | dispatcher | rot
  deriving DecidableEq, Repr

/-- A detector of the latent self-test (22_fault_detection.md R631). -/
inductive Detector where
  | checkSpindle (n : Nat) | secded | hbmDecoder (a : Nat) | fecDecoder (u : UnitId) | parity
  | flitChecker (r : Nat) | lockstep | monitor | watchdog (n : Nat) | timeout | residue (n : Nat)
  deriving DecidableEq, Repr

/-- A reference clock input (23_physical.md R639). -/
inductive RefClk where
  | pcie | eth | hbm | mgmt | tref
  deriving DecidableEq, Repr

/-- A task's place: queue and ring index (06_task_graphs.md R167). -/
structure TaskId where
  queue : Nat
  index : Nat
  deriving DecidableEq, Repr

/-- What the hub's code says of an HBM sector that was read (09_memory_integrity.md R270, R273): good, corrected in one
symbol, or uncorrectable. -/
inductive SecErr where
  | good | corrected (symbol : Nat) | bad
  deriving DecidableEq, Repr

/-- A lane of a pseudo-channel that a burst found disturbed (R271): data lane 0-31 or check-bit lane 32-39, and the beats it flips (bit b:
beat b). -/
structure LaneHit where
  lane : Nat
  beats : Nat
  deriving DecidableEq, Repr

/-- What an on-die SRAM read gives (R268, R269): no error; a corrected bit (bit 0-71 of an 8-byte unit); a failure whose
retry reads correctly; a failure of both reads. -/
inductive SramErr where
  | good | corrected (unit bit : Nat) | transient (unit : Nat) | lasting (unit : Nat)
  deriving DecidableEq, Repr

/-- An address at a home (07_skein_memory.md R197, R200, R204; 08_memory_tiers.md R231): a T0 address of the accessing
partition, a DPA (HBM or a tiered range), a host physical address, or a host virtual address under a PASID whose translation carries U
(10_address_translation.md R304). -/
inductive Addr where
  | t0 (a : Nat) | dpa (a : Nat) | hpa (a : Nat) | hva (pasid a : Nat)
  deriving DecidableEq, Repr

/-- A transaction as it reaches its home: its number at the initiator, the initiator's tollgate instance (R339), the
partition it acts for, its task, the bytes it covers (within one line), its traffic class (R340), the write hint it carries
(R366), whether its translation bypasses T1 (R307 UNC), the host physical address of a backing page (R252), and whether a
bank conflict delayed it a step (R195).
[DEDUCED, log entry 7; DESIGN CHOICE, log entry 9] -/
structure Access where
  id : Nat
  src : Nat
  part : Nat
  task : Option TaskId
  addr : Addr
  len : Nat
  cls : Nat
  hint : Nat
  unc : Bool
  backing : Option Nat
  conflict : Bool
  deriving DecidableEq, Repr

/-- What an access does: read; write bytes, with the sectors of the line that carry poison (bit k = sector k, R278); write the masked bits of
one byte, which a run of packed elements covers in part (05_spindle_arithmetic.md R128).
[DEDUCED, log entry 41] -/
inductive AccOp where
  | read | write (data : List Byte) (poison : Nat) | bits (data mask : Byte)
  | atomic (op ty : Nat) (fetch : Bool) (operand : List Byte)
  deriving DecidableEq, Repr

/-- Faults of the arrays an access uses on its way through its home (R268): banks, tags or sector state, snoop filter, granule map or
tier table. -/
structure SliceErr where
  bank : SramErr := .good
  tags : SramErr := .good
  filter : SramErr := .good
  map : SramErr := .good
  deriving DecidableEq, Repr

/-- An itinerary stage as read (08_memory_tiers.md R259), with the verdict of its CHECK. -/
structure ItnStage where
  src : Nat
  dst : Nat
  length : Nat
  event : Nat
  target : Nat
  trigger : Nat
  trigArg : Nat
  checkOk : Bool
  deriving DecidableEq, Repr

/-- The lanes the scrubber finds disturbed at a sector (R273, R291): at its first read, its second read, and the other copy's. -/
structure ScrubErr where
  first : List LaneHit := []
  again : List LaneHit := []
  replica : List LaneHit := []
  deriving DecidableEq, Repr


/-- A transaction at its tollgate (11_mesh_and_regulation.md R339-R341): tollgate instance, its number there, task, `kind` of traffic that
R339 gives a fixed class (0 none, 1 and 2 as the table lists them), the class a site request carries, the bytes it carries or asks
for, its line, and whether it goes to a lower tier (08_memory_tiers.md R255). -/
structure TolReq where
  tol : Nat
  id : Nat
  task : Option TaskId
  part : Nat
  kind : Nat
  siteCls : Option Nat
  bytes : Nat
  line : Nat
  lower : Bool
  deriving DecidableEq, Repr

/-- A flit (11_mesh_and_regulation.md R332-R335): number, the router it is at, the router it is bound for, plane (0 data 0, 1 data 1,
2 request), on the detour channel, its packet's transaction (tollgate, number). -/
structure Flit where
  id : Nat
  here : Nat
  dest : Nat
  plane : Nat
  detour : Bool
  tol : Nat
  txn : Nat
  deriving DecidableEq, Repr

/-- A fabric packet (14_fabric_links.md R431): TYPE, SCHED, DL, ACKREQ, WIN (T2), destination and source node and partition, JOB,
OFFSET, E2E_ID, ARG16, poisoned sectors, hint, ARG32, data. -/
structure FabPkt where
  ty : Nat
  sched : Bool
  dl : Bool
  ackReq : Bool
  win : Bool
  dst : Nat
  dpart : Nat
  src : Nat
  spart : Nat
  job : Nat
  offset : Nat
  e2e : Nat
  arg16 : Nat
  poison : Nat
  hint : Nat
  arg32 : Nat
  data : List Byte
  deriving DecidableEq, Repr

/-- The body of a LINK frame (R427): credit returns, the sender's node, attachment and strand, the MODE it offers, a spare request
(31: none), the first bytes of its identity digest, and the key slots whose NEXT it has loaded (R444). -/
structure LinkBody where
  u0 : Nat
  u1 : Nat
  a0 : Nat
  a1 : Nat
  node : Nat
  att : Nat
  strand : Nat
  mode : Nat
  spare : Nat
  ident : Nat
  nextLoaded : Nat
  deriving DecidableEq, Repr

/-- A strand frame (R426, R427): KIND (0 IDLE, 1 DATA, 2 LINK), flags, NOTICE, JOB, SEQ, ACK, FCNT, the packets whose last slot it
carries, a LINK body. -/
structure FabFrame where
  kind : Nat
  nak : Bool
  secure : Bool
  keyPhase : Bool
  hold : Bool
  hubReset : Bool
  job : Nat
  seq : Nat
  ack : Nat
  fcnt : Nat
  pkts : List FabPkt
  link : Option LinkBody
  deriving DecidableEq, Repr

/-- What a receiver's checks say of a frame (R428, R445, R450): whole; trailer wrong (CRC, or FEC uncorrectable); tag wrong with FEC
clean. -/
inductive FrameCheck where
  | ok | badTrailer | tagFail
  deriving DecidableEq, Repr

/-- A message of the AZX Site Protocol (13_chiplet_sites.md R397), with its data slots: OPCODE, traffic class, FETCH, FUNC, TAG, PASID,
address kind, ADDR, ARG64, ARG8, LEN, FWD_TAG, FWD_TO (HOME bit 7, channel), FWD_SITE, data, POISON and VALID of its sectors. -/
structure AspMsg where
  op : Nat
  tc : Nat := 0
  fetch : Bool := false
  func : Nat := 0
  tag : Nat := 0
  pasid : Nat := 0
  ak : Nat := 3
  addr : Nat := 0
  arg64 : Nat := 0
  arg8 : Nat := 0
  len : Nat := 0
  fwdTag : Nat := 0
  fwdTo : Nat := 0
  fwdSite : Nat := 0
  data : List Byte := []
  poison : Nat := 0
  valid : Nat := 3
  deriving DecidableEq, Repr

/-- An ASP flit (R395, R396): SEQ, ACK, NAK, the messages its slots carry, the seven credit returns of a LINK slot with INIT, and a
reserved slot type or a data slot without a header. -/
structure AspFlit where
  seq : Nat := 0
  ack : Nat := 0
  nak : Bool := false
  msgs : List AspMsg := []
  link : Option (List Nat) := none
  init : Bool := false
  bad : Bool := false
  deriving DecidableEq, Repr

/-- The failed lanes a training of a site found (R389, R393): channel, failed lanes TX (hub to chiplet) and RX. -/
structure LaneFail where
  ch : Nat
  tx : List Nat
  rx : List Nat
  deriving DecidableEq, Repr

/-- What a site's cold training gives (R387, R389, R392, R400): the revision and protocols the chiplet advertises (bit 0 ASP, bit 1
CXL 3.1), failed lanes, channels that missed a bound or advertised too few credits, the credits it advertises (seven classes). -/
structure SiteTraining where
  ucie : Nat
  protos : Nat
  lanes : List LaneFail
  timeout : Bool
  credits : List Nat
  deriving DecidableEq, Repr

/-- A send-ring entry as fetched (17_network_ports.md R526), with the verdict of its CHECK and reserved bits. -/
structure Wqe where
  signaled : Bool
  fence : Bool
  imm : Nat
  addr : Nat
  length : Nat
  rkey : Nat
  remoteVa : Nat
  compareAdd : Nat
  swap : Nat
  wrId : Nat
  checkOk : Bool
  deriving DecidableEq, Repr

/-- The local buffer of a work request, pre-translated whole (R526): refused, or the addresses of its 2 MiB pages where it lies in
SPACE 0, with the outbound data read and whether a sector of it is poisoned. -/
inductive LocalBuf where
  | refused
  | ok (pages : List Addr) (data : List Byte) (poison : Bool)
  deriving DecidableEq, Repr

/-- An inbound RDMA packet (R527): PSN, R_Key, virtual address, length, data, immediate, last packet of its message, operands of an
atomic (add or compare, swap; Compare and Swap, else Fetch and Add), and the receive entry read for it with the pages of its buffer, where it takes one. -/
structure RdmaReq where
  psn : Nat
  rkey : Nat
  va : Nat
  len : Nat
  data : List Byte
  imm : Option Nat
  last : Bool
  add : Nat
  swap : Nat
  cas : Bool
  entry : Option Wqe
  pages : List Addr
  deriving DecidableEq, Repr

/-- An answer of the peer (R527, R529): ACK, NAKs, data of a READ or of an atomic. -/
inductive RdmaAck where
  | ack | nakSeq | rnr | nakAccess | nakOp | resp (data : List Byte)
  deriving DecidableEq, Repr

/-- What a hank takes from memory (04_spindle_array.md R102-R106; 05_spindle_arithmetic.md R148, R149, R156): the next step of a bobbin
(0-15 row, 16-19 column, 20 the pixel chain), the initial C or the residual of a tile, a vector (VEC, SHAPE), the ACT table. -/
inductive Fill where
  | slice (bob : Nat) | init | resid | vec (v shape : Nat) | act
  deriving DecidableEq, Repr

/-- A pattern descriptor as the Dispatcher finds it at a SPIN's PD_ADDR (06_task_graphs.md R172, R178): the task, the status of the read,
the bytes. -/
structure PdRead where
  task : TaskId
  status : Nat
  data : List (BitVec 8)
  deriving DecidableEq, Repr


/-- The commands of the block: one constructor per row of spec/opcode_table.json, in its order. -/
inductive Instr where
  /-- PWR_GOOD_ASSERT (R594): Assertion of PWR_GOOD_IN starts a cold start that discards trained parameters and retrains every unit. -/
  | pwrGoodAssert
  /-- PWR_GOOD_DEASSERT (R593): Loss of PWR_GOOD_IN holds every domain except the wake island in reset, resets HBM, drops lasers, drives NOT_READY and takes the host link down. -/
  | pwrGoodDeassert
  /-- VDD_AON_LOSS (R591): Loss of VDD_AON loses the retained store, so the next start is a cold start. -/
  | vddAonLoss
  /-- VDD_IO18_LOSS (R646): Loss of VDD_IO18 with VDD_AON up floats the AON-bank pins so that no wake can reach the hub. -/
  | vddIo18Loss
  /-- REFCLK_LOSS (R646): Loss of a reference clock takes that interface's links down while the core and other interfaces run on. -/
  | refclkLoss (clk : RefClk)
  /-- PERST_ASSERT (R595): Assertion of PERST_N resets only the host endpoint before ready, and starts a host-loss reset once ready. -/
  | perstAssert
  /-- PERST_DEASSERT (R595): Deassertion of PERST_N releases cold-start stages C2 to C8 the first time, and otherwise lets the host link train and may wake the hub. -/
  | perstDeassert
  /-- STAGE_LAUNCH (R600): The launch interval of a start stage expires and the sequencer launches the next stage. -/
  | stageLaunch (stage : Nat)
  /-- ROT_BOOT_DONE (R599): Stage C1 ends: the ROT has verified and measured the boot chain and released management. -/
  | rotBootDone (images : List BootImage)
  /-- OTP_READ_DONE (R599): Stage C2 ends: fuse and OTP are read, floor-plan stages 1 and 2 are applied, and MR 8 and MR 9 are extended. -/
  | otpReadDone (f : FuseRecord)
  /-- DIE_WIPE_DONE (R599): Stage C3 ends: the on-die memories are wiped with read-back and the slices and routers are tested. -/
  | dieWipeDone (slices : List SliceTest) (deadRouters : List Nat) (ethLanes : List (Nat × Nat))
  /-- SITE_TRAINING_DONE (R392): Site training reaches READY and credits have been exchanged. -/
  | siteTrainingDone (x : Nat) (t : SiteTraining)
  /-- HBM_TRAINING_DONE (R239): Attachment training ends with identity checked, lanes repaired, channels trained and refresh started. -/
  | hbmTrainingDone (a : Nat) (idOk : Bool) (chans : List (Nat × Nat × Nat))
  /-- OPTICAL_TRAINING_DONE (R446): Optical strands finish training and are UP. -/
  | opticalTrainingDone (a : Nat) (engineId temp badLanes : Nat) (peers : List (Nat × LinkBody))
  /-- OPTICAL_STAGE_DEADLINE (R601): Stage C6 ends on its 2.16 s bound, leaving strands that are not yet UP to train in the background. -/
  | opticalStageDeadline
  /-- TIME_STAGE_DEADLINE (R601): Stage C7 ends on its 0.7 s bound without START. -/
  | timeStageDeadline
  /-- HANK_CHUNK_RECEIVE (R604): A hank controller receives a firmware chunk and stores it only if it matches its digest. -/
  | hankChunkReceive (n chunk : Nat) (ok : Bool)
  /-- DELIVERY_REPAIR_ROUND (R604): A 30 µs repair round ends, after hanks have requested their missing chunks by unicast. -/
  | deliveryRepairRound (n : Nat) (got : Nat)
  /-- HANK_SELF_TEST_DONE (R604): A hank's known-answer test or full self-test ends, and the hank leaves RESET or is removed. -/
  | hankSelfTestDone (n : Nat) (digestOk : Bool) (t : HankTest)
  /-- WARM_RESET (R610): A write to MGT.RESET.WARM starts a device warm reset. -/
  | warmReset (r : Requester)
  /-- WARM_DRAIN_DONE (R602): Stage W1 ends: drain and lay-by are complete, on-die memory is wiped and tested, and partitions are wiped. -/
  | warmDrainDone (slices : List SliceTest)
  /-- WARM_ROT_DONE (R602): Stage W2 ends: fuse and OTP are re-read and components are activated or reloaded. -/
  | warmRotDone (images : List BootImage)
  /-- HBM_RESTORE_DONE (R602): Stage W3 ends: HBM is restored and sites are retrained and re-enumerated. -/
  | hbmRestoreDone (a : Nat) (chOk : Nat)
  /-- TIME_RELOCK_DONE (R602): Stage W4 ends: link delays are measured and the time base is locked again. -/
  | timeRelockDone (ok : Bool)
  /-- DRAIN_LIMIT_EXPIRE (R607): DRAIN_US passes at a reset boundary, and outstanding transactions receive synthesised errors. -/
  | drainLimitExpire (part : Option Nat)
  /-- PARTITION_RESET (R608): A write to PRT.CTRL.RESET starts a partition reset: fetch stops, tasks cancel and the drain begins. -/
  | partitionReset (r : Requester) (p : Nat)
  /-- PARTITION_RESET_DONE (R608): The partition's homes and pages are reset and PRT.CTRL.RESET reads 0. -/
  | partitionResetDone (p : Nat)
  /-- CORE_RATE_WINDOW (R30): A 1 µs monitor window ends and NOW_MSPS and MIN_MSPS are updated. -/
  | coreRateWindow (msps worstClass worstInst worstMargin : Nat)
  /-- DMM_TAP_ADD (R28): A region's margin falls below ACT and it adds one delay tap at its next handshake boundary. -/
  | dmmTapAdd (cls inst margin : Nat)
  /-- DMM_TAP_REMOVE (R28): The margin has stayed above WARN for RETREAT_MS and the region removes one tap. -/
  | dmmTapRemove (cls inst margin aboveMs : Nat)
  /-- DMM_FAULT (R29): The margin is below ACT with all four taps in use: the region stops handshakes, and a second fall makes the unit FAULTED. -/
  | dmmFault (cls inst margin : Nat)
  /-- DMM_RESUME (R29): 10 µs after a stop, the region resumes if its margin is at or above ACT. -/
  | dmmResume (cls inst margin : Nat)
  /-- DMM_TRANSIENT (R29): 1 ms passes after a resume with no second fall, and the fault is counted as transient. -/
  | dmmTransient (cls inst : Nat)
  /-- DMM_CFG_WRITE (R31): A write to GLB.DMM_CFG is checked and takes effect at the next window, or is ignored with CFG_REJECT. -/
  | dmmCfgWrite (r : Requester) (size : Nat) (high : Bool) (data : Nat)
  /-- REGISTER_WRITE (R48): A write to a register with no row of its own is applied in requester order under its field class. -/
  | registerWrite (r : Requester) (addr size data : Nat)
  /-- INVALID_ACCESS (R47): An access of invalid size or alignment completes as zero or is dropped, and sets PAGE_ERR.ACCESS. -/
  | invalidAccess (r : Requester) (addr size : Nat) (write : Bool)
  /-- INVISIBLE_PAGE_ACCESS (R74): An access to a page invisible to the requester behaves as for an absent page and sets ACCESS. -/
  | invisiblePageAccess (r : Requester) (addr : Nat) (write : Bool)
  /-- RC_FIELD_READ (R61): A read of the half of a register that holds an RC field clears that field. -/
  | rcFieldRead (r : Requester) (addr size : Nat)
  /-- FENCE_SET (R65): Setting PAGE_CTRL.FENCE stops the block within its fence bound and discards its working state. -/
  | fenceSet (r : Requester) (cls inst : Nat)
  /-- FENCE_CLEAR (R65): Clearing FENCE returns a FENCED block to IDLE, and is refused with ORDER when the block is FAULTED. -/
  | fenceClear (r : Requester) (cls inst : Nat)
  /-- QUIESCE_REQ_SET (R63): Setting QUIESCE_REQ holds the block: in-flight work finishes and no new work starts. -/
  | quiesceReqSet (r : Requester) (cls inst : Nat)
  /-- QUIESCE_REQ_CLEAR (R63): Clearing QUIESCE_REQ lets the block accept work again. -/
  | quiesceReqClear (r : Requester) (cls inst : Nat)
  /-- ENABLE_SET (R63): Setting PAGE_CTRL.ENABLE makes the block eligible for work. -/
  | enableSet (r : Requester) (cls inst : Nat)
  /-- ENABLE_CLEAR (R63): Clearing ENABLE withdraws the block, and upstream blocks route its work elsewhere or fail it. -/
  | enableClear (r : Requester) (cls inst : Nat)
  /-- QUIESCE_COMPLETE (R63): The last in-flight unit of a QUIESCING block ends and the page goes to IDLE. -/
  | quiesceComplete (cls inst : Nat)
  /-- COMMIT_REQUEST (R69): A write of 1 to PAGE_COMMIT sets COMMIT_BUSY, or is refused with ORDER. -/
  | commitRequest (r : Requester) (cls inst : Nat)
  /-- COMMIT_APPLY (R70): At the block's commit boundary the shadow STAGED registers become active together, or are refused; COMMIT_SEQ increments. -/
  | commitApply (cls inst : Nat)
  /-- WAY_MAP_COMMIT (R222): A way-map commit writes back, invalidates and zeroes the affected ways, then makes the new map active. -/
  | wayMapCommit (n : Nat)
  /-- BLOCK_RST (R60): A write of 1 to RST_CTRL.BLOCK_RST resets the block while its boundary is drained and absorbed. -/
  | blockRst (r : Requester) (cls inst : Nat)
  /-- BLOCK_RST_COMPLETE (R60): A block reset completes and the page leaves RESET for IDLE, FENCED or FAULTED. -/
  | blockRstComplete (cls inst : Nat) (testOk : Bool)
  /-- INT_TEST_WRITE (R58): A write to INT_TEST sets the same bits of INT_STATUS as their real causes would. -/
  | intTestWrite (r : Requester) (cls inst : Nat) (size : Nat) (high : Bool) (data : Nat)
  /-- OWNER_WRITE (R75): A write to OWNER changes the partition or access class under the requester's rights, or is refused. -/
  | ownerWrite (r : Requester) (cls inst data : Nat)
  /-- PARITY_SWEEP (R72): The background parity sweep visits registers. -/
  | paritySweep (cls inst : Nat) (bad : Option Nat)
  /-- FLOOR_PLAN_CHANGE (R88): The hub writes a live floor-plan change under an odd GEN, then completes it at the next even GEN. -/
  | floorPlanChange (u : UnitId) (cause : Cause) (sub : Nat)
  /-- TILE_TAKE (R121): A free hank takes its next tile or strip from the tile queue under the placement mode. -/
  | tileTake (n start : Nat)
  /-- HANK_STEP (R98): One hank step computes and accumulates the products of every good spindle, and the check spindle recomputes the victim. -/
  | hankStep (n : Nat) (agree : Bool) (err : SramErr)
  /-- CHECK_REPLAY_DONE (R115): The replay ends: an agreement commits the update as transient, and a second disagreement starts the known-answer pattern. -/
  | checkReplayDone (n : Nat) (agree : Bool)
  /-- CHECK_KNOWN_ANSWER_DONE (R115): The 64-step known-answer pattern ends and decides whether the victim or the check spindle is faulty. -/
  | checkKnownAnswerDone (n : Nat) (pass : Bool)
  /-- OPERAND_FILL (R105): Operand bytes arrive in a bobbin, within the lookahead. -/
  | operandFill (n : Nat) (f : Fill) (contended : Bool)
  /-- DRAIN_DONE (R101): The drain of an accumulator set completes, so a tile waiting for that set may start. -/
  | drainDone (n : Nat)
  /-- TOPK_MERGE (R152): The hank that ends an M tile's last strip reads the other segment lists and merges them. -/
  | topkMerge (n : Nat)
  /-- DISTAFF_ARRIVAL (R109): A THIN request reaches the distaff and joins a batch, opens one, or releases one. -/
  | distaffArrival (t : TaskId)
  /-- DISTAFF_WINDOW_EXPIRE (R110): WINDOW × 100 ns pass since a batch's first request and the batch is released. -/
  | distaffWindowExpire (b : Nat)
  /-- SP_FENCE_WRITE (R124): A write to HNK.SP_FENCE records spindle fences, or is ignored when too few spindles would remain. -/
  | spFenceWrite (r : Requester) (n size : Nat) (high : Bool) (data : Nat)
  /-- SPINDLE_FENCE_APPLY (R124): At the next segment boundary the fenced spindles are removed and the tile restarts. -/
  | spindleFenceApply (n : Nat)
  /-- SPINDLE_RETURN (R124): A spindle whose fence bit was cleared returns at the next tile boundary. -/
  | spindleReturn (n : Nat)
  /-- HANK_WATCHDOG_EXPIRE (R618): A hank controller watchdog expires, WATCHDOG is set and the hank is reset. -/
  | hankWatchdogExpire (n : Nat)
  /-- HANK_SIGNATURE_TEST (R618): The controller runs its periodic 1,024-step signature test. -/
  | hankSignatureTest (n : Nat) (pass : Bool)
  /-- SHADOW_POWER_WINDOW (R385): A 1 µs shadow power estimate ends, and shadow hanks throttle when it exceeds CAP_DW. -/
  | shadowPowerWindow (site estDw : Nat)
  /-- QUEUE_CREATE (R162): CREATE checks its arguments and creates the queue ACTIVE. -/
  | queueCreate (r : Requester) (p q : Nat)
  /-- QUEUE_DESTROY (R163): DESTROY stops fetching and cancels every live task of the queue. -/
  | queueDestroy (r : Requester) (p q : Nat)
  /-- QUEUE_DESTROY_COMPLETE (R163): Every task of a destroyed queue has retired: the queue ceases to exist and its reservation returns. -/
  | queueDestroyComplete (q : Nat)
  /-- QUEUE_STOP (R162): STOP stops fetching and puts the queue in STOPPED_SW. -/
  | queueStop (r : Requester) (p q : Nat)
  /-- QUEUE_START (R162): START resumes fetching at HEAD. -/
  | queueStart (r : Requester) (p q : Nat)
  /-- QUEUE_QUERY (R162): QUERY writes the queue's context to QARG0 to QARG2. -/
  | queueQuery (r : Requester) (p q : Nat)
  /-- DB_TAIL (R165): A DB_TAIL write is accepted as the new TAIL, or stops the queue with OVERRUN. -/
  | dbTail (q tail : Nat)
  /-- DB_EVENT (R180): A DB_EVENT write adds 1 to an event of the queue's partition. -/
  | dbEvent (q e : Nat)
  /-- TASK_FETCH (R167): The Dispatcher fetches a ring slot, checks it, makes the task live and advances HEAD. -/
  | taskFetch (q : Nat) (slot : Option (List Byte))
  /-- SPIN_DISPATCH (R178): A ready SPIN is placed on the effective hank set, or on its distaff, or ends with an error. -/
  | spinDispatch (pds : List PdRead)
  /-- MOVE_DISPATCH (R172): A MOVE is given to a free DMA engine. -/
  | moveDispatch
  /-- SITE_TASK_DISPATCH (R409): A SITE task is checked and sent to its function as a TaskMsg. -/
  | siteTaskDispatch
  /-- XFER_DISPATCH (R472): An XFER task is bound to its schedule entry, or ends with FABRIC_ERROR. -/
  | xferDispatch
  /-- COLL_DISPATCH (R480): A COLL task is started on the collective engine. -/
  | collDispatch (srcPages dstPages : List Addr)
  /-- WAIT_DISPATCH (R181): A WAIT is dispatched and evaluated against its event. -/
  | waitDispatch
  /-- SIGNAL_DISPATCH (R183): A SIGNAL is dispatched and its fence point is set. -/
  | signalDispatch
  /-- ITIN_START (R264): START reads the itinerary header, captures MS_BASE and sets MARK. -/
  | itinStart (hdr : Option (List Byte))
  /-- ITIN_ADVANCE (R264): ADVANCE raises MARK. -/
  | itinAdvance
  /-- ITIN_STOP (R264): STOP ends issuing on the slot. -/
  | itinStop
  /-- KEY_ADVANCE (R288): A KEY ADVANCE task derives generation G + 1, or ends with KEY_BUSY. -/
  | keyAdvance
  /-- KEY_SWITCH_DONE (R288): Every channel has switched its writes to G + 1, PENDING reads 1 and the KEY task is DONE. -/
  | keySwitchDone (p : Nat)
  /-- TASK_DONE (R174): A task's engine reports it DONE with a status, and its reference walk begins. -/
  | taskDone (t : TaskId) (status : Nat)
  /-- REFERENCE_DELIVERY (R174): The Dispatcher delivers one successor reference. -/
  | referenceDelivery (t : TaskId) (err : SramErr)
  /-- SUCC_BLOCK_READ (R174): A successor-block read completes and the walk continues. -/
  | succBlockRead (t : TaskId) (data : Option (List Byte))
  /-- TASK_AGING (R175): A ready task that has waited AGE_US moves up one priority. -/
  | taskAging (t : TaskId)
  /-- EVENT_READ (R180): EVT_CMD READ returns the event's state in EVT_DATA. -/
  | eventRead (r : Requester) (p e : Nat) (err : SramErr)
  /-- EVENT_SET (R180): EVT_CMD SET writes COUNT and clears ERR and forwarding. -/
  | eventSet (r : Requester) (p e : Nat)
  /-- EVENT_FORWARD (R182): EVT_CMD FORWARD binds a local event to a remote hub's event. -/
  | eventForward (r : Requester) (p e : Nat)
  /-- FENCE_COMPLETE (R183): Every write covered by a SIGNAL has reached its scope's point. -/
  | fenceComplete (t : TaskId) (page : Option Addr)
  /-- HOME_ACCESS (R205): An access passes a line's ordering point at its home and is served. -/
  | homeAccess (a : Access) (op : AccOp) (err : SliceErr)
  /-- SKEIN_MISS_FILL (R202): A fill returns from a lower tier and the line is allocated. -/
  | skeinMissFill (txn : Nat)
  /-- ATOMIC_ADD (R206): An ADD atomic is carried out at the home. -/
  | atomicAdd (a : Access) (ty : Nat) (fetch : Bool) (operand : List Byte) (err : SliceErr)
  /-- ATOMIC_FADD (R207): An FADD atomic is carried out at the home. -/
  | atomicFadd (a : Access) (ty : Nat) (fetch : Bool) (operand : List Byte) (err : SliceErr)
  /-- ATOMIC_MIN (R207): A MIN atomic is carried out at the home. -/
  | atomicMin (a : Access) (ty : Nat) (fetch : Bool) (operand : List Byte) (err : SliceErr)
  /-- ATOMIC_MAX (R207): A MAX atomic is carried out at the home. -/
  | atomicMax (a : Access) (ty : Nat) (fetch : Bool) (operand : List Byte) (err : SliceErr)
  /-- ATOMIC_SWAP (R206): A SWAP atomic is carried out at the home. -/
  | atomicSwap (a : Access) (ty : Nat) (fetch : Bool) (operand : List Byte) (err : SliceErr)
  /-- ATOMIC_CAS (R206): A CAS atomic is carried out at the home. -/
  | atomicCas (a : Access) (ty : Nat) (fetch : Bool) (operand : List Byte) (err : SliceErr)
  /-- ATOMIC_XADD (R208): An XADD adds an XACC container exactly, or marks the container RANGE. -/
  | atomicXadd (a : Access) (ty : Nat) (fetch : Bool) (operand : List Byte) (err : SliceErr)
  /-- SECTOR_READ (R213): A sector read is served from the bank, or through the narrow queue. -/
  | sectorRead (a : Access) (err : SliceErr)
  /-- SECTOR_WRITE (R213): A sector write marks a valid sector dirty, or writes through to HBM. -/
  | sectorWrite (a : Access) (data : List Byte) (poison : Nat) (err : SliceErr)
  /-- GATHER_ENABLE (R217): A write of ENABLE = 1 to SKN.GATHER starts loading the gather descriptor. -/
  | gatherEnable (r : Requester) (n slot data : Nat)
  /-- GATHER_DESC_LOADED (R217): The gather descriptor load ends, and the slot becomes usable or faulted. -/
  | gatherDescLoaded (n slot : Nat)
  /-- GATHER_WINDOW_READ (R215): A read of a gather window returns packed table rows. -/
  | gatherWindowRead (a : Access)
  /-- GATHER_ROW_RETURN (R218): A gathered row or index line arrives at the engine. -/
  | gatherRowReturn (n slot : Nat)
  /-- WIPE_DONE (R225): A slice wipe ends, WIPE_BUSY clears and held accesses proceed. -/
  | wipeDone (n : Nat)
  /-- SLICE_BANK_TEST_DONE (R228): A slice bank self-test ends, BANK_FAIL is set and a failed slice becomes FAULTED. -/
  | sliceBankTestDone (n bad : Nat)
  /-- HBM_REQUEST_ADMIT (R342): An HBM queue admits a request within its partition share, or returns it to its tollgate. -/
  | hbmRequestAdmit (req : Nat)
  /-- SHARE_SLOT_FREED (R342): A channel reports a freed slot, and a waiting request passes again. -/
  | shareSlotFreed (ch : Nat)
  /-- HBM_COMMAND_SLOT (R238): A pseudo-channel issues one DRAM command under the scheduling rules. -/
  | hbmCommandSlot (ch pc : Nat) (ready : List Nat) (err : SramErr)
  /-- HBM_READ_RETURN (R273): Sectors read from HBM are checked, corrected and written back, or re-read. -/
  | hbmReadReturn (req : Nat) (e0 e1 : List LaneHit)
  /-- HBM_REREAD_RESULT (R273): The re-read of an uncorrectable sector returns, and the fault is classed transient or lasting. -/
  | hbmRereadResult (req : Nat) (e0 e1 : List LaneHit)
  /-- REPLICA_REPAIR (R282): The replica sector is read, returned to the requester and rewritten to the primary. -/
  | replicaRepair (req : Nat) (e0 e1 : List LaneHit)
  /-- HBM_CALIBRATION (R240): Every CAL_MS a channel recalibrates, with its queues held. -/
  | hbmCalibration (ch : Nat) (ok : Bool)
  /-- HCH_RETRAIN (R241): A write to HCH.CTRL.RETRAIN retrains one channel while its requests are held. -/
  | hchRetrain (r : Requester) (ch : Nat)
  /-- HCH_RETRAIN_DONE (R241): A channel retrain ends: success, a repeat, or the channel becomes FAULTED. -/
  | hchRetrainDone (ch : Nat) (ok : Bool)
  /-- HBM_REFRESH (R242): The refresh interval expires and a per-bank refresh or RFM is issued. -/
  | hbmRefresh (ch : Nat) (rfm : Bool)
  /-- HBM_TEMP_READ (R242): The stack temperature is read every 1 ms, and may halve refresh or set THERM_HOT. -/
  | hbmTempRead (a temp : Nat)
  /-- ALLOC (R247): GCMD ALLOC assigns free granules to the partition. -/
  | alloc (r : Requester) (p first count peer : Nat)
  /-- FREE (R247): GCMD FREE releases granules for zero-fill. -/
  | free (r : Requester) (p first count peer : Nat)
  /-- SET_GROUP (R247): GCMD SET_GROUP writes back cached lines and changes HGROUP. -/
  | setGroup (r : Requester) (p first count peer : Nat)
  /-- SHARE (R247): GCMD SHARE grants read access to a peer partition. -/
  | share (r : Requester) (p first count peer : Nat)
  /-- UNSHARE (R247): GCMD UNSHARE removes a peer's read access. -/
  | unshare (r : Requester) (p first count peer : Nat)
  /-- SET_REPLICA (R247): GCMD SET_REPLICA links primaries to replicas and starts the copy. -/
  | setReplica (r : Requester) (p first count peer : Nat)
  /-- REPLICA_COPY_DONE (R249): The SET_REPLICA copy of a primary completes. -/
  | replicaCopyDone (p : Nat)
  /-- CLEAR_REPLICA (R247): GCMD CLEAR_REPLICA unlinks replica pairs. -/
  | clearReplica (r : Requester) (p first count peer : Nat)
  /-- ATTACH_POOL (R247): GCMD ATTACH_POOL attaches granules to a tiered range's pool. -/
  | attachPool (r : Requester) (p first count peer : Nat)
  /-- DETACH_POOL (R247): GCMD DETACH_POOL detaches pool granules. -/
  | detachPool (r : Requester) (p first count peer : Nat)
  /-- GRANULE_QUERY (R247): GCMD QUERY returns a granule map entry in GARG. -/
  | granuleQuery (r : Requester) (p first count peer : Nat)
  /-- FREE_ALL (R247): GCMD FREE_ALL frees every granule the partition owns. -/
  | freeAll (r : Requester) (p first count peer : Nat)
  /-- TIER_EPOCH (R253): At the end of an epoch the tier engine plans promotions and demotions and halves the counts. -/
  | tierEpoch (p range : Nat)
  /-- MIGRATION_DONE (R254): A migration copy ends and the range granule switches tier. -/
  | migrationDone (p range index : Nat) (cells : List (Nat × Byte)) (poison : List Nat)
  /-- MIGRATION_FAIL (R254): A migration copy or translation fails and the migration is abandoned. -/
  | migrationFail (p range index : Nat)
  /-- STAGE_READ (R260): The itinerary engine reads a slot's next stage. -/
  | stageRead (slot : Nat) (stage : ItnStage) (status : Nat)
  /-- STAGE_ISSUE (R260): A stage whose trigger is met is issued when the in-flight limit allows. -/
  | stageIssue (slot : Nat)
  /-- STAGE_DONE (R261): Every line of a stage has reached its target and the stage's EVENT is incremented. -/
  | stageDone (slot index status : Nat)
  /-- SCRUB_VISIT (R291): The scrubber visits a line, checks it and re-encrypts old-generation sectors. -/
  | scrubVisit (a : Nat) (e0 e1 : ScrubErr)
  /-- ZERO_FILL_GRANULE (R294): The scrubber writes a freed granule as CLEAR sectors and clears ZEROING. -/
  | zeroFillGranule (a : Nat)
  /-- CTX_BIND (R301): BIND binds a PASID to a context slot. -/
  | ctxBind (r : Requester) (slot : Nat)
  /-- CTX_UNBIND (R301): UNBIND removes cached translations and waits for the slot's requests to drain. -/
  | ctxUnbind (r : Requester) (slot : Nat)
  /-- UNBIND_DRAINED (R301): No request of the unbound slot is in flight any more, and the slot is freed. -/
  | unbindDrained (slot : Nat)
  /-- CTX_QUERY (R301): QUERY returns a slot's context. -/
  | ctxQuery (r : Requester) (slot : Nat)
  /-- CTX_FIND (R301): FIND returns the slot that binds a PASID. -/
  | ctxFind (r : Requester) (slot : Nat)
  /-- TRANSLATE (R314): A client looks up a virtual address in its level-1 and level-2 caches. -/
  | translate (client id : Nat) (task : Option TaskId) (part pasid va : Nat) (rd wr : Bool) (parity : Nat)
  /-- ATS_COMPLETION (R304): An ATS Translation Completion arrives and is cached or turned into a fault. -/
  | atsCompletion (slot vpn2 : Nat) (rd wr : Bool) (sizeLog addr : Nat) (u : Bool)
  /-- DEVICE_WALK_DONE (R308): A device table walk ends with a leaf or a refusal. -/
  | deviceWalkDone (slot vpn2 : Nat) (entries : List (Option Nat))
  /-- PRG_RESPONSE (R322): A PRG Response arrives and releases or refuses the entry's waiters. -/
  | prgResponse (prg code : Nat)
  /-- PRI_TIMEOUT (R322): PRI_TIMEOUT_MS passes without an answer and the waiters are refused. -/
  | priTimeout (entry : Nat)
  /-- FQ_RETRY (R323): FQ_CMD RETRY walks a reported device fault again. -/
  | fqRetry (r : Requester) (entry : Nat)
  /-- FQ_FAIL (R323): FQ_CMD FAIL refuses every waiter of a reported entry. -/
  | fqFail (r : Requester) (entry : Nat)
  /-- ATS_INVALIDATE (R317): An ATS Invalidate Request removes matching translations and tile entries. -/
  | atsInvalidate (tag : Nat) (pasid : Option Nat) (vpn2 count : Nat)
  /-- INVALIDATION_COMPLETE (R317): The affected non-posted requests have completed, and the Invalidation Completion is sent. -/
  | invalidationComplete (tag : Option Nat)
  /-- INV_RANGE (R319): INV_CMD RANGE removes a device VA range. -/
  | invRange (r : Requester) (slot : Nat)
  /-- INV_CONTEXT (R319): INV_CMD CONTEXT removes every translation of a slot. -/
  | invContext (r : Requester) (slot : Nat)
  /-- ATS_ENABLE_CLEAR (R305): Clearing ATS Enable removes every cached HOST translation. -/
  | atsEnableClear
  /-- PRI_ENABLE_CYCLE (R324): Clearing and setting PRI Enable leaves the stopped state and frees every PRG index. -/
  | priEnableCycle
  /-- L1_FLUSH (R329): A write to FLUSH empties a client's level-1 cache. -/
  | l1Flush (r : Requester) (client : Nat)
  /-- FLIT_HOP (R335): A flit crosses one router along its weft-warp or detour route. -/
  | flitHop (f : Flit) (parityOk crcOk : Bool)
  /-- TOLLGATE_PASS (R341): A transaction passes its tollgate when its class bucket holds enough tokens. -/
  | tollgatePass (t : TolReq)
  /-- TOKEN_REFILL (R341): Each 10 ns tick adds RATE ÷ 100 tokens to a bucket. -/
  | tokenRefill
  /-- URGENCY_CHANGE (R346): A real-time master's buffer crosses a threshold and its urgency changes. -/
  | urgencyChange (tol percent : Nat)
  /-- LATENCY_WINDOW (R347): A 1 µs window ends, and LAT_NOW_NS and the latency step are updated. -/
  | latencyWindow (tol : Nat)
  /-- TRANSACTION_RESPONSE (R347): A response or acceptance reaches its initiator and its latency is measured. -/
  | transactionResponse (tol id latNs : Nat)
  /-- INITIATOR_TIMEOUT (R348): A transaction's timer expires and an error response is synthesised. -/
  | initiatorTimeout (tol id : Nat)
  /-- SNOOP_TIMEOUT (R371): An agent answers no snoop within SNP_TIMEOUT_US and is treated as RspI. -/
  | snoopTimeout (line agent : Nat)
  /-- CXL_MEMRD (R375): A host MemRd to an HDM range is served as RdShared, RdOwn or RdCur. -/
  | cxlMemrd (id hpa mv : Nat) (dataOnly : Bool)
  /-- CXL_MEMWR (R375): A host MemWr is handled as a WrBack or as a non-caching write. -/
  | cxlMemwr (id hpa mv : Nat) (data : List Byte) (poison : Nat)
  /-- CXL_BISNP_RESPONSE (R362): The host answers a BISnp and the waiting home transaction proceeds. -/
  | cxlBisnpResponse (line : Nat) (dirty : Option (List Byte)) (poison : Nat)
  /-- BICONFLICT (R376): A BISnp crossing a host request follows the BIConflict flow. -/
  | biconflict (line : Nat)
  /-- H2D_SNPDATA (R377): A host SnpData to a T3 line is answered after the slice has snooped its sites. -/
  | h2dSnpdata (hpaLine : Nat)
  /-- H2D_SNPINV (R377): A host SnpInv is answered after the slice has invalidated its sites. -/
  | h2dSnpinv (hpaLine : Nat)
  /-- H2D_SNPCUR (R377): A host SnpCur is answered after a SnpFwdCur to the sites. -/
  | h2dSnpcur (hpaLine : Nat)
  /-- CXL_H2D_RESPONSE (R377): The host answers a D2H request, and the slice gains the host state it needs. -/
  | cxlH2dResponse (hpaLine : Nat) (data : List Byte) (poison st : Nat)
  /-- SITE_STATUS_CHANGE (R391): A new sideband status is received from a site chiplet. -/
  | siteStatusChange (x status : Nat)
  /-- SIDEBAND_SILENCE (R391): No sideband traffic for 1 ms, so the side reads as NOT_READY. -/
  | sidebandSilence (x : Nat)
  /-- SITE_READY_TIMEOUT (R419): A chiplet that dropped READY has not returned within 100 ms and the site becomes FAULTED. -/
  | siteReadyTimeout (x : Nat)
  /-- LANE_MAP_DIGEST (R393): The lane-map digests are exchanged and compared, leading to a retrain or an imposed map. -/
  | laneMapDigest (x digest : Nat) (peerMap : List LaneFail)
  /-- CHANNEL_RETRAIN (R394): A write to SIT.RETRAIN retrains one site channel while its messages are held. -/
  | channelRetrain (r : Requester) (x mask : Nat)
  /-- CHANNEL_RETRAIN_DONE (R394): A site channel retrain ends and held messages are replayed. -/
  | channelRetrainDone (x c : Nat) (ok : Bool) (lanes : LaneFail)
  /-- ASP_FLIT_RECEIVE (R396): An ASP flit is received, CRC-checked, acknowledged or NAKed, and its slots are taken. -/
  | aspFlitReceive (x c : Nat) (f : AspFlit) (crcOk : Bool)
  /-- ASP_REPLAY_TIMEOUT (R396): No ACK within 2 µs, so the sender resends from the oldest unacknowledged flit. -/
  | aspReplayTimeout (x c : Nat)
  /-- ASP_RDSHARED (R362): A site RdShared is served at the home. -/
  | aspRdshared (x c : Nat) (m : AspMsg)
  /-- ASP_RDOWN (R362): A site RdOwn is served at the home. -/
  | aspRdown (x c : Nat) (m : AspMsg)
  /-- ASP_UPGRADE (R362): A site Upgrade is granted or handled as RdOwn. -/
  | aspUpgrade (x c : Nat) (m : AspMsg)
  /-- ASP_RDCUR (R362): A site RdCur reads lines without caching them. -/
  | aspRdcur (x c : Nat) (m : AspMsg)
  /-- ASP_WR (R398): A site full-line write is applied and answered with Cmp. -/
  | aspWr (x c : Nat) (m : AspMsg)
  /-- ASP_WRPART (R398): A site write under byte enables is applied. -/
  | aspWrpart (x c : Nat) (m : AspMsg)
  /-- ASP_SECRD (R398): A site sector read is served on the sector path. -/
  | aspSecrd (x c : Nat) (m : AspMsg)
  /-- ASP_SECWR (R398): A site sector write is applied. -/
  | aspSecwr (x c : Nat) (m : AspMsg)
  /-- ASP_ATOMIC (R398): A site atomic is carried out at the home. -/
  | aspAtomic (x c : Nat) (m : AspMsg)
  /-- ASP_XLATEREQ (R408): A site translation request is looked up and answered with XlateCpl. -/
  | aspXlatereq (x c : Nat) (m : AspMsg)
  /-- ASP_DOORBELL (R410): A site doorbell updates a queue's TAIL. -/
  | aspDoorbell (x c : Nat) (m : AspMsg)
  /-- ASP_EVENT (R410): A site event message increments an event. -/
  | aspEvent (x c : Nat) (m : AspMsg)
  /-- ASP_TASKDONE (R409): TaskDone ends a SITE task and returns a credit. -/
  | aspTaskdone (x c : Nat) (m : AspMsg)
  /-- ASP_INTR (R410): A site interrupt raises the mapped MSI-X vector. -/
  | aspIntr (x c : Nat) (m : AspMsg)
  /-- ASP_CLEANEVICT (R362): A site announces the drop of an E or F line. -/
  | aspCleanevict (x c : Nat) (m : AspMsg)
  /-- ASP_WRBACK (R370): A site returns an M line to the home. -/
  | aspWrback (x c : Nat) (m : AspMsg)
  /-- ASP_RSPI (R363): A snooped site answers RspI. -/
  | aspRspi (x c : Nat) (m : AspMsg)
  /-- ASP_RSPS (R363): A snooped site answers RspS. -/
  | aspRsps (x c : Nat) (m : AspMsg)
  /-- ASP_RSPFWDS (R363): A snooped site reports data forwarded and keeps S. -/
  | aspRspfwds (x c : Nat) (m : AspMsg)
  /-- ASP_RSPFWDI (R363): A snooped site reports data forwarded and goes to I. -/
  | aspRspfwdi (x c : Nat) (m : AspMsg)
  /-- ASP_RSPFWDCUR (R363): A snooped site reports a copy forwarded with its state unchanged. -/
  | aspRspfwdcur (x c : Nat) (m : AspMsg)
  /-- ASP_RSPWBISSUED (R370): A snooped site reports that its WrBack is already issued. -/
  | aspRspwbissued (x c : Nat) (m : AspMsg)
  /-- ASP_RSPIDATA (R363): A snooped site returns dirty data to the home and goes to I. -/
  | aspRspidata (x c : Nat) (m : AspMsg)
  /-- ASP_CMPACK (R358): A CmpAck closes the home transaction. -/
  | aspCmpack (x c : Nat) (m : AspMsg)
  /-- ASP_FWD (R404): A forwarded line is delivered to its requester, or relayed by the home. -/
  | aspFwd (x c : Nat) (m : AspMsg)
  /-- ASP_HINTACCEPT (R405): A site accepts a hinted line in E. -/
  | aspHintaccept (x c : Nat) (m : AspMsg)
  /-- ASP_HINTDECLINE (R405): A site declines a hinted line. -/
  | aspHintdecline (x c : Nat) (m : AspMsg)
  /-- ASP_XLATEINVDONE (R408): A site confirms removal of translations, which lets the invalidation complete. -/
  | aspXlateinvdone (x c : Nat) (m : AspMsg)
  /-- ASP_CFGCPL (R413): A site answers a configuration request. -/
  | aspCfgcpl (x c : Nat) (m : AspMsg)
  /-- XLATEINV_TIMEOUT (R406): No XlateInvDone within 1 ms, so the channel retrains and AGENT_FAULT is set. -/
  | xlateinvTimeout (x tag : Nat)
  /-- SITE_TASK_TIMEOUT (R409): TASK_TIMEOUT_MS expires and the SITE task ends with SITE_ERROR. -/
  | siteTaskTimeout (x handle : Nat)
  /-- SITE_CFG_READ (R414): CFG_CMD READ reads a function configuration register. -/
  | siteCfgRead (r : Requester) (x func index : Nat)
  /-- SITE_CFG_WRITE (R414): CFG_CMD WRITE writes a function configuration register. -/
  | siteCfgWrite (r : Requester) (x func index : Nat)
  /-- CFG_ANSWER_TIMEOUT (R413): A function does not answer within 10 ms. -/
  | cfgAnswerTimeout (x : Nat)
  /-- SITE_TEST_START (R417): TEST.START runs PRBS-23 loop-back on the site. -/
  | siteTestStart (r : Requester) (x : Nat)
  /-- SITE_TEST_DONE (R417): The site loop-back test ends and the site retrains. -/
  | siteTestDone (x : Nat) (fail : List LaneFail)
  /-- FABRIC_FRAME_RECEIVE (R428): A strand frame is received, its trailer checked, and it is acknowledged or NAKed. -/
  | fabricFrameReceive (g : Nat) (f : FabFrame) (c : FrameCheck)
  /-- FRAME_ACK_TIMEOUT (R428): No ACK within 3 µs, so unacknowledged DATA frames are resent. -/
  | frameAckTimeout (g : Nat)
  /-- PUT (R438): A PUT packet is checked and written into the destination partition. -/
  | put (a : Nat) (p : FabPkt)
  /-- DACK (R439): A DACK arrives and completes or fails the source's packet. -/
  | dack (a : Nat) (p : FabPkt)
  /-- EVENT_PACKET (R182): A forwarded event increment arrives and is added or dropped. -/
  | eventPacket (a : Nat) (p : FabPkt)
  /-- SCHED (R467): A scheduled delivery is written and counted by its RECV entry. -/
  | sched (a : Nat) (p : FabPkt)
  /-- COLL_PACKET (R483): Collective data arrives in SCRATCH. -/
  | collPacket (a : Nat) (p : FabPkt)
  /-- MGMT_PACKET (R562): An MCTP message from a peer hub's management is received. -/
  | mgmtPacket (a : Nat) (p : FabPkt)
  /-- E2E_TIMEOUT (R439): No DACK within TIMEOUT_US, so the packet is resent or given up. -/
  | e2eTimeout (id : Nat)
  /-- STRAND_RETRAIN_DONE (R448): A strand retrain ends and its frames are resent, or its lanes are spared or removed. -/
  | strandRetrainDone (g : Nat) (ok : Bool) (failedLanes : List Nat)
  /-- LANE_CE_WINDOW (R448): A 1 s window ends, and a lane over CE_LIMIT is spared. -/
  | laneCeWindow (a lane corr uncorr : Nat)
  /-- NO_PEER_RETRY (R447): A NO_PEER strand tries again every 1 s. -/
  | noPeerRetry (g : Nat) (peer : Option LinkBody)
  /-- FAB_TEST_START (R449): FAB.TEST.START runs PRBS-31 on the chosen strands. -/
  | fabTestStart (r : Requester) (a : Nat)
  /-- FAB_TEST_DONE (R449): The fabric test ends and the strands retrain. -/
  | fabTestDone (a failLanes : Nat)
  /-- FAB_MODE_WRITE (R441): A write of FAB.CFG.MODE is applied only while no job is bound. -/
  | fabModeWrite (r : Requester) (a : Nat) (secure : Bool)
  /-- JOB_BIND (R442): A write of PRT.JOB binds a partition to a job tag, or is refused. -/
  | jobBind (r : Requester) (p : Nat) (valid : Bool) (tag : Nat)
  /-- TIME_SYNC_CMD (R459): TIME_CMD SYNC starts delay measurement and synchronisation. -/
  | timeSyncCmd (r : Requester)
  /-- TIME_STOP (R464): TIME_CMD STOP returns STATE to OFF and holds the counter. -/
  | timeStop (r : Requester)
  /-- TIME_PING (R457): A PING is received and answered with a PONG. -/
  | timePing (port tick : Nat)
  /-- TIME_PONG (R457): A PONG is received and used in the link delay measurement. -/
  | timePong (port turnPs roundPs : Nat)
  /-- TIME_SYNC (R459): A SYNC sets or corrects the tick and is forwarded down the tree. -/
  | timeSync (port rootTick period lead depth : Nat) (phasePs : Int)
  /-- TIME_READY (R473): A child's READY_THROUGH report is combined and passed up. -/
  | timeReady (port through node : Nat) (locked : Bool)
  /-- TIME_GO (R476): GO(n) is received, forwarded, and scheduled for its tick. -/
  | timeGo (port n tick culprit : Nat)
  /-- TIME_HOLD (R475): HOLD(n) is received and forwarded, and NOTICE.HOLD is set. -/
  | timeHold (port n : Nat)
  /-- TIME_ADOPT (R456): A peer adopts this hub as its time parent. -/
  | timeAdopt (port : Nat)
  /-- TIME_START (R459): START sets the epoch at which the milestone counter becomes 0. -/
  | timeStart (port tick : Nat)
  /-- SYNC_PERIOD (R459): Every 100 µs the root sends SYNC. -/
  | syncPeriod
  /-- PARENT_FAIL (R460): The time parent port fails and the next parent is taken, or STATE becomes LOST. -/
  | parentFail
  /-- EPOCH_REACHED (R459): The epoch tick arrives and the counter becomes 0. -/
  | epochReached
  /-- ROOT_DECISION (R475): At B_n − HOLD_LEAD ÷ 2 the root sends GO or HOLD. -/
  | rootDecision
  /-- MILESTONE_BOUNDARY (R476): The GO tick arrives, the counter moves to n, and entries of milestone n start. -/
  | milestoneBoundary
  /-- SPAN_END (R474): An entry's span ends, and an unfinished send is an overrun. -/
  | spanEnd (p entry : Nat)
  /-- STRETCH_LIMIT (R477): A stretch exceeds STRETCH_LIMIT_MS and the MIL pages fail. -/
  | stretchLimit
  /-- RECV_LOST (R477): A RECV has not counted its BYTES STRETCH_LIMIT_MS after its span. -/
  | recvLost (p entry : Nat)
  /-- SCHED_LOAD (R471): LOAD_CMD LOAD reads a table image into the staged bank. -/
  | schedLoad (r : Requester) (p : Nat)
  /-- SCHED_LOAD_DONE (R471): The table load completes with its result. -/
  | schedLoadDone (p : Nat) (image : Option (List Byte))
  /-- SCHED_CLEAR (R471): LOAD_CMD CLEAR empties the staged bank. -/
  | schedClear (r : Requester) (p : Nat)
  /-- PLY_SET (R484): PLY_CMD SET loads a ply descriptor. -/
  | plySet (r : Requester) (ply : Nat) (desc : Option (List Byte))
  /-- PLY_CLEAR (R484): PLY_CMD CLEAR frees a ply slot. -/
  | plyClear (r : Requester) (ply : Nat)
  /-- PLY_QUERY (R484): PLY_CMD QUERY reports a ply slot. -/
  | plyQuery (r : Requester) (ply : Nat)
  /-- COLL_STEP_TIMEOUT (R483): An unscheduled step's inputs have not arrived within STEP_TIMEOUT_MS. -/
  | collStepTimeout (t : TaskId)
  /-- IMG_SEND (R487): IMG_CMD SEND starts an image broadcast from STAGING. -/
  | imgSend (r : Requester) (image chunks : Nat)
  /-- IMG_ARM (R487): IMG_CMD ARM prepares to receive an image. -/
  | imgArm (r : Requester) (image : Nat)
  /-- IMG_ABORT (R487): IMG_CMD ABORT stops an image transfer. -/
  | imgAbort (r : Requester) (image : Nat)
  /-- IMAGE_DATA (R486): An image chunk is stored and re-sent to children once held. -/
  | imageData (port image offset : Nat) (data : List Byte) (good : Bool)
  /-- IMAGE_REQ (R486): A chunk request is answered with DATA or NOT_HELD. -/
  | imageReq (port image offset : Nat)
  /-- IMAGE_NOT_HELD (R486): NOT_HELD leads the requester to try its next neighbour or its parent. -/
  | imageNotHeld (port image offset : Nat)
  /-- IMAGE_END (R486): END starts the repair rounds. -/
  | imageEnd (port image chunks : Nat)
  /-- IMAGE_REPAIR_ROUND (R486): A repair round ends: the image is complete or the next round begins, up to INCOMPLETE. -/
  | imageRepairRound
  /-- CONFIG_REQUEST (R492): A host configuration request is served or answered with Request Retry Status. -/
  | configRequest (off : Nat) (w : Option CfgField)
  /-- BAR4_READ (R495): A host or peer read through a BAR4 window is served at the home or refused. -/
  | bar4Read (off len reqId : Nat) (ide : Bool)
  /-- BAR4_WRITE (R495): A posted write through a BAR4 window is applied or dropped. -/
  | bar4Write (off reqId : Nat) (ide poisoned : Bool) (data : List Byte)
  /-- HOST_ATOMICOP (R210): A PCIe AtomicOp through BAR4 is mapped to a fetch atomic. -/
  | hostAtomicop (off op reqId : Nat) (ide : Bool) (operand : List Byte)
  /-- HOST_READ_COMPLETION (R501): A completion for a hub read of host memory arrives. -/
  | hostReadCompletion (id : Nat) (ok : Bool) (data : List Byte) (poison : Nat)
  /-- MSIX_UNMASK (R499): Unmasking a vector with its pending bit set sends one message. -/
  | msixUnmask (v : Nat)
  /-- BME_CLEAR (R507): Clearing Bus Master Enable holds host-path requests. -/
  | bmeClear
  /-- BME_SET (R507): Setting Bus Master Enable releases held requests in order. -/
  | bmeSet
  /-- BME_HOLD_TIMEOUT (R507): A request held for BME_HOLD_MS is discarded and its task fails with BME_OFF. -/
  | bmeHoldTimeout (id : Nat)
  /-- DSTATE_CHANGE (R508): The host changes the function's D-state. -/
  | dstateChange (d3 : Bool)
  /-- PME_TURN_OFF (R511): PME_Turn_Off is received and the hub prepares for L2/L3 Ready. -/
  | pmeTurnOff
  /-- PME_TO_ACK (R511): Issued traffic has completed, and PME_TO_Ack is sent. -/
  | pmeToAck
  /-- L1_ENTRY (R509): After 2 µs idle the link enters ASPM L1. -/
  | l1Entry (sub : Bool)
  /-- LINK_RECOVERY (R512): A link Recovery returns to L0 with TLPs replayed. -/
  | linkRecovery (speed width : Nat) (replayed : Nat)
  /-- LINK_DOWN (R513): DL_Down starts the grace timer and holds host-path traffic. -/
  | linkDown (acked : Nat)
  /-- LINK_UP (R513): DL_Up within the grace period retransmits writes and reissues reads. -/
  | linkUp (speed width : Nat) (flit cxl : Bool)
  /-- GRACE_EXPIRE (R514): The link stays down for GRACE_MS and a host-loss reset starts. -/
  | graceExpire
  /-- KEY_PROG (R571): IDE_KM KEY_PROG programs a stream key set. -/
  | keyProg (stream set : Nat)
  /-- K_SET_GO (R571): IDE_KM K_SET_GO activates a key set. -/
  | kSetGo (stream set : Nat)
  /-- K_SET_STOP (R571): IDE_KM K_SET_STOP stops a key set. -/
  | kSetStop (stream set : Nat)
  /-- IDE_QUERY (R571): IDE_KM QUERY reports the IDE state. -/
  | ideQuery (stream : Nat)
  /-- ETH_FRAME_RECEIVE (R522): An Ethernet frame enters the receive buffer, or is dropped, and PFC thresholds are checked. -/
  | ethFrameReceive (e kind prio bytes : Nat)
  /-- RDMA_WRITE_IN (R527): An inbound RDMA WRITE is checked and written at its homes. -/
  | rdmaWriteIn (q : Nat) (r : RdmaReq)
  /-- RDMA_READ_IN (R527): An inbound RDMA READ is served. -/
  | rdmaReadIn (q : Nat) (r : RdmaReq)
  /-- RDMA_SEND_IN (R527): An inbound SEND consumes a receive entry or gets an RNR NAK. -/
  | rdmaSendIn (q : Nat) (r : RdmaReq)
  /-- RDMA_ATOMIC_IN (R527): An inbound Fetch and Add or Compare and Swap is carried out at the home. -/
  | rdmaAtomicIn (q : Nat) (r : RdmaReq)
  /-- RDMA_ACK_IN (R529): An ACK or NAK arrives for issued WQEs. -/
  | rdmaAckIn (q psn : Nat) (a : RdmaAck)
  /-- RDMA_ACK_TIMEOUT (R529): No ACK within TIMEOUT, so packets are resent go-back-N. -/
  | rdmaAckTimeout (q : Nat)
  /-- RNR_TIMER (R529): An RNR wait ends and the request is retried. -/
  | rnrTimer (q : Nat)
  /-- CNP_RECEIVE (R520): A received CNP halves the QP's send rate. -/
  | cnpReceive (q : Nat)
  /-- RATE_RECOVERY (R520): Every 50 µs the QP's rate recovers by 1/16. -/
  | rateRecovery (q : Nat)
  /-- QP_CREATE (R524): QP_CMD CREATE reads a context and puts the QP in RTS. -/
  | qpCreate (r : Requester) (part q : Nat) (ctx : Option (List Byte))
  /-- QP_DESTROY (R524): QP_CMD DESTROY flushes and frees the QP. -/
  | qpDestroy (r : Requester) (part q : Nat)
  /-- QP_QUERY (R524): QP_CMD QUERY reports the QP state. -/
  | qpQuery (r : Requester) (part q : Nat)
  /-- MR_REGISTER (R525): MR_CMD REGISTER sets a memory region. -/
  | mrRegister (r : Requester) (mr key : Nat)
  /-- MR_INVALIDATE (R525): MR_CMD INVALIDATE removes a memory region. -/
  | mrInvalidate (r : Requester) (mr key : Nat)
  /-- ETH_DB_SQ (R526): A DB write moves a send-ring tail. -/
  | ethDbSq (r : Requester) (q index : Nat)
  /-- ETH_DB_RQ (R526): A DB write moves a receive-ring tail. -/
  | ethDbRq (r : Requester) (q index : Nat)
  /-- ETH_DB_CQ (R526): A DB write moves a completion-ring head. -/
  | ethDbCq (r : Requester) (q index : Nat)
  /-- WQE_WRITE (R529): A WRITE WQE is fetched and issued. -/
  | wqeWrite (q : Nat) (w : Wqe) (b : LocalBuf)
  /-- WQE_WRITE_IMM (R529): A WRITE_IMM WQE is fetched and issued. -/
  | wqeWriteImm (q : Nat) (w : Wqe) (b : LocalBuf)
  /-- WQE_SEND (R529): A SEND WQE is fetched and issued. -/
  | wqeSend (q : Nat) (w : Wqe) (b : LocalBuf)
  /-- WQE_SEND_IMM (R529): A SEND_IMM WQE is fetched and issued. -/
  | wqeSendImm (q : Nat) (w : Wqe) (b : LocalBuf)
  /-- WQE_READ (R529): A READ WQE is fetched and issued. -/
  | wqeRead (q : Nat) (w : Wqe) (b : LocalBuf)
  /-- WQE_FETCH_ADD (R529): A FETCH_ADD WQE is fetched and issued. -/
  | wqeFetchAdd (q : Nat) (w : Wqe) (b : LocalBuf)
  /-- WQE_CMP_SWAP (R529): A CMP_SWAP WQE is fetched and issued. -/
  | wqeCmpSwap (q : Nat) (w : Wqe) (b : LocalBuf)
  /-- CQE_WRITE (R528): After the reported data is accepted, a CQE is written and the QP's event incremented. -/
  | cqeWrite (q wrId : Nat) (page : Option Addr)
  /-- ETH_LINK_CHANGE (R531): An Ethernet link goes up or down, and its QPs wait and retry. -/
  | ethLinkChange (e : Nat) (up : Bool)
  /-- ETH_LANE_LOCK_LOSS (R531): A lane loses FEC lock while the others hold, and a lasting failure removes the port. -/
  | ethLaneLockLoss (e lane : Nat)
  /-- LCS_TARGET_WRITE (R537): A write to LCS.TARGET is checked and starts a life-cycle transition, or is refused. -/
  | lcsTargetWrite (r : Requester) (target : Nat)
  /-- LC_TRANSITION_RESET_DONE (R542): The transition reset (T1) completes. -/
  | lcTransitionResetDone
  /-- LC_INTENT_PROGRAMMED (R542): The intent slot is programmed and verified. -/
  | lcIntentProgrammed (fail : Bool)
  /-- LC_ERASE_DONE (R542): User secrets are erased and WIPE_DONE is programmed. -/
  | lcEraseDone (fail : Bool)
  /-- LC_STATE_PROGRAMMED (R542): The state groups or excursion cell are programmed. -/
  | lcStateProgrammed (fail : Option Nat)
  /-- LC_DONE_PROGRAMMED (R542): The slot's DONE bit is programmed. -/
  | lcDoneProgrammed (fail : Bool)
  /-- LC_RESTART_DONE (R542): The ROT restarts and the hub is ready in the new state. -/
  | lcRestartDone (images : List BootImage)
  /-- DEBUG_READY_SET (R548): Zero-fill ends in FIELD_DEBUG or RETURNED, DEBUG_READY is set and DBG becomes MGMT-ONLY. -/
  | debugReadySet
  /-- IDCODE (R547): The TAP IDCODE instruction. -/
  | idcode
  /-- SAMPLE_PRELOAD (R547): The TAP SAMPLE/PRELOAD instruction. -/
  | samplePreload (data : Nat)
  /-- EXTEST (R547): The TAP EXTEST instruction. -/
  | extest (data : Nat)
  /-- LCS_ACCESS_READ (R547): LCS_ACCESS reads LCS.STATUS through the TAP. -/
  | lcsAccessRead
  /-- LCS_ACCESS_WRITE (R546): LCS_ACCESS writes LCS.TARGET through the TAP where the state allows. -/
  | lcsAccessWrite (target : Nat)
  /-- DBG_ACCESS (R547): The TAP DBG_ACCESS instruction reaches the DBG page. -/
  | dbgAccess (off : Nat) (write : Bool) (data : Nat)
  /-- TST_ACCESS (R547): The TAP TST_ACCESS instruction reaches TST. -/
  | tstAccess (off : Nat) (write : Bool) (data : Nat)
  /-- SCAN (R547): The TAP SCAN instruction reaches the internal scan chains. -/
  | scan (data : Nat)
  /-- WIR_1500 (R547): The TAP WIR_1500 instruction reaches the IEEE 1500 wrappers. -/
  | wir1500 (data : Nat)
  /-- SITE_1838 (R547): The TAP SITE_1838 instruction reaches a site test port. -/
  | site1838 (site data : Nat)
  /-- BYPASS (R547): The TAP BYPASS instruction, or any instruction not live. -/
  | bypass (code bit : Nat)
  /-- DBG_HALT (R551): Setting DBG.CTRL.HALT halts the target at its next boundary. -/
  | dbgHalt (r : Requester) (cls inst : Nat)
  /-- DBG_HALTED (R551): The target reaches its boundary and HALTED is set. -/
  | dbgHalted
  /-- DBG_RESUME (R551): Clearing HALT resumes the target. -/
  | dbgResume (r : Requester)
  /-- DBG_DATA_READ (R551): A read of DBG.DATA returns an internal entry of the halted target. -/
  | dbgDataRead (r : Requester)
  /-- DBG_DATA_WRITE (R551): A write of DBG.DATA replaces an internal entry of the halted target. -/
  | dbgDataWrite (r : Requester) (data : Nat)
  /-- DBG_STEP (R551): STEP runs one unit of work of the halted target. -/
  | dbgStep (r : Requester)
  /-- GET_VERSION (R561): SPDM GET_VERSION is answered. -/
  | getVersion (t : Transport)
  /-- GET_CAPABILITIES (R561): SPDM GET_CAPABILITIES is answered. -/
  | getCapabilities (t : Transport)
  /-- NEGOTIATE_ALGORITHMS (R561): SPDM NEGOTIATE_ALGORITHMS is answered. -/
  | negotiateAlgorithms (t : Transport)
  /-- GET_DIGESTS (R561): SPDM GET_DIGESTS is answered. -/
  | getDigests (t : Transport)
  /-- GET_CERTIFICATE (R561): SPDM GET_CERTIFICATE is answered. -/
  | getCertificate (t : Transport) (slot offset : Nat)
  /-- CHALLENGE (R561): SPDM CHALLENGE is answered. -/
  | challenge (t : Transport) (nonce : Nat)
  /-- GET_MEASUREMENTS (R558): A signed measurement report is returned, or ResponseNotReady during an activation. -/
  | getMeasurements (t : Transport) (session : Option Nat) (index nonce : Nat)
  /-- KEY_EXCHANGE (R561): SPDM KEY_EXCHANGE opens a secure session. -/
  | keyExchange (t : Transport) (mutAuth : Bool)
  /-- FINISH (R561): SPDM FINISH completes session setup. -/
  | finish (t : Transport) (session : Nat) (ok chainOk : Bool)
  /-- END_SESSION (R561): SPDM END_SESSION ends a session. -/
  | endSession (t : Transport) (session : Nat)
  /-- HEARTBEAT (R561): SPDM HEARTBEAT keeps a session alive. -/
  | heartbeat (t : Transport) (session : Nat)
  /-- KEY_UPDATE (R561): SPDM KEY_UPDATE updates session keys. -/
  | keyUpdate (t : Transport) (session : Nat)
  /-- CHUNK_SEND (R561): SPDM CHUNK_SEND carries part of a large message. -/
  | chunkSend (t : Transport) (bytes : Nat) (last : Bool)
  /-- CHUNK_GET (R561): SPDM CHUNK_GET returns part of a large response. -/
  | chunkGet (t : Transport) (bytes : Nat)
  /-- PQ_SIGN (R561): VENDOR_DEFINED PQ_SIGN returns an ML-DSA-87 signature of the last measurement transcript. -/
  | pqSign (t : Transport) (session : Nat)
  /-- SESSION_TIMEOUT (R566): A session ends after 60 s without traffic. -/
  | sessionTimeout (session : Nat)
  /-- REG_READ (R565): A management command reads a register as the management requester. -/
  | regRead (session addr size : Nat)
  /-- REG_WRITE (R565): A management command writes a register as the management requester. -/
  | regWrite (session addr size data : Nat)
  /-- SET_OWNER (R565): SET_OWNER stores the owner anchor and policy and extends MR 11. -/
  | setOwner (session : Nat) (o : OwnerRec)
  /-- REPLACE_OWNER (R565): REPLACE_OWNER replaces the owner record and ends the other sessions. -/
  | replaceOwner (session : Nat) (o : OwnerRec) (signed : Bool)
  /-- SET_POLICY (R565): SET_POLICY replaces the owner policy. -/
  | setPolicy (session : Nat) (p : OwnerPolicy) (signed : Bool)
  /-- LOAD_JOB_KEYS (R567): A job-key blob is unwrapped and loaded whole, or refused. -/
  | loadJobKeys (session : Nat) (b : KeyBlob)
  /-- CLEAR_JOB_KEYS (R565): The named key slots are emptied. -/
  | clearJobKeys (session : Nat) (slots : List (Nat × Nat))
  /-- FW_STAGE (R568): A component image is checked, written to flash and recorded as pending. -/
  | fwStage (session mr : Nat) (img : FwImage)
  /-- FW_CANCEL (R565): A component's pending image is discarded. -/
  | fwCancel (session mr : Nat)
  /-- MBOX_KEY_LOAD (R569): MBOX_CMD KEY_LOAD passes a key blob to the ROT. -/
  | mboxKeyLoad (r : Requester) (len : Nat) (b : KeyBlob)
  /-- MBOX_KEY_CLEAR (R569): MBOX_CMD KEY_CLEAR clears key slots. -/
  | mboxKeyClear (r : Requester) (len : Nat) (slots : List (Nat × Nat))
  /-- MBOX_FW_STAGE (R569): MBOX_CMD FW_STAGE stages a firmware image. -/
  | mboxFwStage (r : Requester) (len mr : Nat) (img : FwImage) (flashOk : Bool)
  /-- MBOX_FW_CANCEL (R569): MBOX_CMD FW_CANCEL cancels a pending image. -/
  | mboxFwCancel (r : Requester) (len mr : Nat)
  /-- POWER_REQUEST (R575): A write of PWR_CTRL.REQ moves a domain toward its requested state. -/
  | powerRequest (r : Requester) (cls inst req : Nat)
  /-- POWER_QUIESCE_DONE (R577): Entry phase QUIESCE ends. -/
  | powerQuiesceDone (d : Nat)
  /-- POWER_DRAIN_DONE (R577): Entry phase DRAIN ends. -/
  | powerDrainDone (d : Nat)
  /-- POWER_SAVE_DONE (R577): Entry phase SAVE ends. -/
  | powerSaveDone (d : Nat)
  /-- POWER_ISOLATE_DONE (R577): Entry phase ISOLATE ends. -/
  | powerIsolateDone (d : Nat)
  /-- POWER_SWITCH_DONE (R577): Entry phase SWITCH ends and the domain is in its new state. -/
  | powerSwitchDone (d : Nat)
  /-- POWER_DEMAND (R581): Traffic reaches a domain that is not On and is held, and wakes the domain when DEMAND_WAKE is 1. -/
  | powerDemand (d : Nat)
  /-- POWER_EXIT_DONE (R580): A domain's exit completes. -/
  | powerExitDone (d : Nat) (testOk : Bool)
  /-- CORE_SLEEP_REQUEST (R582): A write of MGT.SLEEP.CORE_REQ requests hub sleep. -/
  | coreSleepRequest (r : Requester) (req : Nat)
  /-- MGMT_SLEEP_REQUEST (R584): A write of MGT.SLEEP.MGMT_REQ puts management into Retention or Off. -/
  | mgmtSleepRequest (r : Requester) (req : Nat)
  /-- I3C_ADDRESS_MATCH (R585): The wake island matches its I3C address while management is not On, NACKs and starts a wake. -/
  | i3cAddressMatch (addr : Nat)
  /-- WAKE_LVL_CROSSING (R586): WAKE_LVL crosses its threshold and wakes management. -/
  | wakeLvlCrossing (mv : Nat) (falling : Bool) (ns : Nat)
  /-- WAKE_TIMER_EXPIRE (R587): WAKE_TIMER expires and wakes management. -/
  | wakeTimerExpire
  /-- LOCKSTEP_MISMATCH (R617): A lockstep comparator mismatches on management, the Dispatcher or the ROT. -/
  | lockstepMismatch (u : LockUnit)
  /-- THERMAL_SAMPLE (R619): A sensor reading above WARN_C or 115 °C raises a THERMAL event. -/
  | thermalSample (sensor : Nat) (tempC : Int)
  /-- VOLTAGE_EXCURSION (R619): VDD_CORE stays outside its range for more than 10 µs, a FATAL VOLTAGE event. -/
  | voltageExcursion (mv us : Nat)
  /-- FAULT_RELEASE (R623): A write of FAULT_CFG.RELEASE releases FAULT_N unless a FATAL condition persists. -/
  | faultRelease (r : Requester)
  /-- EVQ_POP (R628): A write of EVQ_POP removes the oldest management event. -/
  | evqPop (r : Requester)
  /-- RING_ENABLE (R629): A write of RING_CFG enables or disables an event ring. -/
  | ringEnable (r : Requester) (ring size : Nat) (high : Bool) (data : Nat)
  /-- LATENT_TEST (R631): A scheduled latent self-test runs on a detector. -/
  | latentTest (d : Detector) (pass repeatPass : Bool)
  /-- TST_START_HANK (R634): TST START with KIND HANK takes the hank IN_TEST and starts its self-test. -/
  | tstStartHank (r : Requester) (n : Nat)
  /-- TST_START_SLICE (R633): TST START with KIND SLICE starts a slice bank test. -/
  | tstStartSlice (r : Requester) (n : Nat)
  /-- TST_START_LATENT (R631): TST START with KIND LATENT runs a full latent pass. -/
  | tstStartLatent (r : Requester) (fails : List Detector)
  /-- TST_ABORT (R633): TST ABORT stops the test and leaves the unit FENCED. -/
  | tstAbort (r : Requester)
  /-- LOST_LOCK_ON_LANE (R450): An optical lane loses receive lock, so its strand retrains, and a repeat spares the lane or removes the strand. -/
  | lostLockOnLane (a lane : Nat)
  /-- NO_PEER_LOCK (R447): A strand whose lanes passed engine loop-back but gained no peer lock within 2 s enters NO_PEER. -/
  | noPeerLock (g : Nat)
  /-- APPLIED_PAIR_EXPIRE (R439): An (SRC, E2E_ID) pair in the destination's applied-packet table expires after (RETRIES + 1) × TIMEOUT_US and frees its entry. -/
  | appliedPairExpire (src e2e : Nat)
  deriving DecidableEq, Repr

end Sys2Proof
end

