-- ==== Sys2Proof/Config.lean ====
section
/-! DEFINITION. What an implementation of the hub fixes, and the free values: constants with no body, so that
nothing proved of the model can rest on a value the spec leaves open. -/
namespace Sys2Proof.Config

/-- A fresh 64-bit value the spec leaves open; the argument is the count of free values taken so far
(State.freeCtr).
[DESIGN CHOICE, log entry 207] -/
opaque freeValue : Nat → BitVec 64

/-- PHASE of the first lap of an event ring or completion ring (22_fault_detection.md R624 says only that it flips
on each lap).
[DESIGN CHOICE, log entry 30] -/
opaque firstPhase : Bool

/-- PHASE of a record of the management queue, which is no ring and has no laps (22_fault_detection.md R624, R628).
[DESIGN CHOICE, log entry 30] -/
opaque queuePhase : Bool

/-- SHA-384 of a byte string (00_scope.md R17 names the standard; its value is left to it).
[PRESUMED, log entry 209] -/
opaque sha384 : List (BitVec 8) → BitVec 384

/-- PAGE_ID.MAJOR and MINOR of a class (02_register_pages.md R53: "per block"; the chapters state no value).
[DESIGN CHOICE, log entry 31] -/
opaque pageMajor : Nat → BitVec 8
/-- [DESIGN CHOICE, log entry 31] -/
opaque pageMinor : Nat → BitVec 8

/-- Banks per bank group, and 256-byte chunks per row of a bank, of a stack of a capacity in GiB (08_memory_tiers.md R235: "the
number of banks per bank group of the die density"; "the remaining bits select the column and then the row").
[DESIGN CHOICE, log entry 196] -/
opaque hbmBanks : Nat → Nat
/-- [DESIGN CHOICE, log entry 196] -/
opaque hbmRowChunks : Nat → Nat

/-- The hash of SRC, DST and E2E_ID that picks a strand (14_fabric_links.md R434: "a hash of SRC, DST and E2E_ID").
[DESIGN CHOICE, log entry 201] -/
opaque strandHash : Nat → Nat → Nat → Nat

/-- The digest of mask ROM burned at manufacture (19_trust_and_tenancy.md R553: "Fixed digest burned at manufacture").
[DESIGN CHOICE, log entry 208] -/
opaque maskRomDigest : BitVec 384

/-- The digest of the fuse state extended into MR 8, from the list of values read (R553 names the component and no byte layout).
[DESIGN CHOICE, log entry 73] -/
opaque fuseDigest : List Nat → BitVec 384

/-- The digest of an owner policy extended into MR 11, from its fields (R553: "SHA-384 of the owner record's policy"; no byte layout is
stated).
[DESIGN CHOICE, log entry 73] -/
opaque policyDigest : List Nat → BitVec 384

/-- Ilulis's PCI-SIG Vendor ID and the die stepping (16_host_endpoint.md R492, which gives neither number).
[DESIGN CHOICE, log entry 45] -/
opaque vendorId : BitVec 16
/-- [DESIGN CHOICE, log entry 45] -/
opaque stepping : BitVec 8

/-- The TAP's IDCODE (18_life_cycle.md R547 names the instruction and gives no number).
[DESIGN CHOICE, log entry 208] -/
opaque idcode : BitVec 32

/-- The SHA-384 digest of the identity certificate of a certificate slot (19_trust_and_tenancy.md R564: issued at provisioning).
[DESIGN CHOICE, log entry 85] -/
opaque certDigest : Nat → BitVec 384

/-- AES-XTS-256 of a sector at rest (09_memory_integrity.md R285, R286): the key of a boot nonce, a partition and a generation, the sector
number as the tweak, 32 bytes. The standard and the key derivation are named, their values left to them.
[DESIGN CHOICE, log entry 223] -/
opaque xtsEncrypt : (nonce part gen sector : Nat) → List (BitVec 8) → List (BitVec 8)
/-- The inverse of `xtsEncrypt` under the same key and tweak.
[DESIGN CHOICE, log entry 223] -/
opaque xtsDecrypt : (nonce part gen sector : Nat) → List (BitVec 8) → List (BitVec 8)

/-- Detectors that fail twice in a LATENT pass (22_fault_detection.md R631) that a register write starts; the argument as for freeValue.
[DESIGN CHOICE, log entry 122] -/
opaque latentFails : Nat → List Detector

end Sys2Proof.Config
end

