-- ==== Sys2Proof/Machine/NMap.lean ====
section
/-! DEFINITION. Sparse tables in ONE canonical form: keys strictly rising, no entry equal to the value an
unlisted key reads as. Every large table of the hub (registers, snoop filters, granules, tasks, ...) is one. -/
namespace Sys2Proof.Machine

/-- A sparse table: (key, value) pairs, keys strictly rising. -/
abbrev NMap (α : Type) := List (Nat × α)

/-- The entry listed under a key. -/
def NMap.find? {α : Type} : NMap α → Nat → Option α
  | [], _ => none
  | (k, v) :: m, x => if k = x then some v else NMap.find? m x

/-- The value under a key, `d` where none is listed.
[DESIGN CHOICE, log entry 3] -/
def NMap.getD {α : Type} (m : NMap α) (d : α) (k : Nat) : α := (NMap.find? m k).getD d

/-- Removes the entry under a key. -/
def NMap.erase {α : Type} : NMap α → Nat → NMap α
  | [], _ => []
  | (k, v) :: m, x => if k = x then NMap.erase m x else (k, v) :: NMap.erase m x

/-- Lists a value under a key, in its place. -/
def NMap.insert {α : Type} : NMap α → Nat → α → NMap α
  | [], x, w => [(x, w)]
  | (k, v) :: m, x, w =>
    if k = x then (x, w) :: m else if x < k then (x, w) :: (k, v) :: m else (k, v) :: NMap.insert m x w

/-- Writes a value under a key and keeps the canonical form: the value an unlisted key reads as is not listed. -/
def NMap.put {α : Type} [DecidableEq α] (m : NMap α) (d : α) (k : Nat) (v : α) : NMap α :=
  if v = d then NMap.erase m k else NMap.insert m k v

/-- Updates the value under a key. -/
def NMap.modify {α : Type} [DecidableEq α] (m : NMap α) (d : α) (k : Nat) (f : α → α) : NMap α :=
  NMap.put m d k (f (NMap.getD m d k))

/-- Every key of the table, rising. -/
def NMap.keys {α : Type} (m : NMap α) : List Nat := m.map Prod.fst

/-- The keys are strictly rising from a bound on. -/
def NMap.sortedFrom {α : Type} : Nat → NMap α → Bool
  | _, [] => true
  | b, (k, _) :: m => decide (b ≤ k) && NMap.sortedFrom (k + 1) m

/-- The canonical form of a table whose unlisted keys read `d`.
[DESIGN CHOICE, log entry 3] -/
def NMap.wf {α : Type} [DecidableEq α] (d : α) (m : NMap α) : Bool :=
  NMap.sortedFrom 0 m && m.all (fun e => decide (e.2 ≠ d))

/-- Writes a run of values at consecutive keys. -/
def NMap.putRun {α : Type} [DecidableEq α] (m : NMap α) (d : α) : Nat → List α → NMap α
  | _, [] => m
  | k, v :: vs => NMap.putRun (NMap.put m d k v) d (k + 1) vs

end Sys2Proof.Machine
end

