-- ==== Sys2Proof/Machine/BaseTypes.lean ====
section
/-! DEFINITION. State of the frame every block shares: floor plan, events, power domains, start and reset, delay margins. -/
namespace Sys2Proof.Machine

/-- Severities (22_fault_detection.md R621). -/
inductive Severity where
  | corrected | deferred | contained | fatal
  deriving DecidableEq, Repr

/-- An event record (22_fault_detection.md R624) before it gets a ring's SEQ, PHASE and LOST. -/
structure EvRec where
  sev : Severity
  cause : Nat
  sub : Nat
  suspect : Bool
  cls : Nat
  part : Nat
  inst : Nat
  detail : Nat
  addr : Nat
  tick : Nat
  deriving DecidableEq, Repr

/-- A unit's entry in the floor plan (03_floor_plan.md R78, R79, R80). -/
structure UnitRec where
  boot : Cause := .good
  live : Cause := .good
  sub : Nat := 0
  deriving DecidableEq, Repr

/-- An optical attachment's lane record (03_floor_plan.md R83, OPT). -/
structure OptRec where
  laneOk : Nat := 0x1FFFF
  spareFor : Nat := 31
  deriving DecidableEq, Repr

/-- The floor plan behind the FPD pages (03_floor_plan.md): units by `unitKey`, test results, lane maps. GEN, STATUS,
DIGEST and the change log lie in State.regs. -/
structure PlanSt where
  /-- FPD_SUMMARY.VARIANT (R83), from fuses; 0 until they are read. -/
  variant : Nat := 0
  /-- Boot cause, live cause and sub-cause of each unit (R78-R80). -/
  units : NMap UnitRec := []
  /-- FPD 2 bitmap of tile n (R83): 1 = good. -/
  spindles : NMap Nat := []
  /-- CHECK_OK = 0 for these tiles (R83). -/
  checkBad : List Nat := []
  /-- The fuses and OTP record as last read, which MR 8 measures (19_trust_and_tenancy.md R553). -/
  fuses : List Nat := []
  /-- BANK_OK of slice n where a bank failed (R653). -/
  banks : NMap Nat := []
  /-- The bank tests of stage C3 have run (R653): before, BANK_OK reads 0. -/
  banksTested : Bool := false
  /-- RET_OK = 1 for these slices (R653). -/
  retOk : List Nat := []
  /-- PC_OK of HBM channel a × 32 + c (R83). -/
  pcOk : NMap Nat := []
  /-- REPAIRED of HBM channel a × 32 + c (R83). -/
  repaired : NMap Nat := []
  /-- STACK_GIB of every stack (R9: one capacity) and RATE (R83). -/
  stackGib : Nat := 0
  rate : Nat := 0
  /-- FPD 6 word of site channel s × 64 + c (R84); all ones where no lane failed. -/
  laneOtp : NMap Nat := []
  /-- FPD 7 word of site channel s × 64 + c (R85). -/
  laneEff : NMap Nat := []
  /-- OPT record of attachment a (R83). -/
  opt : NMap OptRec := []
  /-- ETH LANE_OK of port e (R83); 0xFF where all eight lanes are good. -/
  ethLanes : NMap Nat := []
  /-- FPD_COUNTS.BOOT_SPINDLES (R83). -/
  bootSpindles : Nat := 0
  /-- Populated masks of the OTP assembly record (R95). -/
  popHbm : Nat := 0
  popOpt : Nat := 0
  popSites : Nat := 0
  deriving DecidableEq, Repr

/-- A region's delay margin (01_anatomy.md R28, R29): extra taps, stopped, inside the 1 ms after a resume. -/
structure DmmSt where
  taps : Nat := 0
  stopped : Bool := false
  watch : Bool := false
  dead : Bool := false
  deriving DecidableEq, Repr

/-- A power domain (20_power_domains.md R573, R575, R578): state 0 On, 1 Retention, 2 Off; REQ; a wake that arrived
once the entry could not be aborted; the state the running entry leads to. Its phase is PWR.STATUS.PHASE. -/
structure DomSt where
  st : Nat := 0
  req : Nat := 0
  wake : Bool := false
  target : Nat := 0
  deriving DecidableEq, Repr

/-- The kind of a start (21_bring_up_and_reset.md R609 BOOT.KIND). -/
inductive BootKind where
  | cold | warm | resume | lifeCycle
  deriving DecidableEq, Repr

/-- The start sequencer (21_bring_up_and_reset.md R599-R602). Stages are numbered as BOOT.STAGE numbers them:
1-8 for C1-C8, 9-13 for W1-W5. -/
structure BootSt where
  kind : BootKind := .cold
  running : List Nat := []
  ended : List Nat := []
  /-- Stages whose launch interval has passed while they ran (R600). -/
  overrun : List Nat := []
  /-- PWR_GOOD_IN is asserted (R593, R594). -/
  pwrGood : Bool := false
  /-- PERST_N is asserted (R595). -/
  perst : Bool := true
  /-- PERST_N has been deasserted once since PWR_GOOD_IN was asserted (R595). -/
  perstSeen : Bool := false
  /-- The hub has reached ready since PWR_GOOD_IN was asserted (R595). -/
  wasReady : Bool := false
  /-- A device warm reset is running (R602). -/
  warm : Bool := false
  /-- VDD_AON and VDD_IO18 are in tolerance (R638, R646). -/
  aonOk : Bool := true
  io18Ok : Bool := true
  /-- Units whose training or test the running stage still awaits: sites, HBM attachments, optical attachments, hanks. -/
  sitesPend : List Nat := []
  hbmPend : List Nat := []
  optPend : List Nat := []
  hankPend : List Nat := []
  /-- Partitions whose reset awaits T6, and the ones whose drain has ended (R608). -/
  partReset : List Nat := []
  /-- WAKE_N is driven low; the wake timer runs (20_power_domains.md R587, R589). -/
  wakeN : Bool := false
  wakeTimer : Bool := false
  /-- The running start was caused by PERST_N (1), link-down (2) or management (3) (R517). -/
  lossCause : Nat := 0
  deriving DecidableEq, Repr

/-- A hank's part of a firmware delivery (21_bring_up_and_reset.md R604): chunk bitmap, repair rounds run, full
self-test wanted (else the known-answer pattern), started by a start stage, in-service test. -/
structure DelivSt where
  chunks : Nat := 0
  round : Nat := 0
  full : Bool := true
  atStart : Bool := false
  inTest : Bool := false
  deriving DecidableEq, Repr

end Sys2Proof.Machine
end

