-- ==== Sys2Proof/Machine/HostTypes.lean ====
section
/-! DEFINITION. State of the host endpoint (16_host_endpoint.md), of the life cycle (18_life_cycle.md), and the messages the hub sends. -/
namespace Sys2Proof.Machine

/-- What the hub asks of the host link (16_host_endpoint.md R501, R507). -/
inductive HostReqKind where
  | read | write | flush | ats | msix | pageReq
  deriving DecidableEq, Repr

/-- A request of the hub on the host link: who issued it, for which task, under which PASID, to which address
(translated or not), relaxed ordering, data. -/
structure HostReq where
  id : Nat
  kind : HostReqKind
  task : Option TaskId := none
  pasid : Nat := 0
  addr : Nat := 0
  untranslated : Bool := false
  relaxed : Bool := false
  data : List Byte := []
  /-- The initiator's transaction that awaits the answer (tollgate instance, number), for an access to a lower tier. -/
  back : Option (Nat × Nat) := none
  /-- Sectors of a write's line that carry poison: a poisoned TLP, or CXL poison (09_memory_integrity.md R278). -/
  pois : Nat := 0
  deriving DecidableEq, Repr

/-- A vector of the MSI-X table with its pending bit (16_host_endpoint.md R499); PCIe resets the mask to 1.
[PRESUMED, log entry 211] -/
structure MsixVec where
  addr : Nat := 0
  data : Nat := 0
  mask : Bool := true
  pend : Bool := false
  deriving DecidableEq, Repr

/-- An answer to a read of the host that waits for the posted writes decoded before it (16_host_endpoint.md R498): the join it follows, the
register address (none: BAR4), status, poisoned, data. -/
structure HostCpl where
  after : Nat
  reg : Option Nat
  status : Nat
  pois : Bool
  data : List Byte
  deriving DecidableEq, Repr

/-- An HDM decoder of the CXL component registers (16_host_endpoint.md R492, R505). -/
structure HdmDec where
  on : Bool := false
  base : Nat := 0
  size : Nat := 0
  devBase : Nat := 0
  deriving DecidableEq, Repr

/-- The host endpoint behind the HEP page (16_host_endpoint.md R490-R519). Link state that HEP.LINK_STATUS reports
lies there. -/
structure HostSt where
  /-- Configuration space (R492-R494, R507, R508, R509, R303): enables and BAR4 size (log2 GiB, 0-9). -/
  bme : Bool := false
  mse : Bool := false
  msixEn : Bool := false
  funcMask : Bool := false
  atsEn : Bool := false
  priEn : Bool := false
  priAlloc : Nat := 0
  pasidEn : Bool := false
  l1En : Bool := false
  bar4Log : Nat := 0
  /-- PME_En and PME_Status, held in the wake island (R510). -/
  pmeEn : Bool := false
  pmeStatus : Bool := false
  /-- AER: Poisoned TLP Received (R496). -/
  aerPoison : Bool := false
  /-- PME_Turn_Off received, PME_TO_Ack not yet sent (R511). -/
  turnOff : Bool := false
  /-- The grace timer runs (R513); its limit, sampled when the link went down (R518). -/
  grace : Bool := false
  graceMs : Nat := 0
  /-- MSI-X table and pending bits (R45, R499). -/
  msix : NMap MsixVec := []
  /-- Requests held in issue order (R507), reads outstanding, posted writes not acknowledged (R513). -/
  held : List HostReq := []
  reads : List HostReq := []
  posted : List HostReq := []
  nextReq : Nat := 0
  /-- Answers that wait for posted writes (R498). -/
  cpls : List HostCpl := []
  /-- HDM decoders (R492, R505). -/
  hdm : NMap HdmDec := []
  /-- Device-memory TLPs decoded since the last BME change, TLP counters below one K (PERF0). -/
  rxTlp : Nat := 0
  txTlp : Nat := 0
  /-- Per partition the last host-memory write: PASID, address, untranslated; per partition × 8 + peer aperture the last peer write: the same
  (R502, R503). -/
  lastW : NMap (Nat × Nat × Bool) := []
  peerW : NMap (Nat × Nat × Bool) := []
  /-- A DRS message has been sent since DL_Up (R516). -/
  drsSent : Bool := false
  deriving DecidableEq, Repr

/-- The path of a life-cycle write (18_life_cycle.md R536). -/
inductive LcPath where
  | mgmt | tap
  deriving DecidableEq, Repr

/-- The life cycle: OTP words and the transition in progress (18_life_cycle.md R538, R539, R542). `stage`: 0 none, 1-6
the step T1-T6 awaited.
[DESIGN CHOICE, log entry 2] -/
structure LcSt where
  stateWord : Nat := 0xFFFFFF
  excWord : Nat := 0
  /-- Intent slots (R539); the three transitions that led to DEPLOYED lie in slots 0-2. -/
  slots : NMap Nat := [(0, 0x80000000FFEF0010), (1, 0x80000000FFDE0021), (2, 0x80000000FFCD0032)]
  stage : Nat := 0
  target : Nat := 0
  src : Nat := 0
  wipe : Bool := false
  slot : Nat := 0
  /-- STATE and INCOMPLETE as decoded at the last start (R540). -/
  state : Nat := 3
  incomplete : Bool := false
  intentFrom : Nat := 0
  intentTarget : Nat := 0
  intentWipe : Bool := false
  intentWipeDone : Bool := false
  /-- Index of the valid slot that last reached DONE with WIPE = 1 (R544). -/
  wipedSlot : Option Nat := none
  deriving DecidableEq, Repr

/-- The TAP (18_life_cycle.md R547): instruction, the LCS_ACCESS data register, what TDO last shifted out.
[PRESUMED, log entry 106] -/
structure TapSt where
  ir : Nat := 0x01
  dr : Nat := 0
  tdo : Nat := 0
  /-- The boundary-scan register. -/
  boundary : Nat := 0
  /-- DBG (R551): a STEP awaits its unit of work; entries of the halted target's arrays as read or written, by array × 2^40 + index. -/
  step : Bool := false
  arrays : NMap (BitVec 64) := []
  deriving DecidableEq, Repr

end Sys2Proof.Machine
end

