-- ==== Sys2Proof/Machine/AtuTypes.lean ====
section
/-! DEFINITION. State of address translation (10_address_translation.md). -/
namespace Sys2Proof.Machine

/-- A context (R299-R301): PASID, partition, DEVICE (else HOST), faults reported, root table. -/
structure CtxRec where
  pasid : Nat
  part : Nat
  device : Bool
  report : Bool
  root : Nat
  deriving DecidableEq, Repr

/-- A cached translation (R304, R314): slot, 1 GiB page (else 2 MiB), page number of that size, base address, permissions,
UNC of a device leaf (R307), U of a host translation (R304). -/
structure Tlb where
  slot : Nat
  big : Bool
  vpn : Nat
  base : Nat
  r : Bool
  w : Bool
  unc : Bool := false
  unt : Bool := false
  deriving DecidableEq, Repr

/-- A request of a client that waits for its translation. -/
structure XWant where
  client : Nat
  id : Nat
  task : Option TaskId
  part : Nat
  va : Nat
  r : Bool
  w : Bool
  deriving DecidableEq, Repr

/-- A translation in flight for a (slot, page) pair (R316): device walk or ATS request, asked for read only (NW), who waits,
the fault-queue entry it follows, overtaken by an invalidation (R317, R319). -/
structure XReq where
  slot : Nat
  vpn2 : Nat
  device : Bool
  nw : Bool
  wants : List XWant
  entry : Option Nat := none
  stale : Bool := false
  /-- Its ATS request has left (16_host_endpoint.md R507). -/
  sent : Bool := true
  deriving DecidableEq, Repr

/-- A fault-queue entry (R321-R323): its number, key, intent asked for, waiters, faults not covered by its intent, reason,
PRG index while one is outstanding, Page Requests sent, reported to software and awaiting an answer. -/
structure FqEnt where
  idx : Nat
  slot : Nat
  vpn2 : Nat
  device : Bool
  r : Bool
  w : Bool
  reason : Nat
  waiters : List XWant
  late : List XWant := []
  prg : Option Nat := none
  sent : Nat := 0
  reported : Bool := false
  /-- A Page Request is due and waits for the outstanding limit (R322). -/
  due : Bool := false
  deriving DecidableEq, Repr

/-- An entry of an engine's tile table (R325-R327): the client's request that resolved it, and its translation; `none`
while it is being resolved again. -/
structure TileEnt where
  want : XWant
  slot : Nat
  tr : Option Tlb
  deriving DecidableEq, Repr

/-- The ATU and its clients. -/
structure AtuSt where
  ctx : NMap (Option CtxRec) := []
  /-- The slot whose UNBIND waits for its requests (R301). -/
  draining : Option Nat := none
  /-- Level-1 caches by client, most recently used first (R314). -/
  l1 : NMap (List Tlb) := []
  /-- Level-2 cache under set × 8 + way, with tree pseudo-LRU by set (R315). -/
  l2 : NMap (Option Tlb) := []
  l2plru : NMap Nat := []
  xreqs : List XReq := []
  fq : List FqEnt := []
  /-- Faults that found no free entry (R321): slot, reason, request. -/
  fqWait : List (Nat × Nat × XWant) := []
  /-- PRG indices busy (R322), with the entry that still waits for each. -/
  prg : NMap (Option (Option Nat)) := []
  priStopped : Bool := false
  tiles : List TileEnt := []
  /-- Invalidations in progress by tag, and those beyond 32 (R318): tag, PASID (none: Global), first page, pages. -/
  invs : List Nat := []
  invWait : List (Nat × Option Nat × Nat × Nat) := []
  /-- INV_CMD in progress (R319). -/
  invCmd : Bool := false
  /-- Non-posted requests under removed translations that an invalidation waits for (R317, R319): on the host link (numbers left out), among the
  gathered accesses. -/
  invReads : List (Option Nat × List HostReq × List Nat) := []
  /-- Invalidations that only await the sites' XlateInvDone (13_chiplet_sites.md R408). -/
  invReady : List (Option Nat) := []
  deriving DecidableEq, Repr

end Sys2Proof.Machine
end

