-- ==== Sys2Proof/Machine/EthTypes.lean ====
section
/-! DEFINITION. State of the Ethernet ports (17_network_ports.md). -/
namespace Sys2Proof.Machine

/-- A queue pair's context (R523). -/
structure QpCtx where
  port : Nat := 0
  pmtu : Nat := 3
  prio : Nat := 0
  pasid : Nat := 0
  sqBase : Nat := 0
  rqBase : Nat := 0
  cqBase : Nat := 0
  sqLog : Nat := 4
  rqLog : Nat := 0
  cqLog : Nat := 4
  dscp : Nat := 0
  event : Nat := 0xFFFF
  retry : Nat := 0
  rnrRetry : Nat := 0
  timeout : Nat := 1
  destQpn : Nat := 0
  minRnr : Nat := 1
  sport : Nat := 0
  mac : Nat := 0
  vlan : Nat := 0
  peerIp : Nat := 0
  localIp : Nat := 0
  deriving DecidableEq, Repr

/-- A work request issued (R529): its ring index, opcode, entry, first PSN and packets, failures in a row, in an RNR wait,
acknowledged (or its data stored), its local pages. -/
structure WqeRun where
  idx : Nat
  op : Nat
  wqe : Wqe
  psn : Nat
  packets : Nat
  tries : Nat := 0
  rnrs : Nat := 0
  rnrWait : Bool := false
  pages : List Addr := []
  /-- The data its packets carry. -/
  data : List Byte := []
  /-- The response has come and is being stored. -/
  storing : Bool := false
  deriving DecidableEq, Repr

/-- A completion to be written (R528): WR_ID (none: of a ring entry flushed unread, which the write reads), opcode, status, bytes,
immediate, and whether its data went to host memory, so that a flush read comes first (16_host_endpoint.md R502). -/
structure Cqe where
  wrId : Option Nat
  op : Nat
  status : Nat
  bytes : Nat
  imm : Nat
  host : Bool
  deriving DecidableEq, Repr

/-- An inbound request being served (R527): 0 write, 1 read, 2 send, 3 atomic; its packet; issued to its homes; the addresses of its 2 MiB
pages by page number where its region lies in SPACE 0 (none: still to come). -/
structure InReq where
  kind : Nat
  req : RdmaReq
  started : Bool := false
  pages : Option (List (Nat × Addr)) := some []
  deriving DecidableEq, Repr

/-- A queue pair (R524): 0 RESET, 1 RTS, 2 ERROR. Ring indices run freely. -/
structure QpSt where
  st : Nat := 0
  part : Nat := 0
  ctx : QpCtx := {}
  sqTail : Nat := 0
  sqHead : Nat := 0
  rqTail : Nat := 0
  rqHead : Nat := 0
  cqTail : Nat := 0
  cqHead : Nat := 0
  txPsn : Nat := 0
  rxPsn : Nat := 0
  runs : List WqeRun := []
  cqes : List Cqe := []
  /-- The flush read of the oldest of them has been issued. -/
  flushing : Bool := false
  /-- DESTROY waits for the completions of what it flushed (R524). -/
  dying : Bool := false
  inq : List InReq := []
  /-- Bytes of the current inbound SEND written so far. -/
  sendOff : Nat := 0
  /-- Send rate in 2^-32 of the line (R520). -/
  rate : Nat := 2 ^ 32
  deriving DecidableEq, Repr

/-- A memory region (R525). -/
structure MrSt where
  part : Nat
  key : Nat
  base : Nat
  access : Nat
  hint : Nat
  length : Nat
  deriving DecidableEq, Repr

/-- An Ethernet port: frames in its buffer (priority, bytes), priorities it has sent XOFF for and ones the peer paused, frame counts
below 1,024, a lane that lost lock and has had its retrain. -/
structure EthPortSt where
  buf : List (Nat × Nat) := []
  xoff : List Nat := []
  paused : Nat := 0
  rx : Nat := 0
  tx : Nat := 0
  lane : Option Nat := none
  deriving DecidableEq, Repr

/-- The Ethernet ports and their tables. -/
structure EthSt where
  qps : NMap QpSt := []
  mrs : NMap (Option MrSt) := []
  ports : NMap EthPortSt := []
  deriving DecidableEq, Repr

end Sys2Proof.Machine
end

