-- ==== Sys2Proof/Machine/FabTypes.lean ====
section
/-! DEFINITION. State of the fabric (14_fabric_links.md). -/
namespace Sys2Proof.Machine

/-- A packet at an output, with the strand input whose buffer it holds (none: this hub's own). -/
structure FabOut where
  pkt : FabPkt
  inp : Option Nat
  deriving DecidableEq, Repr

/-- A strand (R428, R435, R441, R444). Its STATE lies in FAB.STRAND. -/
structure StrandSt where
  txSeq : Nat := 0
  rxSeq : Nat := 0
  unacked : List FabFrame := []
  queue : List FabOut := []
  /-- Credits left toward the peer, in slots: U0, U1, A0, A1. -/
  cu0 : Nat := 256
  cu1 : Nat := 256
  ca0 : Nat := 128
  ca1 : Nat := 128
  /-- Slots held in this hub's input buffers: U0, U1, A0, A1. -/
  ru0 : Nat := 0
  ru1 : Nat := 0
  ra0 : Nat := 0
  ra1 : Nat := 0
  /-- DATA frames are discarded until the expected SEQ arrives; the SEQ that failed last (R428, R450). -/
  naked : Bool := false
  badSeq : Option Nat := none
  /-- A retrain follows a fault (R450). -/
  faulty : Bool := false
  /-- NOTICE.HOLD as last received (R427). -/
  holdIn : Bool := false
  peerMode : Option Nat := none
  /-- Slots whose NEXT the peer reports loaded (R444). -/
  peerNext : Nat := 0
  txCount : Nat := 0
  rxCount : Nat := 0
  deriving DecidableEq, Repr

/-- A packet of this hub that awaits its DACK (R439): number, packet, resends so far, its task, the local event it forwards. -/
structure E2eOut where
  id : Nat
  pkt : FabPkt
  tries : Nat := 0
  task : Option TaskId := none
  event : Option Nat := none
  deriving DecidableEq, Repr

/-- A key slot of a port (R443): key identities of CURRENT and NEXT, the frame counters, KEY_PHASE in use, the job.
[DEDUCED, log entry 202] -/
structure FabKey where
  job : Nat := 0
  cur : Option Nat := none
  next : Option Nat := none
  fcnt : Nat := 0
  phase : Bool := false
  deriving DecidableEq, Repr

/-- The fabric. -/
structure FabSt where
  strands : NMap StrandSt := []
  e2e : List E2eOut := []
  nextE2e : Nat := 1
  /-- Applied (SRC, E2E_ID) pairs with the DACK status they were answered with (R439). -/
  applied : List (Nat × Nat × Nat) := []
  /-- Key slots under port × 16 + slot. -/
  keys : NMap FabKey := []
  /-- Tag failures of a port in the running second: count and the tick of the first (R445). -/
  tags : NMap (Nat × Nat) := []
  /-- Tick + 1 of a port's last protocol error (R450). -/
  proto : NMap Nat := []
  /-- Corrected symbols and uncorrectable codewords of lane a × 17 + i in the last second (LANE_Q). -/
  lanes : NMap (Nat × Nat) := []
  /-- Lanes that lost lock once (R450). -/
  lockLost : List Nat := []
  /-- Attachments whose test waits for a retrain (R454). -/
  testWait : List Nat := []
  /-- VC S of an input has overrun, and not every input is below half full since (15_milestone_schedule.md R474). -/
  sOver : Bool := false
  deriving DecidableEq, Repr

end Sys2Proof.Machine
end

