-- ==== Sys2Proof/Machine/MemTypes.lean ====
section
/-! DEFINITION. State of memory: the Skein (07_skein_memory.md), HBM and the tiers (08_memory_tiers.md), integrity and
encryption (09_memory_integrity.md), and the coherence homes (12_coherence.md). -/
namespace Sys2Proof.Machine

/-- What a cache way holds in a set (R202): line key, partition whose way it is, sector-valid and sector-dirty bits, filled
by BULK or BEST_EFFORT traffic (R344), and toward the host (R377): 0 none, 1 S, 2 E, 3 M. -/
structure LineTag where
  line : Nat := 0
  part : Nat := 0
  valid : Nat := 0
  dirty : Nat := 0
  stream : Bool := false
  hst : Nat := 0
  deriving DecidableEq, Repr

/-- The metadata of an HBM sector (R272). A sector nothing has written since zero-fill is CLEAR (R294). -/
structure SecMeta where
  clear : Bool := true
  poison : Bool := false
  gen : Nat := 0
  deriving DecidableEq, Repr

/-- A gather descriptor (R216): region addresses of the table and the index list, rows, indices, row stride and length, IDX_W. -/
structure GatherDesc where
  table : Nat
  index : Nat
  tableRows : Nat
  count : Nat
  rowStride : Nat
  rowBytes : Nat
  idxW : Nat
  deriving DecidableEq, Repr

/-- A window read under way (R215, R218): its number, the access, its window offset, PART and the descriptor when it was accepted, the element
of the index list once read, whether that was asked for, row sectors asked for and come (sector, bytes, poison), the first status other
than OK. -/
structure GatherRead where
  id : Nat
  acc : Access
  off : Nat
  part : Nat
  desc : GatherDesc
  idx : Option Nat := none
  idxAsked : Bool := false
  asked : Nat := 0
  got : NMap (List Byte × Nat) := []
  status : Nat := 0
  deriving DecidableEq, Repr

/-- A descriptor load (R217): its number, PART, the bytes read once they came with their status and poison, the window reads that wait for it;
superseded by a later write of the slot. -/
structure GatherLoad where
  id : Nat
  part : Nat
  raw : Option (Nat × List Byte × Nat) := none
  held : List (Access × Nat) := []
  current : Bool := true
  deriving DecidableEq, Repr

/-- A gather slot behind its GATHER register (R215-R218): faulted, the descriptor in force, loads under way, window reads under way, index
lines and row sectors that have arrived (read, sector or none for the index, status, bytes, poison), the next number. -/
structure GatherSt where
  faulted : Bool := false
  desc : Option GatherDesc := none
  loads : List GatherLoad := []
  open_ : List GatherRead := []
  arrived : List (Nat × Option Nat × Nat × List Byte × Nat) := []
  next : Nat := 0
  deriving DecidableEq, Repr

/-- The load whose descriptor the slot waits for. -/
def GatherSt.loading (g : GatherSt) : Bool := g.loads.any (fun l => l.current)

/-- States of a coherence agent's line (R355). -/
inductive CohSt where
  | m | e | s | f | i
  deriving DecidableEq, Repr

/-- Snoops (R361). -/
inductive SnpKind where
  | fwdShared | fwdInv | fwdCur | inv | invData
  deriving DecidableEq, Repr

/-- Coherent requests (R361); `plain`: an access of a non-caching requester (R365). -/
inductive CohKind where
  | plain | rdShared | rdOwn | upgrade | rdCur
  deriving DecidableEq, Repr

/-- A request at an ordering point: the access, what it does, its coherent kind and the agent it comes from (0-3 site,
4 host, 5 none). -/
structure HomeReq where
  acc : Access
  op : AccOp
  coh : CohKind := .plain
  agent : Nat := 5
  /-- Carried on the sector path (R213, R214). -/
  sector : Bool := false
  /-- MetaValue of a host write (R375): 0 I, 2 A, 3 S. -/
  mv : Nat := 0
  /-- The tier-table key of the range granule it accesses (08_memory_tiers.md R253). -/
  tier : Option Nat := none
  deriving DecidableEq, Repr

/-- Filter states (R359). -/
inductive FilterSt where
  | s | sf (f : Nat) | o (x : Nat)
  deriving DecidableEq, Repr

/-- A snoop-filter entry (R359): line key, owning partition, state, sharer vector (bit 4: host). -/
structure FilterEnt where
  line : Nat
  part : Nat
  st : FilterSt
  mask : Nat
  deriving DecidableEq, Repr

/-- A snoop that awaits its answer; `wb`: RspWbIssued arrived and its WrBack has not (R370). -/
structure SnpWait where
  agent : Nat
  kind : SnpKind
  wb : Bool := false
  deriving DecidableEq, Repr

/-- Where a home transaction stands: snoops outstanding, a fill outstanding, CmpAck outstanding, a hint being placed, or
waiting for the recall of a victim entry (R372). -/
inductive TxnPhase where
  | snoop | fill | ack | place | victim (txn : Nat)
  deriving DecidableEq, Repr

/-- An open home transaction (R358). `req` none: a recall, whose returned data is kept unless `discard` (R378). -/
structure Txn where
  id : Nat
  slice : Nat
  line : Nat
  part : Nat
  req : Option HomeReq
  unc : Bool := false
  snoops : List SnpWait := []
  /-- Dirty data an agent returned: bytes and poison. -/
  dirty : Option (List Byte × Nat) := none
  /-- An agent forwarded the line; as M. -/
  fwd : Bool := false
  fwdM : Bool := false
  phase : TxnPhase := .snoop
  discard : Bool := false
  /-- Sectors asked for and what has come back. -/
  need : Nat := 0
  got : List Byte := List.replicate 64 0
  gotPois : Nat := 0
  gotMask : Nat := 0
  /-- Allocate the line on fill. -/
  alloc : Bool := false
  /-- A host snoop this transaction applies (R377): inv for SnpInv, fwdShared for SnpData, fwdCur for SnpCur; whether the slice answers the
  host when it closes. -/
  h2d : Option SnpKind := none
  tell : Bool := true
  /-- The host state held after a fill from the host (R377). -/
  hst : Nat := 0
  /-- Its index in the TAGs of snoops (13_chiplet_sites.md R401); a forwarded copy the home relays (R404). -/
  idx : Nat := 0
  relay : Option (List Byte × Nat) := none
  deriving DecidableEq, Repr

/-- A recall that waits for an open transaction of its line (12_coherence.md R378): home, line, the agent whose copy is recalled (5: every
agent's), discard what returns. -/
structure RecallWait where
  home : Nat
  line : Nat
  agent : Nat
  discard : Bool
  deriving DecidableEq, Repr

/-- Where a request stands at an HBM channel (R237, R342): waiting at its tollgate, in a queue, in the write buffer, issued,
being re-read, being repaired. -/
inductive ReqPlace where
  | waiting | queued | wbuf | issued | reread | repair
  deriving DecidableEq, Repr

/-- A request at an HBM channel (R237, R238): line (DPA line number), sectors, narrow or line path, write data with poison,
partition (16: none), class, arbitration level (R345), the home transaction that waits for it, pseudo-channels still to issue, times
passed by a younger command on each, and for a read what has been sampled. -/
structure HbmReq where
  id : Nat
  ch : Nat
  line : Nat
  secs : Nat
  narrow : Bool
  wr : Option (List Byte × Nat)
  part : Nat
  cls : Nat
  level : Nat
  txn : Option Nat
  place : ReqPlace := .waiting
  left : Nat := 3
  passed0 : Nat := 0
  passed1 : Nat := 0
  got : List Byte := List.replicate 64 0
  gotPois : Nat := 0
  /-- Sectors that failed and await a re-read or repair; sectors whose failure is lasting. -/
  failed : Nat := 0
  deriving DecidableEq, Repr

/-- The HBM layout of an attachment, fixed at start (R234-R236): live channels and granules. -/
structure AttLayout where
  att : Nat
  chans : List Nat
  ng : Nat
  deriving DecidableEq, Repr

/-- A migration in flight (R254): partition, range, range granule, direction, pool granule, planned or started. -/
structure Migration where
  part : Nat
  range : Nat
  index : Nat
  up : Bool
  pool : Nat
  /-- Asked for by an itinerary stage (R261); by a commit that disables the range (R257), so no evaluation discards it. -/
  stage : Bool := false
  commit : Bool := false
  deriving DecidableEq, Repr

/-- An itinerary slot (R258-R264): object address, LOOP and stage count of the header, PASID of the task's queue, the next stage as read, the tags of tasks
dispatched since the last issue, stages in flight (index and stage). -/
structure ItnSt where
  base : Nat := 0
  loop : Bool := false
  count : Nat := 0
  pasid : Nat := 0
  part : Nat := 31
  next : Option ItnStage := none
  tags : List Nat := []
  flight : List (Nat × ItnStage) := []
  deriving DecidableEq, Repr

/-- A rekey lap of a partition on an attachment (R293): the walk position it started from. -/
structure RekeyLap where
  part : Nat
  att : Nat
  start : Nat
  deriving DecidableEq, Repr

/-- The scrubber of an attachment (R291): line within the local granule POS. -/
structure ScrubSt where
  line : Nat := 0
  deriving DecidableEq, Repr

/-- Memory as a whole. Keys: bank byte = slice × 2^18 + way × 2^14 + word × 64 + byte; sector of a bank = that ÷ 32; tag =
(slice × 16 + way) × 256 + set; HBM byte = DPA; HBM sector = DPA ÷ 32. -/
structure MemSt where
  /-- Skein banks (R194) and the poison of their sectors (R278). Unlisted: 0, as a wipe leaves them (R225). -/
  banks : NMap Byte := []
  bankPois : NMap Bool := []
  tags : NMap LineTag := []
  /-- Tree pseudo-LRU bits of set `slice × 256 + set` (R202). -/
  plru : NMap Nat := []
  /-- H(p, g) under 4p + g (R199), and the slices outside p's T0 space since its last reset (R197). -/
  homes : NMap (List Nat) := []
  t0dead : NMap (List Nat) := []
  /-- Accesses a slice holds (R222, R224, R225), in order. -/
  held : List (Nat × HomeReq) := []
  /-- Gather slots under 4n + s. -/
  gather : NMap GatherSt := []
  /-- HBM contents as plaintext, and sector metadata. -/
  hbm : NMap Byte := []
  hbmMeta : NMap SecMeta := []
  layout : List AttLayout := []
  reqs : List HbmReq := []
  nextHbm : Nat := 0
  /-- Channels whose write buffer is draining; pseudo-channels (2 × ch + pc) whose last slot went to the line queue. -/
  draining : List Nat := []
  lastLine : List Nat := []
  /-- Open row of a bank, by (ch × 2 + pc) × 64 + bank (R235, R238). -/
  openRow : NMap Nat := []
  /-- Channels in retrain (R241), with one failure already; in recalibration retry (R240). -/
  retrainFail : List Nat := []
  calFail : List Nat := []
  /-- Lines read and written per attachment below one unit of 1,024 (HBM.PERF). -/
  rdLines : NMap Nat := []
  wrLines : NMap Nat := []
  /-- Granule map (R245); an entry is ZEROING until the first zero-fill (R295). -/
  granules : NMap Nat := []
  /-- Replica copies in progress (R249): partition, first primary, first replica, count. -/
  copying : List (Nat × Nat × Nat × Nat) := []
  /-- SET_GROUPs that wait for their recalls (R247, R378): partition, first granule, count, group. -/
  regroup : List (Nat × Nat × Nat × Nat) := []
  /-- Tier table (R252, R253) under (p × 8 + r) × 2^18 + i: count and promoted pool granule + 1. -/
  tierCount : NMap Nat := []
  tierPool : NMap Nat := []
  /-- Host page + 1 (2 MiB) that backs a range granule, as its latest access found it (R252). -/
  tierHpa : NMap Nat := []
  /-- Migrations under way (R254); moves an evaluation or a commit planned and not started (R253, R257). -/
  migs : List Migration := []
  planned : List Migration := []
  /-- Itinerary slots (R258). -/
  itn : NMap ItnSt := []
  /-- Scrubbers (09_memory_integrity.md R291) and re-encryption laps (R289). -/
  scrub : NMap ScrubSt := []
  laps : List RekeyLap := []
  /-- KEY tasks in progress: partition and task (R288). -/
  keyTasks : List (Nat × TaskId) := []
  /-- Draws of the boot nonce (R285); nonces themselves never leave the key store. -/
  nonce : Nat := 0
  /-- Snoop filters (R359) under (slice × 4096 + set) × 8 + way; LOST ways (R373); tree pseudo-LRU by set. -/
  filter : NMap (Option FilterEnt) := []
  lost : List Nat := []
  fplru : NMap Nat := []
  txns : List Txn := []
  /-- Host snoops that wait for the transaction their line has (R377): slice, line, kind, whether the slice answers the host. -/
  h2dWait : List (Nat × Nat × SnpKind × Bool) := []
  nextTxn : Nat := 0
  /-- Sites whose caching functions all report F_CAPABLE and that run ASP (R356). -/
  fCapSites : List Nat := []
  /-- Recalls that wait for their line (12_coherence.md R378). -/
  recallQ : List RecallWait := []
  /-- Requests waiting at ordering points (R358) in arrival order: slice, line key, partition, uncached, request. -/
  waitQ : List (Nat × Nat × Nat × Bool × HomeReq) := []
  deriving DecidableEq, Repr

end Sys2Proof.Machine
end

