-- ==== Sys2Proof/Machine/MeshTypes.lean ====
section
/-! DEFINITION. State of the mesh and the tollgates (11_mesh_and_regulation.md). -/
namespace Sys2Proof.Machine

/-- A transaction that waits at a tollgate, in issue order (R340, R341): its class, tokens, and the level it passed with once it has
passed. -/
structure TolTxn where
  req : TolReq
  cls : Nat
  /-- The access that goes to its home once it has passed, where an engine of the hub issues it. -/
  acc : Option HomeReq := none
  deriving DecidableEq, Repr

/-- A transaction that has passed and awaits its response (R347, R348). -/
structure TolOut where
  tol : Nat
  id : Nat
  task : Option TaskId
  lower : Bool
  level : Nat
  deriving DecidableEq, Repr

/-- The mesh. -/
structure MeshSt where
  waiting : List TolTxn := []
  outs : List TolOut := []
  /-- Transactions that timed out and whose late response may come (R349). -/
  late : List (Nat × Nat) := []
  /-- Fractions of tokens, in hundredths, under tollgate × 4 + class (R341). -/
  frac : NMap Nat := []
  /-- Largest latency of the running 1 µs window, by tollgate (R347). -/
  lat : NMap Nat := []
  /-- Tollgates at which a transaction waited in the running 1 µs window (PERF2.HELD_US). -/
  heldIn : List Nat := []
  /-- Flits in transit (R335). -/
  flits : List Flit := []
  /-- Packets whose first copy failed its CRC (R616). -/
  retry : List Nat := []
  /-- Flits and messages below 1,024 by router × 4 + counter (PERF). -/
  counts : NMap Nat := []
  deriving DecidableEq, Repr

end Sys2Proof.Machine
end

