-- ==== Sys2Proof/Machine/MilTypes.lean ====
section
/-! DEFINITION. State of the time domain, the schedules, the collectives and the image broadcast (15_milestone_schedule.md). -/
namespace Sys2Proof.Machine

/-- An entry of a schedule table (R466): first milestone, span, kind (1 SEND, 2 RECV, 3 COLL_SEND, 4 COLL_RECV), BOUND, strand mask,
hint, bytes, peer, SRC, DST_OFFSET, flags. -/
structure SchedEnt where
  off : Nat
  span : Nat
  kind : Nat
  bound : Bool
  strands : Nat
  hint : Nat
  bytes : Nat
  peer : Nat
  src : Nat
  dst : Nat
  flags : Nat
  deriving DecidableEq, Repr

/-- A schedule table (R465): its job, its cycle, its entries. -/
structure SchedTab where
  job : Nat
  cycle : Nat
  ents : List SchedEnt
  deriving DecidableEq, Repr

/-- An occurrence of an entry that runs: entry, milestone it starts at, bytes it moves, bytes issued to memory or sent, bytes sent or counted,
bytes accepted at home slices, the task it serves, an overrun reported, the tick its span ended, all done. -/
structure MilRun where
  ent : Nat
  occ : Nat
  need : Nat
  moved : Nat := 0
  accepted : Nat := 0
  task : Option TaskId := none
  late : Bool := false
  endTick : Option Nat := none
  done : Bool := false
  deriving DecidableEq, Repr

/-- A task bound to an occurrence (R472): entry, milestone, task, in the staged table. -/
structure MilBind where
  ent : Nat
  occ : Nat
  task : TaskId
  staged : Bool
  deriving DecidableEq, Repr

/-- The schedule engine of a port (R470, R471). -/
structure MilPort where
  staged : Option SchedTab := none
  active : Option SchedTab := none
  base : Nat := 0
  runs : List MilRun := []
  bound : List MilBind := []
  /-- A commit was requested too late (R471). -/
  late : Bool := false
  /-- SCHED packets sent and counted below one unit of 1,024. -/
  tx : Nat := 0
  rx : Nat := 0
  deriving DecidableEq, Repr

/-- The time tree (R455-R476).
[DEDUCED, log entry 146] -/
structure TimeSt where
  /-- Half round trips of a port so far, ps, and the delay measured. -/
  samples : NMap (List Nat) := []
  delay : NMap Nat := []
  /-- Ports whose peers have adopted this hub (R456), with what they last reported: READY_THROUGH, its node, LOCKED. -/
  children : NMap (Option (Nat × Nat × Bool)) := []
  /-- Consecutive good SYNCs (a root: SYNCs sent); locked (R459). -/
  locks : Nat := 0
  locked : Bool := false
  /-- PERIOD_TICKS and HOLD_LEAD_TICKS in use (R461). -/
  period : Nat := 400
  lead : Nat := 1500
  epoch : Option Nat := none
  /-- GOs whose ticks are to come: milestone, tick, culprit. -/
  go : List (Nat × Nat × Nat) := []
  /-- HOLD received or sent for a milestone whose GO has not come. -/
  hold : Option Nat := none
  /-- Tick of the last boundary. -/
  lastB : Nat := 0
  /-- The root's next milestone to decide and the tick of the boundary before it. -/
  next : Nat := 1
  base : Nat := 0
  culprit : Nat := 0x3FFFF
  /-- What was last reported upward: READY_THROUGH and its node. -/
  sent : Option (Nat × Nat) := none
  deriving DecidableEq, Repr

/-- A ply (R478): algorithm, scheduled, partition, job, origin, extents, order, scratch. -/
structure Ply where
  alg : Nat
  sched : Bool
  part : Nat
  job : Nat
  origin : Nat
  extent : Nat
  order : Nat
  scratch : Nat
  deriving DecidableEq, Repr

/-- A message of a collective step: the other rank, the elements it carries in order. -/
structure CollMsg where
  rank : Nat
  idx : List Nat
  deriving DecidableEq, Repr

/-- A step of a collective at this member (R481): what it sends, what it receives, whether it combines, on the PLUS ring first. -/
structure CollStep where
  sends : List CollMsg
  recvs : List CollMsg
  combine : Bool
  deriving DecidableEq, Repr

/-- A COLL that runs (R480-R483): its task, ply, operation, element type, steps, the element values it holds, their poison, the step it
is at, what has been received (step, message, offset, bytes, poison), the messages of the step still unsent, where it stands: 0 its input is being read,
1 it runs, 2 its result is being written. -/
structure CollRun where
  task : TaskId
  ply : Nat
  op : Nat
  dtype : Nat
  steps : List CollStep
  vals : NMap Nat := []
  pois : List Nat := []
  /-- Elements of the input in order, of the result in order. -/
  input : List Nat
  result : List Nat
  srcBase : Nat
  srcPages : List Addr
  dstBase : Nat
  dstPages : List Addr
  at_ : Nat := 0
  got : List (Nat × Nat × Nat × List Byte × Nat) := []
  unsent : List Nat := []
  phase : Nat := 0
  deriving DecidableEq, Repr

/-- The image transfer (R486, R487): image, chunks held, pieces of chunks not yet held (piece offset, bytes), the chunk asked for with the
neighbours tried. -/
structure ImgSt where
  image : Nat := 0
  chunks : Nat := 0
  held : List Nat := []
  pieces : NMap (List Byte) := []
  asking : Option (Nat × List Nat) := none
  deriving DecidableEq, Repr

/-- Schedules and collectives as a whole. -/
structure MilSt where
  time : TimeSt := {}
  ports : NMap MilPort := []
  plies : NMap (Option Ply) := []
  colls : List CollRun := []
  img : ImgSt := {}
  /-- Bytes combined below one unit of 1,024 (COL.PERF). -/
  combined : Nat := 0
  deriving DecidableEq, Repr

end Sys2Proof.Machine
end

