-- ==== Sys2Proof/Machine/TrustTypes.lean ====
section
/-! DEFINITION. State of the ROT, of attestation and ownership (19_trust_and_tenancy.md), of boot flash
(21_bring_up_and_reset.md R596-R598), and of the fault reporting path (22_fault_detection.md). -/
namespace Sys2Proof.Machine

/-- A component slot of boot flash as the directory lists it (R597): state 0 EMPTY, 1 ACTIVE, 2 PENDING, 3 RETIRED.
[DESIGN CHOICE, log entry 210] -/
structure FlashSlot where
  st : Nat := 0
  image : FwImage := ⟨0, 0, 0, 0, true, true⟩
  deriving DecidableEq, Repr

/-- A component of MR 2-7 (R556, R557): its two flash slots, the image running, the digest last extended into its MR;
`down`: its blocks stay in reset because both copies failed (R554).
[DESIGN CHOICE, log entry 210] -/
structure CompSt where
  slotA : FlashSlot := { st := 1 }
  slotB : FlashSlot := {}
  running : FwImage := ⟨0, 0, 0, 0, true, true⟩
  lastExt : BitVec 384 := 0
  down : Bool := false
  deriving DecidableEq, Repr

/-- An entry of the measurement log (R555): EVENT 0 BOOT, 1 ACTIVATE, 2 CONFIG. -/
structure MeasEntry where
  mr : Nat
  event : Nat
  seq : Nat
  svn : Nat
  version : Nat
  digest : BitVec 384
  deriving DecidableEq, Repr

/-- An SPDM session (R561, R562, R566): transport, established by FINISH, mutually authenticated to the owner's anchor,
held open by heartbeat, keys updated so often, the last GET_MEASUREMENTS transcript. -/
structure Session where
  id : Nat
  tr : Transport
  up : Bool := false
  mutAuth : Bool := false
  beat : Bool := false
  epoch : Nat := 0
  transcript : Option Nat := none
  deriving DecidableEq, Repr

/-- The SPDM connection of a transport before sessions (R561): 0 nothing, 1 version, 2 capabilities, 3 algorithms;
bytes of a chunked message received or still to send. -/
structure SpdmConn where
  phase : Nat := 0
  chunkIn : Nat := 0
  chunkOut : Nat := 0
  deriving DecidableEq, Repr

/-- An IDE stream (R571): key sets programmed, the set in use, its address associations (first and last address). -/
structure IdeStream where
  assoc : List (Nat × Nat) := []
  prog : List Nat := []
  go : Option Nat := none
  deriving DecidableEq, Repr

/-- The ROT (R553-R571). Measurement registers by number; components by MR number.
[DESIGN CHOICE, log entry 210] -/
structure RotSt where
  /-- Mask ROM runs and the boot chain has passed (R553). -/
  booted : Bool := false
  mr : NMap (BitVec 384) := []
  log : List MeasEntry := []
  logSeq : Nat := 0
  overflow : Bool := false
  comps : NMap CompSt := []
  /-- Directory copy in force and its SEQ (R597). -/
  dirCopy : Nat := 0
  dirSeq : Nat := 0
  owner : Option OwnerRec := none
  sessions : List Session := []
  nextSession : Nat := 1
  conns : NMap SpdmConn := []
  ide : NMap IdeStream := []
  /-- HBM encryption uses a fresh random value (R549, RETURNED). -/
  noKeys : Bool := false
  /-- The ROT has halted on a lockstep mismatch (R617) or in mask ROM (R535 SCRAPPED, R554). -/
  halted : Bool := false
  deriving DecidableEq, Repr

/-- An in-service test running (R633): kind 0 HANK, 1 SLICE, 2 LATENT, and the instance. -/
structure TstRun where
  kind : Nat
  inst : Nat
  deriving DecidableEq, Repr

/-- An entry of the management queue (R628): the record, its SEQ and its LOST flag. -/
structure EvqEntry where
  seq : Nat
  lost : Bool
  ev : EvRec
  deriving DecidableEq, Repr

/-- The reporting path (22_fault_detection.md). The latched first FATAL event lies in SAF.STATUS. -/
structure SafSt where
  /-- Management queue, oldest first (R628), its next SEQ, an overflow not yet flagged. -/
  evq : List EvqEntry := []
  evqSeq : Nat := 0
  evqLost : Bool := false
  /-- Events to be written to rings, oldest first (R626). -/
  ringQ : List (Nat × EvRec) := []
  /-- Rings whose next entry carries LOST (R626). -/
  ringLost : List Nat := []
  /-- Causes of FATAL conditions that persist (R622, R623): event cause codes. -/
  fatal : List Nat := []
  /-- The Dispatcher is stopped by a FATAL event; no completion record is written (R622). -/
  stopped : Bool := false
  /-- Temperature of each sensor in °C (R619), as sampled; hot sensors above WARN_C. -/
  temps : NMap Int := []
  /-- Tick of management's last lockstep mismatch (R617); management held in reset. -/
  mgmtMismatch : Option Nat := none
  mgmtHeld : Bool := false
  /-- In-service test running, its first failure awaiting the one repeat (R631, R633). -/
  tst : Option TstRun := none
  /-- Tick of the last hank controller reset after a watchdog or signature failure (R618), by tile. -/
  ctlReset : NMap Nat := []
  /-- Hanks whose reset is the retry of such a failure (R618). -/
  ctlRetry : List Nat := []
  /-- Tick of the last flit-parity failure of a router (R616). -/
  flitFail : NMap Nat := []
  deriving DecidableEq, Repr

end Sys2Proof.Machine
end

