-- ==== Sys2Proof/Machine/OutMsg.lean ====
section
/-! DEFINITION. The messages the hub sends: the model's record of what leaves the block. -/
namespace Sys2Proof.Machine

/-- A message the hub sends, or a pin it drives, as seen from outside.
[DESIGN CHOICE, log entry 8] -/
inductive Out where
  /-- The value a register read answers (02_register_pages.md R46). -/
  | regValue (r : Requester) (addr : Nat) (v : Nat)
  /-- An MSI-X message (16_host_endpoint.md R499). -/
  | msix (vector addr data : Nat)
  /-- A page interrupt for management (R500). -/
  | mgmtIrq (page : Nat)
  /-- PM_PME, PME_TO_Ack, DRS on the host link (R510, R511, R516). -/
  | pmPme | pmeToAck | drs
  /-- A request of the hub on the host link (R501). -/
  | hostReq (q : HostReq)
  /-- A completion for a request of the host: 0 successful, 1 Unsupported Request, 2 Completer Abort, 3 Request Retry
  Status; poisoned (EP); data (R494-R496, R516). -/
  | hostCpl (status : Nat) (poisoned : Bool) (data : List Byte)
  /-- Pins (23_physical.md R638): FAULT_N, WAKE_N driven (true: low) or released; I3C NACK. -/
  | faultN (on : Bool) | wakeN (on : Bool) | i3cNack
  /-- What TDO shifts out (18_life_cycle.md R547). -/
  | tdo (v : Nat)
  /-- An SPDM response (19_trust_and_tenancy.md R561): transport, kind, values. -/
  | spdm (t : Transport) (kind : Nat) (vals : List Nat)
  /-- An SPDM ERROR: 0 UnsupportedRequest, 1 ResponseNotReady with RDTExponent 21 (R558), 2 UnexpectedRequest. -/
  | spdmError (t : Transport) (code : Nat)
  /-- A signed report: measurement blocks by index (R559). -/
  | report (t : Transport) (blocks : List (Nat × Nat)) (overflow : Bool)
  /-- The answer to a management command, with a result code as in R569. -/
  | mgmtAnswer (session result : Nat)
  /-- A home's answer to an initiator's transaction: status (06_task_graphs.md R187), data read, poisoned sectors. -/
  | memResp (src id status : Nat) (data : List Byte) (poison : Nat)
  /-- A BISnp to the host for a line (12_coherence.md R361, R362): the agent (4), its kind, the transaction. -/
  | snoop (agent : Nat) (kind : SnpKind) (line txn : Nat) (fwdTo : Nat)
  /-- To the host: grant with data, grant without data, error (R361, R375). -/
  | grant (agent line : Nat) (st : CohSt) (data : List Byte) (poison : Nat)
  | grantNoData (agent line : Nat)
  | cohErr (agent line : Nat)
  /-- A D2H request of the hub's cache (R374, R377): 0 RdCurr, 1 RdShared, 2 RdOwn, 3 ItoMWr, 4 DirtyEvict, 5 CleanEvict, and a
  D2H response to a host snoop: 8, with the sectors that carry CXL poison (09_memory_integrity.md R278); BIConflictAck (R376). -/
  | d2h (kind line : Nat) (data : List Byte) (poison : Nat := 0)
  | biConflictAck (line : Nat)
  /-- The contents of a demoted granule copied to its backing (08_memory_tiers.md R254): PASID, HVA, bytes that are not zero,
  sectors that carry poison. -/
  | granuleToHost (pasid hva : Nat) (cells : List (Nat × Byte)) (poison : List Nat)
  /-- A request returned to the tollgate it came by (R342). -/
  | shareReturn (tol req : Nat)
  /-- A translation granted to a client's request: address, permissions, UNC, to be issued untranslated (R304, R307, R314). -/
  | xlate (client id addr : Nat) (r w unc unt : Bool)
  /-- A translation refused, with its reason (R320). -/
  | xlateRefused (client id reason : Nat)
  /-- An ATS Translation Request: slot, page, NW (R303, R314); a device walk that starts at a root table (R306). -/
  | atsReq (slot vpn2 : Nat) (nw : Bool)
  | walk (slot vpn2 root : Nat)
  /-- A Page Request (R322) and an Invalidation Completion (R317). -/
  | pageReq (prg pasid vpn2 : Nat) (r w : Bool)
  | invCpl (tag : Nat)
  /-- A transaction enters the mesh in a class at a level (R341, R345); the error an initiator synthesises (R348). -/
  | inject (tol id cls level : Nat)
  | timeoutError (tol id : Nat)
  /-- A flit arrives at its destination; a retry response for a packet that failed its CRC (R616). -/
  | flitOut (id router : Nat)
  | meshRetry (tol txn : Nat)
  /-- A frame sent on a strand (14_fabric_links.md R426); credits returned on a strand for a virtual channel (U0, U1, A0, A1); a packet
  delivered into this hub by an attachment (R438). -/
  | fabFrame (strand : Nat) (f : FabFrame)
  | fabCredit (strand vc slots : Nat)
  | fabDeliver (att : Nat) (p : FabPkt)
  /-- A TIME packet (15_milestone_schedule.md R458) on a port: operation, values; an IMAGE packet (R485): operation, image, offset, data. -/
  | timePkt (port op : Nat) (vals : List Nat)
  | imagePkt (port op image offset : Nat) (data : List Byte)
  /-- An image whose chunks are all held is handed to the ROT (R486). -/
  | imageReady (image chunks : Nat)
  | mgmtMsg (src : Nat) (data : List Byte)
  /-- A flit sent on a site channel (13_chiplet_sites.md R395), credits returned for a class (R400), the hub's sideband status (R391),
  the lane map it imposes (R393). -/
  | aspFlit (site ch : Nat) (f : AspFlit)
  | aspCredit (site ch cls n : Nat)
  | siteStatus (site status : Nat)
  | siteMap (site : Nat) (failed : List (Nat × Nat))
  /-- A message sent on an Ethernet port (17_network_ports.md): a work request's packets; an answer to an inbound request (0 ACK, 1 NAK
  sequence, 2 RNR NAK with its timer, 3 NAK Remote Access Error, 4 NAK Remote Operational Error, 5 response with data); PFC for a priority. -/
  | rdmaReq (qp op psn packets : Nat) (va rkey imm : Nat) (data : List Byte)
  | rdmaResp (qp psn kind arg : Nat) (data : List Byte)
  | pfc (port prio : Nat) (xoff : Bool)
  /-- A completion entry written at an index of a QP's completion ring, with its PHASE (R528). -/
  | cqe (qp index : Nat) (c : Cqe) (phase : Bool)
  deriving DecidableEq, Repr

end Sys2Proof.Machine
end

