-- ==== Sys2Proof/Machine/Regs.lean ====
section
/-! DEFINITION. The register fields of every page, from the tables of the chapters: offset, bits, access, field class, reset value. -/
namespace Sys2Proof.Machine

/-- Access codes (00_scope.md, Conventions). -/
inductive Acc where
  | ro | rw | wo | w1c | w1s | rc
  deriving DecidableEq, Repr

/-- Field classes (02_register_pages.md R67-R71); `plain`: the control registers of R53 and the command registers of R651, which carry none. -/
inductive FCls where
  | plain | live | quiesce | staged | fixed
  deriving DecidableEq, Repr

/-- One field of a register: byte offset in the page, bits hi..lo, access, class, reset value. -/
structure Fld where
  off : Nat
  hi : Nat
  lo : Nat
  acc : Acc
  cls : FCls
  reset : Nat
  deriving DecidableEq, Repr

/-- A field of an array of registers: the field of element 0, the number of elements and their distance. -/
structure FldRow where
  fld : Fld
  count : Nat
  stride : Nat
  deriving DecidableEq, Repr

namespace PgGLB
/-- CORE_RATE.MIN_MSPS (R30). -/
def CORE_RATE_MIN_MSPS : Fld := ⟨0x100, 31, 16, .rc, .plain, 65535⟩
/-- CORE_RATE.NOW_MSPS (R30). -/
def CORE_RATE_NOW_MSPS : Fld := ⟨0x100, 15, 0, .ro, .plain, 0⟩
/-- RATE_FLOOR.FLOOR_MSPS (R30). -/
def RATE_FLOOR_FLOOR_MSPS : Fld := ⟨0x108, 15, 0, .rw, .live, 620⟩
/-- DMM_CFG.RETREAT_MS (R30). -/
def DMM_CFG_RETREAT_MS : Fld := ⟨0x110, 23, 16, .rw, .live, 1⟩
/-- DMM_CFG.WARN (R30). -/
def DMM_CFG_WARN : Fld := ⟨0x110, 15, 8, .rw, .live, 16⟩
/-- DMM_CFG.ACT (R30). -/
def DMM_CFG_ACT : Fld := ⟨0x110, 7, 0, .rw, .live, 8⟩
/-- DMM_STATUS.TAP_EVENTS (R30). -/
def DMM_STATUS_TAP_EVENTS : Fld := ⟨0x118, 63, 48, .rc, .plain, 0⟩
/-- DMM_STATUS.WORST_CLASS (R30). -/
def DMM_STATUS_WORST_CLASS : Fld := ⟨0x118, 47, 43, .ro, .plain, 0⟩
/-- DMM_STATUS.WORST_INST (R30). -/
def DMM_STATUS_WORST_INST : Fld := ⟨0x118, 42, 31, .ro, .plain, 0⟩
/-- DMM_STATUS.CFG_REJECT (R30). -/
def DMM_STATUS_CFG_REJECT : Fld := ⟨0x118, 16, 16, .w1c, .plain, 0⟩
/-- DMM_STATUS.MAX_TAP (R30). -/
def DMM_STATUS_MAX_TAP : Fld := ⟨0x118, 10, 8, .ro, .plain, 0⟩
/-- DMM_STATUS.WORST_MARGIN (R30). -/
def DMM_STATUS_WORST_MARGIN : Fld := ⟨0x118, 7, 0, .ro, .plain, 0⟩
/-- MS_NOW.HELD (R463). -/
def MS_NOW_HELD : Fld := ⟨0x120, 48, 48, .ro, .plain, 0⟩
/-- MS_NOW.COUNT (R463). -/
def MS_NOW_COUNT : Fld := ⟨0x120, 47, 0, .ro, .plain, 0⟩
/-- TICK_NOW.TICK (R463). -/
def TICK_NOW_TICK : Fld := ⟨0x128, 63, 0, .ro, .plain, 0⟩
/-- STRETCH.COUNT (R463). -/
def STRETCH_COUNT : Fld := ⟨0x130, 63, 32, .rc, .plain, 0⟩
/-- STRETCH.TOTAL_US (R463). -/
def STRETCH_TOTAL_US : Fld := ⟨0x130, 31, 0, .rc, .plain, 0⟩
/-- LAST_STRETCH.DUR_US (R463). -/
def LAST_STRETCH_DUR_US : Fld := ⟨0x138, 63, 48, .ro, .plain, 0⟩
/-- LAST_STRETCH.MILESTONE (R463). -/
def LAST_STRETCH_MILESTONE : Fld := ⟨0x138, 47, 0, .ro, .plain, 0⟩
/-- LAST_CAUSE.CAUSE (R463). -/
def LAST_CAUSE_CAUSE : Fld := ⟨0x140, 20, 18, .ro, .plain, 0⟩
/-- LAST_CAUSE.NODE (R463). -/
def LAST_CAUSE_NODE : Fld := ⟨0x140, 17, 0, .ro, .plain, 0⟩
/-- LAYBY_CFG.DRAIN_US (R609). -/
def LAYBY_CFG_DRAIN_US : Fld := ⟨0x148, 14, 0, .rw, .live, 5000⟩
/-- LAYBY.READS_REFUSED (R609). -/
def LAYBY_READS_REFUSED : Fld := ⟨0x150, 63, 32, .rc, .plain, 0⟩
/-- LAYBY.WRITES_DROPPED (R609). -/
def LAYBY_WRITES_DROPPED : Fld := ⟨0x150, 31, 0, .rc, .plain, 0⟩
/-- BOOT.READY (R609). -/
def BOOT_READY : Fld := ⟨0x158, 63, 63, .ro, .plain, 0⟩
/-- BOOT.KIND (R609). -/
def BOOT_KIND : Fld := ⟨0x158, 62, 60, .ro, .plain, 0⟩
/-- BOOT.STAGE (R609). -/
def BOOT_STAGE : Fld := ⟨0x158, 51, 48, .ro, .plain, 0⟩
/-- BOOT.LAST_MS (R609). -/
def BOOT_LAST_MS : Fld := ⟨0x158, 31, 0, .ro, .plain, 0⟩
/-- DELIVERY.STATE (R609). -/
def DELIVERY_STATE : Fld := ⟨0x160, 63, 62, .ro, .plain, 0⟩
/-- DELIVERY.ROUND (R609). -/
def DELIVERY_ROUND : Fld := ⟨0x160, 61, 60, .ro, .plain, 0⟩
/-- DELIVERY.PENDING (R609). -/
def DELIVERY_PENDING : Fld := ⟨0x160, 40, 32, .ro, .plain, 0⟩
/-- DELIVERY.FAILED (R609). -/
def DELIVERY_FAILED : Fld := ⟨0x160, 8, 0, .ro, .plain, 0⟩
/-- Rows of the page, part 0. -/
def rows0 : List FldRow :=
  [⟨CORE_RATE_MIN_MSPS, 1, 0⟩, ⟨CORE_RATE_NOW_MSPS, 1, 0⟩, ⟨RATE_FLOOR_FLOOR_MSPS, 1, 0⟩, ⟨DMM_CFG_RETREAT_MS, 1, 0⟩, ⟨DMM_CFG_WARN, 1, 0⟩, ⟨DMM_CFG_ACT, 1, 0⟩, ⟨DMM_STATUS_TAP_EVENTS, 1, 0⟩, ⟨DMM_STATUS_WORST_CLASS, 1, 0⟩, ⟨DMM_STATUS_WORST_INST, 1, 0⟩, ⟨DMM_STATUS_CFG_REJECT, 1, 0⟩, ⟨DMM_STATUS_MAX_TAP, 1, 0⟩, ⟨DMM_STATUS_WORST_MARGIN, 1, 0⟩]
/-- Rows of the page, part 1. -/
def rows1 : List FldRow :=
  [⟨MS_NOW_HELD, 1, 0⟩, ⟨MS_NOW_COUNT, 1, 0⟩, ⟨TICK_NOW_TICK, 1, 0⟩, ⟨STRETCH_COUNT, 1, 0⟩, ⟨STRETCH_TOTAL_US, 1, 0⟩, ⟨LAST_STRETCH_DUR_US, 1, 0⟩, ⟨LAST_STRETCH_MILESTONE, 1, 0⟩, ⟨LAST_CAUSE_CAUSE, 1, 0⟩, ⟨LAST_CAUSE_NODE, 1, 0⟩, ⟨LAYBY_CFG_DRAIN_US, 1, 0⟩, ⟨LAYBY_READS_REFUSED, 1, 0⟩, ⟨LAYBY_WRITES_DROPPED, 1, 0⟩]
/-- Rows of the page, part 2. -/
def rows2 : List FldRow :=
  [⟨BOOT_READY, 1, 0⟩, ⟨BOOT_KIND, 1, 0⟩, ⟨BOOT_STAGE, 1, 0⟩, ⟨BOOT_LAST_MS, 1, 0⟩, ⟨DELIVERY_STATE, 1, 0⟩, ⟨DELIVERY_ROUND, 1, 0⟩, ⟨DELIVERY_PENDING, 1, 0⟩, ⟨DELIVERY_FAILED, 1, 0⟩]
/-- Every writable, hardware-written or constant field of the page. -/
def rows : List FldRow := rows0 ++ rows1 ++ rows2
end PgGLB

namespace PgHNK
/-- DST_CFG.WINDOW (R124). -/
def DST_CFG_WINDOW : Fld := ⟨0x100, 31, 20, .rw, .live, 100⟩
/-- DST_CFG.FILL (R124). -/
def DST_CFG_FILL : Fld := ⟨0x100, 12, 8, .rw, .live, 16⟩
/-- DST_CFG.MAX_OPEN (R124). -/
def DST_CFG_MAX_OPEN : Fld := ⟨0x100, 2, 0, .rw, .live, 4⟩
/-- SP_FENCE.MASK_HI (R124). -/
def SP_FENCE_MASK_HI : Fld := ⟨0x108, 63, 32, .rw, .live, 0⟩
/-- SP_FENCE.MASK_LO (R124). -/
def SP_FENCE_MASK_LO : Fld := ⟨0x108, 31, 0, .rw, .live, 0⟩
/-- STATUS.TILES (R124). -/
def STATUS_TILES : Fld := ⟨0x110, 63, 32, .ro, .plain, 0⟩
/-- STATUS.PASSES (R124). -/
def STATUS_PASSES : Fld := ⟨0x110, 31, 30, .ro, .plain, 0⟩
/-- STATUS.USED_ROWS (R124). -/
def STATUS_USED_ROWS : Fld := ⟨0x110, 29, 25, .ro, .plain, 16⟩
/-- STATUS.DST_OPEN (R124). -/
def STATUS_DST_OPEN : Fld := ⟨0x110, 18, 16, .ro, .plain, 0⟩
/-- STATUS.DST_PENDING (R124). -/
def STATUS_DST_PENDING : Fld := ⟨0x110, 6, 0, .ro, .plain, 0⟩
/-- CHECK.MISMATCH (R124). -/
def CHECK_MISMATCH : Fld := ⟨0x118, 63, 48, .rc, .plain, 0⟩
/-- CHECK.TRANSIENT (R124). -/
def CHECK_TRANSIENT : Fld := ⟨0x118, 47, 32, .rc, .plain, 0⟩
/-- CHECK.LAST_VICTIM (R124). -/
def CHECK_LAST_VICTIM : Fld := ⟨0x118, 13, 8, .ro, .plain, 0⟩
/-- CHECK.LAST_OUTCOME (R124). -/
def CHECK_LAST_OUTCOME : Fld := ⟨0x118, 1, 0, .ro, .plain, 0⟩
/-- PERF.BUSY_KSTEPS (R124). -/
def PERF_BUSY_KSTEPS : Fld := ⟨0x120, 63, 32, .rc, .plain, 0⟩
/-- PERF.STALL_KSTEPS (R124). -/
def PERF_STALL_KSTEPS : Fld := ⟨0x120, 31, 0, .rc, .plain, 0⟩
/-- Rows of the page, part 0. -/
def rows0 : List FldRow :=
  [⟨DST_CFG_WINDOW, 1, 0⟩, ⟨DST_CFG_FILL, 1, 0⟩, ⟨DST_CFG_MAX_OPEN, 1, 0⟩, ⟨SP_FENCE_MASK_HI, 1, 0⟩, ⟨SP_FENCE_MASK_LO, 1, 0⟩, ⟨STATUS_TILES, 1, 0⟩, ⟨STATUS_PASSES, 1, 0⟩, ⟨STATUS_USED_ROWS, 1, 0⟩, ⟨STATUS_DST_OPEN, 1, 0⟩, ⟨STATUS_DST_PENDING, 1, 0⟩, ⟨CHECK_MISMATCH, 1, 0⟩, ⟨CHECK_TRANSIENT, 1, 0⟩]
/-- Rows of the page, part 1. -/
def rows1 : List FldRow :=
  [⟨CHECK_LAST_VICTIM, 1, 0⟩, ⟨CHECK_LAST_OUTCOME, 1, 0⟩, ⟨PERF_BUSY_KSTEPS, 1, 0⟩, ⟨PERF_STALL_KSTEPS, 1, 0⟩]
/-- Every writable, hardware-written or constant field of the page. -/
def rows : List FldRow := rows0 ++ rows1
end PgHNK

namespace PgBOB
/-- CFG.LOOKAHEAD (R125). -/
def CFG_LOOKAHEAD : Fld := ⟨0x100, 7, 0, .rw, .quiesce, 32⟩
/-- STATUS.BANK_DEFER (R125). -/
def STATUS_BANK_DEFER : Fld := ⟨0x108, 63, 32, .rc, .plain, 0⟩
/-- STATUS.EMPTY_STEPS (R125). -/
def STATUS_EMPTY_STEPS : Fld := ⟨0x108, 31, 0, .rc, .plain, 0⟩
/-- Rows of the page, part 0. -/
def rows0 : List FldRow :=
  [⟨CFG_LOOKAHEAD, 1, 0⟩, ⟨STATUS_BANK_DEFER, 1, 0⟩, ⟨STATUS_EMPTY_STEPS, 1, 0⟩]
/-- Every writable, hardware-written or constant field of the page. -/
def rows : List FldRow := rows0
end PgBOB

namespace PgDSP
/-- CFG.AGE_US (R161). -/
def CFG_AGE_US : Fld := ⟨0x100, 15, 0, .rw, .live, 0⟩
/-- QCMD.BUSY (R161). -/
def QCMD_BUSY : Fld := ⟨0x108, 31, 31, .ro, .plain, 0⟩
/-- QCMD.RESULT (R161). -/
def QCMD_RESULT : Fld := ⟨0x108, 19, 16, .ro, .plain, 0⟩
/-- QCMD.OP (R161). -/
def QCMD_OP : Fld := ⟨0x108, 15, 12, .wo, .plain, 0⟩
/-- QCMD.QUEUE (R161). -/
def QCMD_QUEUE : Fld := ⟨0x108, 11, 0, .rw, .plain, 0⟩
/-- QARG0.RING_BASE (R161). -/
def QARG0_RING_BASE : Fld := ⟨0x110, 63, 0, .rw, .live, 0⟩
/-- QARG1.LOG2_SIZE (R161). -/
def QARG1_LOG2_SIZE : Fld := ⟨0x118, 56, 52, .rw, .live, 0⟩
/-- QARG1.SITE_MASK (R161). -/
def QARG1_SITE_MASK : Fld := ⟨0x118, 51, 48, .rw, .live, 0⟩
/-- QARG1.SPAN (R161). -/
def QARG1_SPAN : Fld := ⟨0x118, 44, 32, .rw, .live, 0⟩
/-- QARG1.PASID (R161). -/
def QARG1_PASID : Fld := ⟨0x118, 19, 0, .rw, .live, 0⟩
/-- QARG2.TAIL (R161). -/
def QARG2_TAIL : Fld := ⟨0x120, 63, 32, .ro, .plain, 0⟩
/-- QARG2.HEAD (R161). -/
def QARG2_HEAD : Fld := ⟨0x120, 31, 0, .ro, .plain, 0⟩
/-- LIVE.LIVE_TASKS (R161). -/
def LIVE_LIVE_TASKS : Fld := ⟨0x128, 48, 32, .ro, .plain, 0⟩
/-- LIVE.RESERVED (R161). -/
def LIVE_RESERVED : Fld := ⟨0x128, 16, 0, .ro, .plain, 0⟩
/-- EVT_CMD.BUSY (R161). -/
def EVT_CMD_BUSY : Fld := ⟨0x130, 31, 31, .ro, .plain, 0⟩
/-- EVT_CMD.OP (R161). -/
def EVT_CMD_OP : Fld := ⟨0x130, 17, 16, .wo, .plain, 0⟩
/-- EVT_CMD.EVENT (R161). -/
def EVT_CMD_EVENT : Fld := ⟨0x130, 13, 0, .rw, .plain, 0⟩
/-- EVT_DATA.ERR (R161). -/
def EVT_DATA_ERR : Fld := ⟨0x138, 63, 63, .rw, .live, 0⟩
/-- EVT_DATA.FWD (R161). -/
def EVT_DATA_FWD : Fld := ⟨0x138, 62, 62, .ro, .plain, 0⟩
/-- EVT_DATA.NODE (R161). -/
def EVT_DATA_NODE : Fld := ⟨0x138, 53, 36, .rw, .live, 0⟩
/-- EVT_DATA.PART (R161). -/
def EVT_DATA_PART : Fld := ⟨0x138, 35, 32, .rw, .live, 0⟩
/-- EVT_DATA.COUNT (R161). -/
def EVT_DATA_COUNT : Fld := ⟨0x138, 31, 0, .rw, .live, 0⟩
/-- PERF.DONE (R161). -/
def PERF_DONE : Fld := ⟨0x140, 63, 32, .rc, .plain, 0⟩
/-- PERF.FAILED (R161). -/
def PERF_FAILED : Fld := ⟨0x140, 31, 0, .rc, .plain, 0⟩
/-- BITS of HSET0 i (R161). -/
def HSET0_BITS (i : Nat) : Fld := ⟨0x200 + 0x40 * i, 63, 0, .rw, .staged, 0⟩
/-- BITS of HSET1 i (R161). -/
def HSET1_BITS (i : Nat) : Fld := ⟨0x208 + 0x40 * i, 63, 0, .rw, .staged, 0⟩
/-- BITS of HSET2 i (R161). -/
def HSET2_BITS (i : Nat) : Fld := ⟨0x210 + 0x40 * i, 63, 0, .rw, .staged, 0⟩
/-- BITS of HSET3 i (R161). -/
def HSET3_BITS (i : Nat) : Fld := ⟨0x218 + 0x40 * i, 63, 0, .rw, .staged, 0⟩
/-- BITS of HSET4 i (R161). -/
def HSET4_BITS (i : Nat) : Fld := ⟨0x220 + 0x40 * i, 63, 0, .rw, .staged, 0⟩
/-- BITS of HSET5 i (R161). -/
def HSET5_BITS (i : Nat) : Fld := ⟨0x228 + 0x40 * i, 63, 0, .rw, .staged, 0⟩
/-- BITS of HSET6 i (R161). -/
def HSET6_BITS (i : Nat) : Fld := ⟨0x230 + 0x40 * i, 15, 0, .rw, .staged, 0⟩
/-- Rows of the page, part 0. -/
def rows0 : List FldRow :=
  [⟨CFG_AGE_US, 1, 0⟩, ⟨QCMD_BUSY, 1, 0⟩, ⟨QCMD_RESULT, 1, 0⟩, ⟨QCMD_OP, 1, 0⟩, ⟨QCMD_QUEUE, 1, 0⟩, ⟨QARG0_RING_BASE, 1, 0⟩, ⟨QARG1_LOG2_SIZE, 1, 0⟩, ⟨QARG1_SITE_MASK, 1, 0⟩, ⟨QARG1_SPAN, 1, 0⟩, ⟨QARG1_PASID, 1, 0⟩, ⟨QARG2_TAIL, 1, 0⟩, ⟨QARG2_HEAD, 1, 0⟩]
/-- Rows of the page, part 1. -/
def rows1 : List FldRow :=
  [⟨LIVE_LIVE_TASKS, 1, 0⟩, ⟨LIVE_RESERVED, 1, 0⟩, ⟨EVT_CMD_BUSY, 1, 0⟩, ⟨EVT_CMD_OP, 1, 0⟩, ⟨EVT_CMD_EVENT, 1, 0⟩, ⟨EVT_DATA_ERR, 1, 0⟩, ⟨EVT_DATA_FWD, 1, 0⟩, ⟨EVT_DATA_NODE, 1, 0⟩, ⟨EVT_DATA_PART, 1, 0⟩, ⟨EVT_DATA_COUNT, 1, 0⟩, ⟨PERF_DONE, 1, 0⟩, ⟨PERF_FAILED, 1, 0⟩]
/-- Rows of the page, part 2. -/
def rows2 : List FldRow :=
  [⟨HSET0_BITS 0, 16, 0x40⟩, ⟨HSET1_BITS 0, 16, 0x40⟩, ⟨HSET2_BITS 0, 16, 0x40⟩, ⟨HSET3_BITS 0, 16, 0x40⟩, ⟨HSET4_BITS 0, 16, 0x40⟩, ⟨HSET5_BITS 0, 16, 0x40⟩, ⟨HSET6_BITS 0, 16, 0x40⟩]
/-- Every writable, hardware-written or constant field of the page. -/
def rows : List FldRow := rows0 ++ rows1 ++ rows2
end PgDSP

namespace PgPRT
/-- DSP_QUOTA.TASKS (R190). -/
def DSP_QUOTA_TASKS : Fld := ⟨0x100, 48, 32, .rw, .quiesce, 0⟩
/-- DSP_QUOTA.QUEUE_COUNT (R190). -/
def DSP_QUOTA_QUEUE_COUNT : Fld := ⟨0x100, 28, 16, .rw, .quiesce, 0⟩
/-- DSP_QUOTA.QUEUE_BASE (R190). -/
def DSP_QUOTA_QUEUE_BASE : Fld := ⟨0x100, 11, 0, .rw, .quiesce, 0⟩
/-- DSP_EVT.EVT_COUNT (R190). -/
def DSP_EVT_EVT_COUNT : Fld := ⟨0x108, 46, 32, .rw, .quiesce, 0⟩
/-- DSP_EVT.EVT_BASE (R190). -/
def DSP_EVT_EVT_BASE : Fld := ⟨0x108, 13, 0, .rw, .quiesce, 0⟩
/-- TIER_QUOTA.T3_LIMIT (R250). -/
def TIER_QUOTA_T3_LIMIT : Fld := ⟨0x110, 50, 32, .rw, .quiesce, 0⟩
/-- TIER_QUOTA.T2_LIMIT (R250). -/
def TIER_QUOTA_T2_LIMIT : Fld := ⟨0x110, 18, 0, .rw, .quiesce, 0⟩
/-- WAY_QUOTA.T1_LIMIT (R250). -/
def WAY_QUOTA_T1_LIMIT : Fld := ⟨0x118, 13, 8, .rw, .quiesce, 0⟩
/-- WAY_QUOTA.T0_LIMIT (R250). -/
def WAY_QUOTA_T0_LIMIT : Fld := ⟨0x118, 5, 0, .rw, .quiesce, 0⟩
/-- T2_WIN.T2_LEN (R313). -/
def T2_WIN_T2_LEN : Fld := ⟨0x120, 50, 32, .rw, .quiesce, 0⟩
/-- T2_WIN.T2_BASE (R313). -/
def T2_WIN_T2_BASE : Fld := ⟨0x120, 17, 0, .rw, .quiesce, 0⟩
/-- ATU_QUOTA.L2_WAYS (R313). -/
def ATU_QUOTA_L2_WAYS : Fld := ⟨0x128, 23, 16, .rw, .quiesce, 255⟩
/-- ATU_QUOTA.CTX_LIMIT (R313). -/
def ATU_QUOTA_CTX_LIMIT : Fld := ⟨0x128, 12, 0, .rw, .quiesce, 0⟩
/-- JOB.VALID (R442). -/
def JOB_VALID : Fld := ⟨0x130, 63, 63, .rw, .quiesce, 0⟩
/-- JOB.TAG (R442). -/
def JOB_TAG : Fld := ⟨0x130, 15, 0, .rw, .quiesce, 0⟩
/-- STRANDS.MASK (R570). -/
def STRANDS_MASK : Fld := ⟨0x140, 23, 0, .rw, .quiesce, 0⟩
/-- CTRL.RESET (R570). -/
def CTRL_RESET : Fld := ⟨0x148, 0, 0, .w1s, .plain, 0⟩
/-- ETH_QUOTA.QP_LIMIT (R533). -/
def ETH_QUOTA_QP_LIMIT : Fld := ⟨0x138, 30, 16, .rw, .quiesce, 0⟩
/-- ETH_QUOTA.MR_LIMIT (R533). -/
def ETH_QUOTA_MR_LIMIT : Fld := ⟨0x138, 14, 0, .rw, .quiesce, 0⟩
/-- Rows of the page, part 0. -/
def rows0 : List FldRow :=
  [⟨DSP_QUOTA_TASKS, 1, 0⟩, ⟨DSP_QUOTA_QUEUE_COUNT, 1, 0⟩, ⟨DSP_QUOTA_QUEUE_BASE, 1, 0⟩, ⟨DSP_EVT_EVT_COUNT, 1, 0⟩, ⟨DSP_EVT_EVT_BASE, 1, 0⟩, ⟨TIER_QUOTA_T3_LIMIT, 1, 0⟩, ⟨TIER_QUOTA_T2_LIMIT, 1, 0⟩, ⟨WAY_QUOTA_T1_LIMIT, 1, 0⟩, ⟨WAY_QUOTA_T0_LIMIT, 1, 0⟩, ⟨T2_WIN_T2_LEN, 1, 0⟩, ⟨T2_WIN_T2_BASE, 1, 0⟩, ⟨ATU_QUOTA_L2_WAYS, 1, 0⟩]
/-- Rows of the page, part 1. -/
def rows1 : List FldRow :=
  [⟨ATU_QUOTA_CTX_LIMIT, 1, 0⟩, ⟨JOB_VALID, 1, 0⟩, ⟨JOB_TAG, 1, 0⟩, ⟨STRANDS_MASK, 1, 0⟩, ⟨CTRL_RESET, 1, 0⟩, ⟨ETH_QUOTA_QP_LIMIT, 1, 0⟩, ⟨ETH_QUOTA_MR_LIMIT, 1, 0⟩]
/-- Every writable, hardware-written or constant field of the page. -/
def rows : List FldRow := rows0 ++ rows1
end PgPRT

namespace PgSKN
/-- WAY_OWNER.OWNER (R229). -/
def WAY_OWNER_OWNER : Fld := ⟨0x100, 63, 0, .rw, .staged, 0⟩
/-- WAY_USE.USE (R229). -/
def WAY_USE_USE : Fld := ⟨0x108, 31, 0, .rw, .staged, 0⟩
/-- HOME.GROUPS (R229). -/
def HOME_GROUPS : Fld := ⟨0x110, 63, 0, .rw, .live, 1229782938247303441⟩
/-- STATUS.TEST_BUSY (R229). -/
def STATUS_TEST_BUSY : Fld := ⟨0x118, 31, 31, .ro, .plain, 0⟩
/-- STATUS.WIPE_BUSY (R229). -/
def STATUS_WIPE_BUSY : Fld := ⟨0x118, 30, 30, .ro, .plain, 0⟩
/-- STATUS.DIRTY_LINES (R229). -/
def STATUS_DIRTY_LINES : Fld := ⟨0x118, 29, 17, .ro, .plain, 0⟩
/-- STATUS.BANK_FAIL (R229). -/
def STATUS_BANK_FAIL : Fld := ⟨0x118, 15, 0, .ro, .plain, 0⟩
/-- PERF_CACHE.HITS (R229). -/
def PERF_CACHE_HITS : Fld := ⟨0x120, 63, 32, .rc, .plain, 0⟩
/-- PERF_CACHE.MISSES (R229). -/
def PERF_CACHE_MISSES : Fld := ⟨0x120, 31, 0, .rc, .plain, 0⟩
/-- PERF_NARROW.SECTORS (R229). -/
def PERF_NARROW_SECTORS : Fld := ⟨0x128, 63, 32, .rc, .plain, 0⟩
/-- PERF_NARROW.ATOMICS (R229). -/
def PERF_NARROW_ATOMICS : Fld := ⟨0x128, 31, 0, .rc, .plain, 0⟩
/-- PERF_HOLD.BANK_CONFLICT (R229). -/
def PERF_HOLD_BANK_CONFLICT : Fld := ⟨0x130, 63, 32, .rc, .plain, 0⟩
/-- PERF_HOLD.GATHER_OOB (R229). -/
def PERF_HOLD_GATHER_OOB : Fld := ⟨0x130, 31, 0, .rc, .plain, 0⟩
/-- ENABLE of APERTURE i (R229). -/
def APERTURE_ENABLE (i : Nat) : Fld := ⟨0x138 + 0x8 * i, 63, 63, .rw, .live, 0⟩
/-- OP of APERTURE i (R229). -/
def APERTURE_OP (i : Nat) : Fld := ⟨0x138 + 0x8 * i, 59, 56, .rw, .live, 0⟩
/-- TYPE of APERTURE i (R229). -/
def APERTURE_TYPE (i : Nat) : Fld := ⟨0x138 + 0x8 * i, 55, 52, .rw, .live, 0⟩
/-- LINES of APERTURE i (R229). -/
def APERTURE_LINES (i : Nat) : Fld := ⟨0x138 + 0x8 * i, 28, 16, .rw, .live, 0⟩
/-- START_LINE of APERTURE i (R229). -/
def APERTURE_START_LINE (i : Nat) : Fld := ⟨0x138 + 0x8 * i, 11, 0, .rw, .live, 0⟩
/-- WIN of GATHER i (R229). -/
def GATHER_WIN (i : Nat) : Fld := ⟨0x1B8 + 0x8 * i, 63, 63, .rw, .live, 0⟩
/-- ENABLE of GATHER i (R229). -/
def GATHER_ENABLE (i : Nat) : Fld := ⟨0x1B8 + 0x8 * i, 62, 62, .rw, .live, 0⟩
/-- PART of GATHER i (R229). -/
def GATHER_PART (i : Nat) : Fld := ⟨0x1B8 + 0x8 * i, 55, 52, .rw, .live, 0⟩
/-- DESC of GATHER i (R229). -/
def GATHER_DESC (i : Nat) : Fld := ⟨0x1B8 + 0x8 * i, 47, 0, .rw, .live, 0⟩
/-- Rows of the page, part 0. -/
def rows0 : List FldRow :=
  [⟨WAY_OWNER_OWNER, 1, 0⟩, ⟨WAY_USE_USE, 1, 0⟩, ⟨HOME_GROUPS, 1, 0⟩, ⟨STATUS_TEST_BUSY, 1, 0⟩, ⟨STATUS_WIPE_BUSY, 1, 0⟩, ⟨STATUS_DIRTY_LINES, 1, 0⟩, ⟨STATUS_BANK_FAIL, 1, 0⟩, ⟨PERF_CACHE_HITS, 1, 0⟩, ⟨PERF_CACHE_MISSES, 1, 0⟩, ⟨PERF_NARROW_SECTORS, 1, 0⟩, ⟨PERF_NARROW_ATOMICS, 1, 0⟩, ⟨PERF_HOLD_BANK_CONFLICT, 1, 0⟩]
/-- Rows of the page, part 1. -/
def rows1 : List FldRow :=
  [⟨PERF_HOLD_GATHER_OOB, 1, 0⟩, ⟨APERTURE_ENABLE 0, 16, 0x8⟩, ⟨APERTURE_OP 0, 16, 0x8⟩, ⟨APERTURE_TYPE 0, 16, 0x8⟩, ⟨APERTURE_LINES 0, 16, 0x8⟩, ⟨APERTURE_START_LINE 0, 16, 0x8⟩, ⟨GATHER_WIN 0, 4, 0x8⟩, ⟨GATHER_ENABLE 0, 4, 0x8⟩, ⟨GATHER_PART 0, 4, 0x8⟩, ⟨GATHER_DESC 0, 4, 0x8⟩]
/-- Every writable, hardware-written or constant field of the page. -/
def rows : List FldRow := rows0 ++ rows1
end PgSKN

namespace PgHBM
/-- CAL.CAL_MS (R243). -/
def CAL_CAL_MS : Fld := ⟨0x100, 15, 0, .rw, .live, 128⟩
/-- THERM.HOT_C (R243). -/
def THERM_HOT_C : Fld := ⟨0x108, 15, 8, .rw, .live, 95⟩
/-- THERM.TEMP_C (R243). -/
def THERM_TEMP_C : Fld := ⟨0x108, 7, 0, .ro, .plain, 0⟩
/-- STATUS.REFRESH_2X (R243). -/
def STATUS_REFRESH_2X : Fld := ⟨0x110, 3, 3, .ro, .plain, 0⟩
/-- STATUS.SELF_REFRESH (R243). -/
def STATUS_SELF_REFRESH : Fld := ⟨0x110, 2, 2, .ro, .plain, 0⟩
/-- STATUS.TRAIN (R243). -/
def STATUS_TRAIN : Fld := ⟨0x110, 1, 0, .ro, .plain, 0⟩
/-- PERF.RD_KLINES (R243). -/
def PERF_RD_KLINES : Fld := ⟨0x118, 63, 32, .rc, .plain, 0⟩
/-- PERF.WR_KLINES (R243). -/
def PERF_WR_KLINES : Fld := ⟨0x118, 31, 0, .rc, .plain, 0⟩
/-- Rows of the page, part 0. -/
def rows0 : List FldRow :=
  [⟨CAL_CAL_MS, 1, 0⟩, ⟨THERM_HOT_C, 1, 0⟩, ⟨THERM_TEMP_C, 1, 0⟩, ⟨STATUS_REFRESH_2X, 1, 0⟩, ⟨STATUS_SELF_REFRESH, 1, 0⟩, ⟨STATUS_TRAIN, 1, 0⟩, ⟨PERF_RD_KLINES, 1, 0⟩, ⟨PERF_WR_KLINES, 1, 0⟩]
/-- Every writable, hardware-written or constant field of the page. -/
def rows : List FldRow := rows0
end PgHBM

namespace PgHCH
/-- CTRL.RETRAIN (R244). -/
def CTRL_RETRAIN : Fld := ⟨0x100, 0, 0, .w1s, .plain, 0⟩
/-- QSTAT.LINE_OCC (R244). -/
def QSTAT_LINE_OCC : Fld := ⟨0x108, 23, 16, .ro, .plain, 0⟩
/-- QSTAT.NARROW_OCC (R244). -/
def QSTAT_NARROW_OCC : Fld := ⟨0x108, 15, 8, .ro, .plain, 0⟩
/-- QSTAT.WRBUF_OCC (R244). -/
def QSTAT_WRBUF_OCC : Fld := ⟨0x108, 7, 0, .ro, .plain, 0⟩
/-- PERF_ROW.ROW_HITS (R244). -/
def PERF_ROW_ROW_HITS : Fld := ⟨0x110, 63, 32, .rc, .plain, 0⟩
/-- PERF_ROW.ROW_MISSES (R244). -/
def PERF_ROW_ROW_MISSES : Fld := ⟨0x110, 31, 0, .rc, .plain, 0⟩
/-- PERF_NARROW.SECTOR_RD (R244). -/
def PERF_NARROW_SECTOR_RD : Fld := ⟨0x118, 63, 32, .rc, .plain, 0⟩
/-- PERF_NARROW.SECTOR_WR (R244). -/
def PERF_NARROW_SECTOR_WR : Fld := ⟨0x118, 31, 0, .rc, .plain, 0⟩
/-- DROPPED.WRITES (R244). -/
def DROPPED_WRITES : Fld := ⟨0x120, 63, 32, .rc, .plain, 0⟩
/-- DROPPED.POISON_READS (R244). -/
def DROPPED_POISON_READS : Fld := ⟨0x120, 31, 0, .rc, .plain, 0⟩
/-- Rows of the page, part 0. -/
def rows0 : List FldRow :=
  [⟨CTRL_RETRAIN, 1, 0⟩, ⟨QSTAT_LINE_OCC, 1, 0⟩, ⟨QSTAT_NARROW_OCC, 1, 0⟩, ⟨QSTAT_WRBUF_OCC, 1, 0⟩, ⟨PERF_ROW_ROW_HITS, 1, 0⟩, ⟨PERF_ROW_ROW_MISSES, 1, 0⟩, ⟨PERF_NARROW_SECTOR_RD, 1, 0⟩, ⟨PERF_NARROW_SECTOR_WR, 1, 0⟩, ⟨DROPPED_WRITES, 1, 0⟩, ⟨DROPPED_POISON_READS, 1, 0⟩]
/-- Every writable, hardware-written or constant field of the page. -/
def rows : List FldRow := rows0
end PgHCH

namespace PgTIR
/-- GCMD.FIRST (R257). -/
def GCMD_FIRST : Fld := ⟨0x100, 63, 46, .rw, .plain, 0⟩
/-- GCMD.COUNT (R257). -/
def GCMD_COUNT : Fld := ⟨0x100, 45, 27, .rw, .plain, 0⟩
/-- GCMD.OP (R257). -/
def GCMD_OP : Fld := ⟨0x100, 26, 23, .wo, .plain, 0⟩
/-- GCMD.RESULT (R257). -/
def GCMD_RESULT : Fld := ⟨0x100, 22, 19, .ro, .plain, 0⟩
/-- GCMD.BUSY (R257). -/
def GCMD_BUSY : Fld := ⟨0x100, 18, 18, .ro, .plain, 0⟩
/-- GCMD.PEER (R257). -/
def GCMD_PEER : Fld := ⟨0x100, 17, 14, .rw, .plain, 0⟩
/-- GARG.ARG (R257). -/
def GARG_ARG : Fld := ⟨0x108, 63, 0, .rw, .live, 0⟩
/-- USE.T3_USED (R257). -/
def USE_T3_USED : Fld := ⟨0x110, 50, 32, .ro, .plain, 0⟩
/-- USE.T2_USED (R257). -/
def USE_T2_USED : Fld := ⟨0x110, 18, 0, .ro, .plain, 0⟩
/-- ENABLE of TR_CFG i (R257). -/
def TR_CFG_ENABLE (i : Nat) : Fld := ⟨0x120 + 0x20 * i, 63, 63, .rw, .staged, 0⟩
/-- LEN of TR_CFG i (R257). -/
def TR_CFG_LEN (i : Nat) : Fld := ⟨0x120 + 0x20 * i, 50, 32, .rw, .staged, 0⟩
/-- PASID of TR_CFG i (R257). -/
def TR_CFG_PASID (i : Nat) : Fld := ⟨0x120 + 0x20 * i, 19, 0, .rw, .staged, 0⟩
/-- BASE of TR_T3 i (R257). -/
def TR_T3_BASE (i : Nat) : Fld := ⟨0x128 + 0x20 * i, 63, 0, .rw, .staged, 0⟩
/-- EPOCH_US of TR_POLICY i (R257). -/
def TR_POLICY_EPOCH_US (i : Nat) : Fld := ⟨0x130 + 0x20 * i, 63, 48, .rw, .live, 1000⟩
/-- PROMOTE of TR_POLICY i (R257). -/
def TR_POLICY_PROMOTE (i : Nat) : Fld := ⟨0x130 + 0x20 * i, 47, 32, .rw, .live, 64⟩
/-- HYST of TR_POLICY i (R257). -/
def TR_POLICY_HYST (i : Nat) : Fld := ⟨0x130 + 0x20 * i, 31, 16, .rw, .live, 32⟩
/-- MAX_MOVES of TR_POLICY i (R257). -/
def TR_POLICY_MAX_MOVES (i : Nat) : Fld := ⟨0x130 + 0x20 * i, 15, 8, .rw, .live, 8⟩
/-- IN_T2 of TR_STAT i (R257). -/
def TR_STAT_IN_T2 (i : Nat) : Fld := ⟨0x138 + 0x20 * i, 63, 45, .ro, .plain, 0⟩
/-- POOL of TR_STAT i (R257). -/
def TR_STAT_POOL (i : Nat) : Fld := ⟨0x138 + 0x20 * i, 44, 26, .ro, .plain, 0⟩
/-- MOVES of TR_STAT i (R257). -/
def TR_STAT_MOVES (i : Nat) : Fld := ⟨0x138 + 0x20 * i, 25, 13, .rc, .plain, 0⟩
/-- FAILS of TR_STAT i (R257). -/
def TR_STAT_FAILS (i : Nat) : Fld := ⟨0x138 + 0x20 * i, 12, 0, .rc, .plain, 0⟩
/-- Rows of the page, part 0. -/
def rows0 : List FldRow :=
  [⟨GCMD_FIRST, 1, 0⟩, ⟨GCMD_COUNT, 1, 0⟩, ⟨GCMD_OP, 1, 0⟩, ⟨GCMD_RESULT, 1, 0⟩, ⟨GCMD_BUSY, 1, 0⟩, ⟨GCMD_PEER, 1, 0⟩, ⟨GARG_ARG, 1, 0⟩, ⟨USE_T3_USED, 1, 0⟩, ⟨USE_T2_USED, 1, 0⟩, ⟨TR_CFG_ENABLE 0, 8, 0x20⟩, ⟨TR_CFG_LEN 0, 8, 0x20⟩, ⟨TR_CFG_PASID 0, 8, 0x20⟩]
/-- Rows of the page, part 1. -/
def rows1 : List FldRow :=
  [⟨TR_T3_BASE 0, 8, 0x20⟩, ⟨TR_POLICY_EPOCH_US 0, 8, 0x20⟩, ⟨TR_POLICY_PROMOTE 0, 8, 0x20⟩, ⟨TR_POLICY_HYST 0, 8, 0x20⟩, ⟨TR_POLICY_MAX_MOVES 0, 8, 0x20⟩, ⟨TR_STAT_IN_T2 0, 8, 0x20⟩, ⟨TR_STAT_POOL 0, 8, 0x20⟩, ⟨TR_STAT_MOVES 0, 8, 0x20⟩, ⟨TR_STAT_FAILS 0, 8, 0x20⟩]
/-- Every writable, hardware-written or constant field of the page. -/
def rows : List FldRow := rows0 ++ rows1
end PgTIR

namespace PgITN
/-- CFG.MAX_INFLIGHT (R265). -/
def CFG_MAX_INFLIGHT : Fld := ⟨0x100, 3, 0, .rw, .live, 4⟩
/-- DESC.DESC (R265). -/
def DESC_DESC : Fld := ⟨0x108, 63, 0, .rw, .live, 0⟩
/-- STATE.NEXT (R265). -/
def STATE_NEXT : Fld := ⟨0x110, 59, 48, .ro, .plain, 0⟩
/-- STATE.MARK (R265). -/
def STATE_MARK : Fld := ⟨0x110, 47, 35, .ro, .plain, 0⟩
/-- STATE.INFLIGHT (R265). -/
def STATE_INFLIGHT : Fld := ⟨0x110, 31, 28, .ro, .plain, 0⟩
/-- STATE.STATE (R265). -/
def STATE_STATE : Fld := ⟨0x110, 2, 0, .ro, .plain, 0⟩
/-- MS_BASE.MS_BASE (R265). -/
def MS_BASE_MS_BASE : Fld := ⟨0x118, 47, 0, .ro, .plain, 0⟩
/-- PERF.STAGES_DONE (R265). -/
def PERF_STAGES_DONE : Fld := ⟨0x120, 63, 32, .rc, .plain, 0⟩
/-- PERF.STAGES_FAILED (R265). -/
def PERF_STAGES_FAILED : Fld := ⟨0x120, 31, 16, .rc, .plain, 0⟩
/-- PERF.LAST_FAIL (R265). -/
def PERF_LAST_FAIL : Fld := ⟨0x120, 15, 8, .ro, .plain, 0⟩
/-- Rows of the page, part 0. -/
def rows0 : List FldRow :=
  [⟨CFG_MAX_INFLIGHT, 1, 0⟩, ⟨DESC_DESC, 1, 0⟩, ⟨STATE_NEXT, 1, 0⟩, ⟨STATE_MARK, 1, 0⟩, ⟨STATE_INFLIGHT, 1, 0⟩, ⟨STATE_STATE, 1, 0⟩, ⟨MS_BASE_MS_BASE, 1, 0⟩, ⟨PERF_STAGES_DONE, 1, 0⟩, ⟨PERF_STAGES_FAILED, 1, 0⟩, ⟨PERF_LAST_FAIL, 1, 0⟩]
/-- Every writable, hardware-written or constant field of the page. -/
def rows : List FldRow := rows0
end PgITN

namespace PgSAF
/-- OVERFLOW of CE_HEAD i (R274). -/
def CE_HEAD_OVERFLOW (i : Nat) : Fld := ⟨0x700 + 0x8 * i, 63, 32, .rc, .plain, 0⟩
/-- HEAD of CE_HEAD i (R274). -/
def CE_HEAD_HEAD (i : Nat) : Fld := ⟨0x700 + 0x8 * i, 4, 0, .ro, .plain, 0⟩
/-- STATUS.FATAL_ACTIVE (R629). -/
def STATUS_FATAL_ACTIVE : Fld := ⟨0x100, 63, 63, .ro, .plain, 0⟩
/-- STATUS.FAULT_N (R629). -/
def STATUS_FAULT_N : Fld := ⟨0x100, 62, 62, .ro, .plain, 0⟩
/-- STATUS.FIRST_CLASS (R629). -/
def STATUS_FIRST_CLASS : Fld := ⟨0x100, 61, 57, .ro, .plain, 0⟩
/-- STATUS.FIRST_INST (R629). -/
def STATUS_FIRST_INST : Fld := ⟨0x100, 56, 45, .ro, .plain, 0⟩
/-- STATUS.FIRST_CAUSE (R629). -/
def STATUS_FIRST_CAUSE : Fld := ⟨0x100, 44, 37, .ro, .plain, 0⟩
/-- SEV_COUNT0.CORRECTED (R629). -/
def SEV_COUNT0_CORRECTED : Fld := ⟨0x108, 63, 32, .rc, .plain, 0⟩
/-- SEV_COUNT0.DEFERRED (R629). -/
def SEV_COUNT0_DEFERRED : Fld := ⟨0x108, 31, 0, .rc, .plain, 0⟩
/-- SEV_COUNT1.CONTAINED (R629). -/
def SEV_COUNT1_CONTAINED : Fld := ⟨0x110, 63, 32, .rc, .plain, 0⟩
/-- SEV_COUNT1.FATAL (R629). -/
def SEV_COUNT1_FATAL : Fld := ⟨0x110, 31, 16, .rc, .plain, 0⟩
/-- FAULT_CFG.RELEASE (R629). -/
def FAULT_CFG_RELEASE : Fld := ⟨0x118, 7, 7, .w1s, .plain, 0⟩
/-- FAULT_CFG.RING_CE (R629). -/
def FAULT_CFG_RING_CE : Fld := ⟨0x118, 3, 3, .rw, .live, 0⟩
/-- FAULT_CFG.ON_SECURITY (R629). -/
def FAULT_CFG_ON_SECURITY : Fld := ⟨0x118, 2, 2, .rw, .live, 0⟩
/-- FAULT_CFG.ON_LASTING (R629). -/
def FAULT_CFG_ON_LASTING : Fld := ⟨0x118, 1, 1, .rw, .live, 0⟩
/-- FAULT_CFG.ON_DEFERRED (R629). -/
def FAULT_CFG_ON_DEFERRED : Fld := ⟨0x118, 0, 0, .rw, .live, 0⟩
/-- LATENT.FAILS (R629). -/
def LATENT_FAILS : Fld := ⟨0x120, 63, 48, .rc, .plain, 0⟩
/-- LATENT.LAST_PASS_MS (R629). -/
def LATENT_LAST_PASS_MS : Fld := ⟨0x120, 31, 16, .ro, .plain, 0⟩
/-- LATENT.PERIOD_MS (R629). -/
def LATENT_PERIOD_MS : Fld := ⟨0x120, 13, 0, .rw, .live, 10000⟩
/-- MON_CFG.WARN_C (R629). -/
def MON_CFG_WARN_C : Fld := ⟨0x128, 7, 0, .rw, .live, 100⟩
/-- MON_STATUS.VDD_CORE_MV (R629). -/
def MON_STATUS_VDD_CORE_MV : Fld := ⟨0x130, 63, 48, .ro, .plain, 0⟩
/-- MON_STATUS.HOT_SENSOR (R629). -/
def MON_STATUS_HOT_SENSOR : Fld := ⟨0x130, 39, 32, .ro, .plain, 0⟩
/-- MON_STATUS.TJ_MAX_C (R629). -/
def MON_STATUS_TJ_MAX_C : Fld := ⟨0x130, 7, 0, .ro, .plain, 0⟩
/-- BASE of RING_BASE i (R629). -/
def RING_BASE_BASE (i : Nat) : Fld := ⟨0x200 + 0x20 * i, 63, 0, .rw, .live, 0⟩
/-- EN of RING_CFG i (R629). -/
def RING_CFG_EN (i : Nat) : Fld := ⟨0x208 + 0x20 * i, 63, 63, .rw, .live, 0⟩
/-- LOG2_SIZE of RING_CFG i (R629). -/
def RING_CFG_LOG2_SIZE (i : Nat) : Fld := ⟨0x208 + 0x20 * i, 55, 51, .rw, .live, 0⟩
/-- VECTOR of RING_CFG i (R629). -/
def RING_CFG_VECTOR (i : Nat) : Fld := ⟨0x208 + 0x20 * i, 30, 20, .rw, .live, 0⟩
/-- PASID of RING_CFG i (R629). -/
def RING_CFG_PASID (i : Nat) : Fld := ⟨0x208 + 0x20 * i, 19, 0, .rw, .live, 0⟩
/-- LOST of RING_HEAD i (R629). -/
def RING_HEAD_LOST (i : Nat) : Fld := ⟨0x210 + 0x20 * i, 63, 32, .rc, .plain, 0⟩
/-- HEAD of RING_HEAD i (R629). -/
def RING_HEAD_HEAD (i : Nat) : Fld := ⟨0x210 + 0x20 * i, 31, 0, .ro, .plain, 0⟩
/-- TAIL of RING_TAIL i (R629). -/
def RING_TAIL_TAIL (i : Nat) : Fld := ⟨0x218 + 0x20 * i, 31, 0, .rw, .live, 0⟩
/-- OUTCOME of CE_ENTRY0 i (R275). -/
def CE_ENTRY0_OUTCOME (i : Nat) : Fld := ⟨0x800 + 0x8 * i, 63, 62, .ro, .plain, 0⟩
/-- PART of CE_ENTRY0 i (R275). -/
def CE_ENTRY0_PART (i : Nat) : Fld := ⟨0x800 + 0x8 * i, 61, 57, .ro, .plain, 0⟩
/-- SYMBOL of CE_ENTRY0 i (R275). -/
def CE_ENTRY0_SYMBOL (i : Nat) : Fld := ⟨0x800 + 0x8 * i, 56, 52, .ro, .plain, 0⟩
/-- SOURCE of CE_ENTRY0 i (R275). -/
def CE_ENTRY0_SOURCE (i : Nat) : Fld := ⟨0x800 + 0x8 * i, 51, 49, .ro, .plain, 0⟩
/-- VALID of CE_ENTRY0 i (R275). -/
def CE_ENTRY0_VALID (i : Nat) : Fld := ⟨0x800 + 0x8 * i, 48, 48, .ro, .plain, 0⟩
/-- REPEAT of CE_ENTRY0 i (R275). -/
def CE_ENTRY0_REPEAT (i : Nat) : Fld := ⟨0x800 + 0x8 * i, 47, 34, .ro, .plain, 0⟩
/-- LOC of CE_ENTRY0 i (R275). -/
def CE_ENTRY0_LOC (i : Nat) : Fld := ⟨0x800 + 0x8 * i, 33, 0, .ro, .plain, 0⟩
/-- OUTCOME of CE_ENTRY1 i (R275). -/
def CE_ENTRY1_OUTCOME (i : Nat) : Fld := ⟨0x900 + 0x8 * i, 63, 62, .ro, .plain, 0⟩
/-- PART of CE_ENTRY1 i (R275). -/
def CE_ENTRY1_PART (i : Nat) : Fld := ⟨0x900 + 0x8 * i, 61, 57, .ro, .plain, 0⟩
/-- SYMBOL of CE_ENTRY1 i (R275). -/
def CE_ENTRY1_SYMBOL (i : Nat) : Fld := ⟨0x900 + 0x8 * i, 56, 52, .ro, .plain, 0⟩
/-- SOURCE of CE_ENTRY1 i (R275). -/
def CE_ENTRY1_SOURCE (i : Nat) : Fld := ⟨0x900 + 0x8 * i, 51, 49, .ro, .plain, 0⟩
/-- VALID of CE_ENTRY1 i (R275). -/
def CE_ENTRY1_VALID (i : Nat) : Fld := ⟨0x900 + 0x8 * i, 48, 48, .ro, .plain, 0⟩
/-- REPEAT of CE_ENTRY1 i (R275). -/
def CE_ENTRY1_REPEAT (i : Nat) : Fld := ⟨0x900 + 0x8 * i, 47, 34, .ro, .plain, 0⟩
/-- LOC of CE_ENTRY1 i (R275). -/
def CE_ENTRY1_LOC (i : Nat) : Fld := ⟨0x900 + 0x8 * i, 33, 0, .ro, .plain, 0⟩
/-- OUTCOME of CE_ENTRY2 i (R275). -/
def CE_ENTRY2_OUTCOME (i : Nat) : Fld := ⟨0xA00 + 0x8 * i, 63, 62, .ro, .plain, 0⟩
/-- PART of CE_ENTRY2 i (R275). -/
def CE_ENTRY2_PART (i : Nat) : Fld := ⟨0xA00 + 0x8 * i, 61, 57, .ro, .plain, 0⟩
/-- SYMBOL of CE_ENTRY2 i (R275). -/
def CE_ENTRY2_SYMBOL (i : Nat) : Fld := ⟨0xA00 + 0x8 * i, 56, 52, .ro, .plain, 0⟩
/-- SOURCE of CE_ENTRY2 i (R275). -/
def CE_ENTRY2_SOURCE (i : Nat) : Fld := ⟨0xA00 + 0x8 * i, 51, 49, .ro, .plain, 0⟩
/-- VALID of CE_ENTRY2 i (R275). -/
def CE_ENTRY2_VALID (i : Nat) : Fld := ⟨0xA00 + 0x8 * i, 48, 48, .ro, .plain, 0⟩
/-- REPEAT of CE_ENTRY2 i (R275). -/
def CE_ENTRY2_REPEAT (i : Nat) : Fld := ⟨0xA00 + 0x8 * i, 47, 34, .ro, .plain, 0⟩
/-- LOC of CE_ENTRY2 i (R275). -/
def CE_ENTRY2_LOC (i : Nat) : Fld := ⟨0xA00 + 0x8 * i, 33, 0, .ro, .plain, 0⟩
/-- OUTCOME of CE_ENTRY3 i (R275). -/
def CE_ENTRY3_OUTCOME (i : Nat) : Fld := ⟨0xB00 + 0x8 * i, 63, 62, .ro, .plain, 0⟩
/-- PART of CE_ENTRY3 i (R275). -/
def CE_ENTRY3_PART (i : Nat) : Fld := ⟨0xB00 + 0x8 * i, 61, 57, .ro, .plain, 0⟩
/-- SYMBOL of CE_ENTRY3 i (R275). -/
def CE_ENTRY3_SYMBOL (i : Nat) : Fld := ⟨0xB00 + 0x8 * i, 56, 52, .ro, .plain, 0⟩
/-- SOURCE of CE_ENTRY3 i (R275). -/
def CE_ENTRY3_SOURCE (i : Nat) : Fld := ⟨0xB00 + 0x8 * i, 51, 49, .ro, .plain, 0⟩
/-- VALID of CE_ENTRY3 i (R275). -/
def CE_ENTRY3_VALID (i : Nat) : Fld := ⟨0xB00 + 0x8 * i, 48, 48, .ro, .plain, 0⟩
/-- REPEAT of CE_ENTRY3 i (R275). -/
def CE_ENTRY3_REPEAT (i : Nat) : Fld := ⟨0xB00 + 0x8 * i, 47, 34, .ro, .plain, 0⟩
/-- LOC of CE_ENTRY3 i (R275). -/
def CE_ENTRY3_LOC (i : Nat) : Fld := ⟨0xB00 + 0x8 * i, 33, 0, .ro, .plain, 0⟩
/-- Rows of the page, part 0. -/
def rows0 : List FldRow :=
  [⟨CE_HEAD_OVERFLOW 0, 4, 0x8⟩, ⟨CE_HEAD_HEAD 0, 4, 0x8⟩, ⟨STATUS_FATAL_ACTIVE, 1, 0⟩, ⟨STATUS_FAULT_N, 1, 0⟩, ⟨STATUS_FIRST_CLASS, 1, 0⟩, ⟨STATUS_FIRST_INST, 1, 0⟩, ⟨STATUS_FIRST_CAUSE, 1, 0⟩, ⟨SEV_COUNT0_CORRECTED, 1, 0⟩, ⟨SEV_COUNT0_DEFERRED, 1, 0⟩, ⟨SEV_COUNT1_CONTAINED, 1, 0⟩, ⟨SEV_COUNT1_FATAL, 1, 0⟩, ⟨FAULT_CFG_RELEASE, 1, 0⟩]
/-- Rows of the page, part 1. -/
def rows1 : List FldRow :=
  [⟨FAULT_CFG_RING_CE, 1, 0⟩, ⟨FAULT_CFG_ON_SECURITY, 1, 0⟩, ⟨FAULT_CFG_ON_LASTING, 1, 0⟩, ⟨FAULT_CFG_ON_DEFERRED, 1, 0⟩, ⟨LATENT_FAILS, 1, 0⟩, ⟨LATENT_LAST_PASS_MS, 1, 0⟩, ⟨LATENT_PERIOD_MS, 1, 0⟩, ⟨MON_CFG_WARN_C, 1, 0⟩, ⟨MON_STATUS_VDD_CORE_MV, 1, 0⟩, ⟨MON_STATUS_HOT_SENSOR, 1, 0⟩, ⟨MON_STATUS_TJ_MAX_C, 1, 0⟩, ⟨RING_BASE_BASE 0, 17, 0x20⟩]
/-- Rows of the page, part 2. -/
def rows2 : List FldRow :=
  [⟨RING_CFG_EN 0, 17, 0x20⟩, ⟨RING_CFG_LOG2_SIZE 0, 17, 0x20⟩, ⟨RING_CFG_VECTOR 0, 17, 0x20⟩, ⟨RING_CFG_PASID 0, 17, 0x20⟩, ⟨RING_HEAD_LOST 0, 17, 0x20⟩, ⟨RING_HEAD_HEAD 0, 17, 0x20⟩, ⟨RING_TAIL_TAIL 0, 17, 0x20⟩, ⟨CE_ENTRY0_OUTCOME 0, 32, 0x8⟩, ⟨CE_ENTRY0_PART 0, 32, 0x8⟩, ⟨CE_ENTRY0_SYMBOL 0, 32, 0x8⟩, ⟨CE_ENTRY0_SOURCE 0, 32, 0x8⟩, ⟨CE_ENTRY0_VALID 0, 32, 0x8⟩]
/-- Rows of the page, part 3. -/
def rows3 : List FldRow :=
  [⟨CE_ENTRY0_REPEAT 0, 32, 0x8⟩, ⟨CE_ENTRY0_LOC 0, 32, 0x8⟩, ⟨CE_ENTRY1_OUTCOME 0, 32, 0x8⟩, ⟨CE_ENTRY1_PART 0, 32, 0x8⟩, ⟨CE_ENTRY1_SYMBOL 0, 32, 0x8⟩, ⟨CE_ENTRY1_SOURCE 0, 32, 0x8⟩, ⟨CE_ENTRY1_VALID 0, 32, 0x8⟩, ⟨CE_ENTRY1_REPEAT 0, 32, 0x8⟩, ⟨CE_ENTRY1_LOC 0, 32, 0x8⟩, ⟨CE_ENTRY2_OUTCOME 0, 32, 0x8⟩, ⟨CE_ENTRY2_PART 0, 32, 0x8⟩, ⟨CE_ENTRY2_SYMBOL 0, 32, 0x8⟩]
/-- Rows of the page, part 4. -/
def rows4 : List FldRow :=
  [⟨CE_ENTRY2_SOURCE 0, 32, 0x8⟩, ⟨CE_ENTRY2_VALID 0, 32, 0x8⟩, ⟨CE_ENTRY2_REPEAT 0, 32, 0x8⟩, ⟨CE_ENTRY2_LOC 0, 32, 0x8⟩, ⟨CE_ENTRY3_OUTCOME 0, 32, 0x8⟩, ⟨CE_ENTRY3_PART 0, 32, 0x8⟩, ⟨CE_ENTRY3_SYMBOL 0, 32, 0x8⟩, ⟨CE_ENTRY3_SOURCE 0, 32, 0x8⟩, ⟨CE_ENTRY3_VALID 0, 32, 0x8⟩, ⟨CE_ENTRY3_REPEAT 0, 32, 0x8⟩, ⟨CE_ENTRY3_LOC 0, 32, 0x8⟩]
/-- Every writable, hardware-written or constant field of the page. -/
def rows : List FldRow := rows0 ++ rows1 ++ rows2 ++ rows3 ++ rows4
end PgSAF

namespace PgSCR
/-- CFG.ZERO_GBPS (R296). -/
def CFG_ZERO_GBPS : Fld := ⟨0x100, 39, 32, .rw, .live, 128⟩
/-- CFG.RATE_MIBPS (R296). -/
def CFG_RATE_MIBPS : Fld := ⟨0x100, 10, 0, .rw, .live, 64⟩
/-- STATUS.PASSES (R296). -/
def STATUS_PASSES : Fld := ⟨0x108, 63, 32, .ro, .plain, 0⟩
/-- STATUS.ZERO_BUSY (R296). -/
def STATUS_ZERO_BUSY : Fld := ⟨0x108, 31, 31, .ro, .plain, 0⟩
/-- STATUS.POS (R296). -/
def STATUS_POS : Fld := ⟨0x108, 15, 0, .ro, .plain, 0⟩
/-- REKEY.PENDING (R296). -/
def REKEY_PENDING : Fld := ⟨0x110, 15, 0, .ro, .plain, 0⟩
/-- PERF.FOUND_CE (R296). -/
def PERF_FOUND_CE : Fld := ⟨0x118, 63, 48, .rc, .plain, 0⟩
/-- PERF.FOUND_UE (R296). -/
def PERF_FOUND_UE : Fld := ⟨0x118, 47, 32, .rc, .plain, 0⟩
/-- PERF.REENCRYPTED (R296). -/
def PERF_REENCRYPTED : Fld := ⟨0x118, 31, 0, .rc, .plain, 0⟩
/-- PERF2.REPAIRED (R296). -/
def PERF2_REPAIRED : Fld := ⟨0x120, 63, 32, .rc, .plain, 0⟩
/-- PERF2.ZEROING (R296). -/
def PERF2_ZEROING : Fld := ⟨0x120, 16, 0, .ro, .plain, 0⟩
/-- Rows of the page, part 0. -/
def rows0 : List FldRow :=
  [⟨CFG_ZERO_GBPS, 1, 0⟩, ⟨CFG_RATE_MIBPS, 1, 0⟩, ⟨STATUS_PASSES, 1, 0⟩, ⟨STATUS_ZERO_BUSY, 1, 0⟩, ⟨STATUS_POS, 1, 0⟩, ⟨REKEY_PENDING, 1, 0⟩, ⟨PERF_FOUND_CE, 1, 0⟩, ⟨PERF_FOUND_UE, 1, 0⟩, ⟨PERF_REENCRYPTED, 1, 0⟩, ⟨PERF2_REPAIRED, 1, 0⟩, ⟨PERF2_ZEROING, 1, 0⟩]
/-- Every writable, hardware-written or constant field of the page. -/
def rows : List FldRow := rows0
end PgSCR

namespace PgKEY
/-- PENDING of MEMKEY i (R297). -/
def MEMKEY_PENDING (i : Nat) : Fld := ⟨0x100 + 0x8 * i, 63, 63, .ro, .plain, 0⟩
/-- EXHAUSTED of MEMKEY i (R297). -/
def MEMKEY_EXHAUSTED (i : Nat) : Fld := ⟨0x100 + 0x8 * i, 62, 62, .ro, .plain, 0⟩
/-- GEN of MEMKEY i (R297). -/
def MEMKEY_GEN (i : Nat) : Fld := ⟨0x100 + 0x8 * i, 31, 0, .ro, .plain, 0⟩
/-- Rows of the page, part 0. -/
def rows0 : List FldRow :=
  [⟨MEMKEY_PENDING 0, 16, 0x8⟩, ⟨MEMKEY_EXHAUSTED 0, 16, 0x8⟩, ⟨MEMKEY_GEN 0, 16, 0x8⟩]
/-- Every writable, hardware-written or constant field of the page. -/
def rows : List FldRow := rows0
end PgKEY

namespace PgATU
/-- CFG.PRI_TIMEOUT_MS (R328). -/
def CFG_PRI_TIMEOUT_MS : Fld := ⟨0x100, 47, 32, .rw, .live, 1000⟩
/-- CTX_CMD.BUSY (R328). -/
def CTX_CMD_BUSY : Fld := ⟨0x108, 31, 31, .ro, .plain, 0⟩
/-- CTX_CMD.RESULT (R328). -/
def CTX_CMD_RESULT : Fld := ⟨0x108, 23, 20, .ro, .plain, 0⟩
/-- CTX_CMD.OP (R328). -/
def CTX_CMD_OP : Fld := ⟨0x108, 19, 16, .wo, .plain, 0⟩
/-- CTX_CMD.SLOT (R328). -/
def CTX_CMD_SLOT : Fld := ⟨0x108, 11, 0, .rw, .plain, 0⟩
/-- CTX_ARG0.ROOT (R328). -/
def CTX_ARG0_ROOT : Fld := ⟨0x110, 47, 0, .rw, .live, 0⟩
/-- CTX_ARG1.VALID (R328). -/
def CTX_ARG1_VALID : Fld := ⟨0x118, 63, 63, .ro, .plain, 0⟩
/-- CTX_ARG1.KIND (R328). -/
def CTX_ARG1_KIND : Fld := ⟨0x118, 62, 62, .rw, .live, 0⟩
/-- CTX_ARG1.REPORT (R328). -/
def CTX_ARG1_REPORT : Fld := ⟨0x118, 61, 61, .rw, .live, 0⟩
/-- CTX_ARG1.PART (R328). -/
def CTX_ARG1_PART : Fld := ⟨0x118, 51, 48, .rw, .live, 0⟩
/-- CTX_ARG1.PASID (R328). -/
def CTX_ARG1_PASID : Fld := ⟨0x118, 19, 0, .rw, .live, 0⟩
/-- INV_CMD.BUSY (R328). -/
def INV_CMD_BUSY : Fld := ⟨0x120, 31, 31, .ro, .plain, 0⟩
/-- INV_CMD.RESULT (R328). -/
def INV_CMD_RESULT : Fld := ⟨0x120, 23, 20, .ro, .plain, 0⟩
/-- INV_CMD.OP (R328). -/
def INV_CMD_OP : Fld := ⟨0x120, 17, 16, .wo, .plain, 0⟩
/-- INV_CMD.SLOT (R328). -/
def INV_CMD_SLOT : Fld := ⟨0x120, 11, 0, .rw, .plain, 0⟩
/-- INV_ARG.COUNT (R328). -/
def INV_ARG_COUNT : Fld := ⟨0x128, 45, 27, .rw, .live, 0⟩
/-- INV_ARG.VPN2 (R328). -/
def INV_ARG_VPN2 : Fld := ⟨0x128, 26, 0, .rw, .live, 0⟩
/-- FQ_REPORT.VALID (R328). -/
def FQ_REPORT_VALID : Fld := ⟨0x130, 63, 63, .ro, .plain, 0⟩
/-- FQ_REPORT.W (R328). -/
def FQ_REPORT_W : Fld := ⟨0x130, 62, 62, .ro, .plain, 0⟩
/-- FQ_REPORT.R (R328). -/
def FQ_REPORT_R : Fld := ⟨0x130, 61, 61, .ro, .plain, 0⟩
/-- FQ_REPORT.REASON (R328). -/
def FQ_REPORT_REASON : Fld := ⟨0x130, 60, 57, .ro, .plain, 0⟩
/-- FQ_REPORT.ENTRY (R328). -/
def FQ_REPORT_ENTRY : Fld := ⟨0x130, 56, 47, .ro, .plain, 0⟩
/-- FQ_REPORT.SLOT (R328). -/
def FQ_REPORT_SLOT : Fld := ⟨0x130, 46, 35, .ro, .plain, 0⟩
/-- FQ_REPORT.VPN2 (R328). -/
def FQ_REPORT_VPN2 : Fld := ⟨0x130, 26, 0, .ro, .plain, 0⟩
/-- FQ_CMD.OP (R328). -/
def FQ_CMD_OP : Fld := ⟨0x138, 17, 16, .wo, .plain, 0⟩
/-- FQ_CMD.ENTRY (R328). -/
def FQ_CMD_ENTRY : Fld := ⟨0x138, 9, 0, .wo, .plain, 0⟩
/-- STATUS.PRI_STOPPED (R328). -/
def STATUS_PRI_STOPPED : Fld := ⟨0x140, 63, 63, .ro, .plain, 0⟩
/-- STATUS.CTX_ACTIVE (R328). -/
def STATUS_CTX_ACTIVE : Fld := ⟨0x140, 60, 48, .ro, .plain, 0⟩
/-- STATUS.FQ_USED (R328). -/
def STATUS_FQ_USED : Fld := ⟨0x140, 42, 32, .ro, .plain, 0⟩
/-- STATUS.PRG_OUT (R328). -/
def STATUS_PRG_OUT : Fld := ⟨0x140, 25, 16, .ro, .plain, 0⟩
/-- STATUS.INV_OUT (R328). -/
def STATUS_INV_OUT : Fld := ⟨0x140, 5, 0, .ro, .plain, 0⟩
/-- PERF0.L2_HITS (R328). -/
def PERF0_L2_HITS : Fld := ⟨0x148, 63, 32, .rc, .plain, 0⟩
/-- PERF0.L2_MISSES (R328). -/
def PERF0_L2_MISSES : Fld := ⟨0x148, 31, 0, .rc, .plain, 0⟩
/-- PERF1.WALKS (R328). -/
def PERF1_WALKS : Fld := ⟨0x150, 63, 32, .rc, .plain, 0⟩
/-- PERF1.ATS_REQ (R328). -/
def PERF1_ATS_REQ : Fld := ⟨0x150, 31, 0, .rc, .plain, 0⟩
/-- PERF2.PRG_SENT (R328). -/
def PERF2_PRG_SENT : Fld := ⟨0x158, 63, 32, .rc, .plain, 0⟩
/-- PERF2.REFUSED (R328). -/
def PERF2_REFUSED : Fld := ⟨0x158, 31, 0, .rc, .plain, 0⟩
/-- Rows of the page, part 0. -/
def rows0 : List FldRow :=
  [⟨CFG_PRI_TIMEOUT_MS, 1, 0⟩, ⟨CTX_CMD_BUSY, 1, 0⟩, ⟨CTX_CMD_RESULT, 1, 0⟩, ⟨CTX_CMD_OP, 1, 0⟩, ⟨CTX_CMD_SLOT, 1, 0⟩, ⟨CTX_ARG0_ROOT, 1, 0⟩, ⟨CTX_ARG1_VALID, 1, 0⟩, ⟨CTX_ARG1_KIND, 1, 0⟩, ⟨CTX_ARG1_REPORT, 1, 0⟩, ⟨CTX_ARG1_PART, 1, 0⟩, ⟨CTX_ARG1_PASID, 1, 0⟩, ⟨INV_CMD_BUSY, 1, 0⟩]
/-- Rows of the page, part 1. -/
def rows1 : List FldRow :=
  [⟨INV_CMD_RESULT, 1, 0⟩, ⟨INV_CMD_OP, 1, 0⟩, ⟨INV_CMD_SLOT, 1, 0⟩, ⟨INV_ARG_COUNT, 1, 0⟩, ⟨INV_ARG_VPN2, 1, 0⟩, ⟨FQ_REPORT_VALID, 1, 0⟩, ⟨FQ_REPORT_W, 1, 0⟩, ⟨FQ_REPORT_R, 1, 0⟩, ⟨FQ_REPORT_REASON, 1, 0⟩, ⟨FQ_REPORT_ENTRY, 1, 0⟩, ⟨FQ_REPORT_SLOT, 1, 0⟩, ⟨FQ_REPORT_VPN2, 1, 0⟩]
/-- Rows of the page, part 2. -/
def rows2 : List FldRow :=
  [⟨FQ_CMD_OP, 1, 0⟩, ⟨FQ_CMD_ENTRY, 1, 0⟩, ⟨STATUS_PRI_STOPPED, 1, 0⟩, ⟨STATUS_CTX_ACTIVE, 1, 0⟩, ⟨STATUS_FQ_USED, 1, 0⟩, ⟨STATUS_PRG_OUT, 1, 0⟩, ⟨STATUS_INV_OUT, 1, 0⟩, ⟨PERF0_L2_HITS, 1, 0⟩, ⟨PERF0_L2_MISSES, 1, 0⟩, ⟨PERF1_WALKS, 1, 0⟩, ⟨PERF1_ATS_REQ, 1, 0⟩, ⟨PERF2_PRG_SENT, 1, 0⟩]
/-- Rows of the page, part 3. -/
def rows3 : List FldRow :=
  [⟨PERF2_REFUSED, 1, 0⟩]
/-- Every writable, hardware-written or constant field of the page. -/
def rows : List FldRow := rows0 ++ rows1 ++ rows2 ++ rows3
end PgATU

namespace PgATC
/-- PERF.L1_HITS (R329). -/
def PERF_L1_HITS : Fld := ⟨0x100, 63, 32, .rc, .plain, 0⟩
/-- PERF.L1_MISSES (R329). -/
def PERF_L1_MISSES : Fld := ⟨0x100, 31, 0, .rc, .plain, 0⟩
/-- FAULT.REFUSED (R329). -/
def FAULT_REFUSED : Fld := ⟨0x108, 63, 32, .rc, .plain, 0⟩
/-- FAULT.LAST_REASON (R329). -/
def FAULT_LAST_REASON : Fld := ⟨0x108, 31, 28, .ro, .plain, 0⟩
/-- FAULT.NOSLOT (R329). -/
def FAULT_NOSLOT : Fld := ⟨0x108, 27, 27, .ro, .plain, 0⟩
/-- FAULT.LAST_SLOT (R329). -/
def FAULT_LAST_SLOT : Fld := ⟨0x108, 11, 0, .ro, .plain, 0⟩
/-- LAST_VA.VA (R329). -/
def LAST_VA_VA : Fld := ⟨0x110, 47, 0, .ro, .plain, 0⟩
/-- CTRL.FLUSH (R329). -/
def CTRL_FLUSH : Fld := ⟨0x118, 0, 0, .w1s, .plain, 0⟩
/-- Rows of the page, part 0. -/
def rows0 : List FldRow :=
  [⟨PERF_L1_HITS, 1, 0⟩, ⟨PERF_L1_MISSES, 1, 0⟩, ⟨FAULT_REFUSED, 1, 0⟩, ⟨FAULT_LAST_REASON, 1, 0⟩, ⟨FAULT_NOSLOT, 1, 0⟩, ⟨FAULT_LAST_SLOT, 1, 0⟩, ⟨LAST_VA_VA, 1, 0⟩, ⟨CTRL_FLUSH, 1, 0⟩]
/-- Every writable, hardware-written or constant field of the page. -/
def rows : List FldRow := rows0
end PgATC

namespace PgMSH
/-- STATUS.LINK_DOWN (R350). -/
def STATUS_LINK_DOWN : Fld := ⟨0x100, 3, 0, .ro, .plain, 0⟩
/-- ROUTE_Q.NEXT (R350). -/
def ROUTE_Q_NEXT : Fld := ⟨0x108, 26, 24, .ro, .plain, 0⟩
/-- ROUTE_Q.DIST (R350). -/
def ROUTE_Q_DIST : Fld := ⟨0x108, 15, 10, .ro, .plain, 0⟩
/-- ROUTE_Q.DEST (R350). -/
def ROUTE_Q_DEST : Fld := ⟨0x108, 8, 0, .rw, .live, 0⟩
/-- PERF0.DATA0_KFLITS (R350). -/
def PERF0_DATA0_KFLITS : Fld := ⟨0x110, 63, 32, .rc, .plain, 0⟩
/-- PERF0.DATA1_KFLITS (R350). -/
def PERF0_DATA1_KFLITS : Fld := ⟨0x110, 31, 0, .rc, .plain, 0⟩
/-- PERF1.REQ_KMSG (R350). -/
def PERF1_REQ_KMSG : Fld := ⟨0x118, 63, 32, .rc, .plain, 0⟩
/-- PERF1.DETOUR_KFLITS (R350). -/
def PERF1_DETOUR_KFLITS : Fld := ⟨0x118, 31, 0, .rc, .plain, 0⟩
/-- Rows of the page, part 0. -/
def rows0 : List FldRow :=
  [⟨STATUS_LINK_DOWN, 1, 0⟩, ⟨ROUTE_Q_NEXT, 1, 0⟩, ⟨ROUTE_Q_DIST, 1, 0⟩, ⟨ROUTE_Q_DEST, 1, 0⟩, ⟨PERF0_DATA0_KFLITS, 1, 0⟩, ⟨PERF0_DATA1_KFLITS, 1, 0⟩, ⟨PERF1_REQ_KMSG, 1, 0⟩, ⟨PERF1_DETOUR_KFLITS, 1, 0⟩]
/-- Every writable, hardware-written or constant field of the page. -/
def rows : List FldRow := rows0
end PgMSH

namespace PgTOL
/-- CLASS_CFG.BORROW (R351). -/
def CLASS_CFG_BORROW : Fld := ⟨0x100, 2, 2, .rw, .live, 0⟩
/-- CLASS_CFG.DEFAULT_CLASS (R351). -/
def CLASS_CFG_DEFAULT_CLASS : Fld := ⟨0x100, 1, 0, .rw, .live, 0⟩
/-- RATE of BUCKET i (R351). -/
def BUCKET_RATE (i : Nat) : Fld := ⟨0x108 + 0x8 * i, 63, 48, .rw, .live, 65535⟩
/-- BURST of BUCKET i (R351). -/
def BUCKET_BURST (i : Nat) : Fld := ⟨0x108 + 0x8 * i, 47, 32, .rw, .live, 256⟩
/-- TOKENS of BUCKET i (R351). -/
def BUCKET_TOKENS (i : Nat) : Fld := ⟨0x108 + 0x8 * i, 31, 0, .ro, .plain, 256⟩
/-- LAT_CFG.TARGET_NS (R351). -/
def LAT_CFG_TARGET_NS : Fld := ⟨0x128, 55, 32, .rw, .live, 0⟩
/-- LAT_CFG.TIMEOUT_US (R351). -/
def LAT_CFG_TIMEOUT_US : Fld := ⟨0x128, 16, 0, .rw, .live, 10000⟩
/-- URG_CFG.T3 (R351). -/
def URG_CFG_T3 : Fld := ⟨0x130, 23, 16, .rw, .live, 75⟩
/-- URG_CFG.T2 (R351). -/
def URG_CFG_T2 : Fld := ⟨0x130, 15, 8, .rw, .live, 50⟩
/-- URG_CFG.T1 (R351). -/
def URG_CFG_T1 : Fld := ⟨0x130, 7, 0, .rw, .live, 25⟩
/-- STATUS.STEP (R351). -/
def STATUS_STEP : Fld := ⟨0x138, 57, 56, .ro, .plain, 0⟩
/-- STATUS.URGENCY (R351). -/
def STATUS_URGENCY : Fld := ⟨0x138, 55, 54, .ro, .plain, 0⟩
/-- STATUS.LAT_NOW_NS (R351). -/
def STATUS_LAT_NOW_NS : Fld := ⟨0x138, 47, 24, .ro, .plain, 0⟩
/-- STATUS.OUTSTANDING (R351). -/
def STATUS_OUTSTANDING : Fld := ⟨0x138, 15, 0, .ro, .plain, 0⟩
/-- PERF.MISSED (R351). -/
def PERF_MISSED : Fld := ⟨0x140, 63, 32, .rc, .plain, 0⟩
/-- PERF.TIMEOUTS (R351). -/
def PERF_TIMEOUTS : Fld := ⟨0x140, 31, 0, .rc, .plain, 0⟩
/-- PERF2.HELD_US (R351). -/
def PERF2_HELD_US : Fld := ⟨0x148, 63, 32, .rc, .plain, 0⟩
/-- PERF2.LATE (R351). -/
def PERF2_LATE : Fld := ⟨0x148, 31, 0, .rc, .plain, 0⟩
/-- Rows of the page, part 0. -/
def rows0 : List FldRow :=
  [⟨CLASS_CFG_BORROW, 1, 0⟩, ⟨CLASS_CFG_DEFAULT_CLASS, 1, 0⟩, ⟨BUCKET_RATE 0, 4, 0x8⟩, ⟨BUCKET_BURST 0, 4, 0x8⟩, ⟨BUCKET_TOKENS 0, 4, 0x8⟩, ⟨LAT_CFG_TARGET_NS, 1, 0⟩, ⟨LAT_CFG_TIMEOUT_US, 1, 0⟩, ⟨URG_CFG_T3, 1, 0⟩, ⟨URG_CFG_T2, 1, 0⟩, ⟨URG_CFG_T1, 1, 0⟩, ⟨STATUS_STEP, 1, 0⟩, ⟨STATUS_URGENCY, 1, 0⟩]
/-- Rows of the page, part 1. -/
def rows1 : List FldRow :=
  [⟨STATUS_LAT_NOW_NS, 1, 0⟩, ⟨STATUS_OUTSTANDING, 1, 0⟩, ⟨PERF_MISSED, 1, 0⟩, ⟨PERF_TIMEOUTS, 1, 0⟩, ⟨PERF2_HELD_US, 1, 0⟩, ⟨PERF2_LATE, 1, 0⟩]
/-- Every writable, hardware-written or constant field of the page. -/
def rows : List FldRow := rows0 ++ rows1
end PgTOL

namespace PgTSH
/-- HBM_SHARE.WRBUF_CAP (R352). -/
def HBM_SHARE_WRBUF_CAP : Fld := ⟨0x100, 55, 48, .rw, .live, 64⟩
/-- HBM_SHARE.HEADROOM (R352). -/
def HBM_SHARE_HEADROOM : Fld := ⟨0x100, 47, 40, .rw, .live, 4⟩
/-- HBM_SHARE.NARROW_CAP (R352). -/
def HBM_SHARE_NARROW_CAP : Fld := ⟨0x100, 31, 24, .rw, .live, 32⟩
/-- HBM_SHARE.NARROW_RSV (R352). -/
def HBM_SHARE_NARROW_RSV : Fld := ⟨0x100, 23, 16, .rw, .live, 0⟩
/-- HBM_SHARE.LINE_CAP (R352). -/
def HBM_SHARE_LINE_CAP : Fld := ⟨0x100, 15, 8, .rw, .live, 48⟩
/-- HBM_SHARE.LINE_RSV (R352). -/
def HBM_SHARE_LINE_RSV : Fld := ⟨0x100, 7, 0, .rw, .live, 0⟩
/-- DSP_SHARE.RT_LEVELS (R352). -/
def DSP_SHARE_RT_LEVELS : Fld := ⟨0x108, 11, 8, .rw, .live, 0⟩
/-- DSP_SHARE.WEIGHT (R352). -/
def DSP_SHARE_WEIGHT : Fld := ⟨0x108, 7, 0, .rw, .live, 16⟩
/-- CACHE_SHARE.STREAM_WAYS (R352). -/
def CACHE_SHARE_STREAM_WAYS : Fld := ⟨0x110, 4, 0, .rw, .live, 16⟩
/-- PERF.HBM_RETRIES (R352). -/
def PERF_HBM_RETRIES : Fld := ⟨0x118, 63, 32, .rc, .plain, 0⟩
/-- PERF.DISPATCHES (R352). -/
def PERF_DISPATCHES : Fld := ⟨0x118, 31, 0, .rc, .plain, 0⟩
/-- Rows of the page, part 0. -/
def rows0 : List FldRow :=
  [⟨HBM_SHARE_WRBUF_CAP, 1, 0⟩, ⟨HBM_SHARE_HEADROOM, 1, 0⟩, ⟨HBM_SHARE_NARROW_CAP, 1, 0⟩, ⟨HBM_SHARE_NARROW_RSV, 1, 0⟩, ⟨HBM_SHARE_LINE_CAP, 1, 0⟩, ⟨HBM_SHARE_LINE_RSV, 1, 0⟩, ⟨DSP_SHARE_RT_LEVELS, 1, 0⟩, ⟨DSP_SHARE_WEIGHT, 1, 0⟩, ⟨CACHE_SHARE_STREAM_WAYS, 1, 0⟩, ⟨PERF_HBM_RETRIES, 1, 0⟩, ⟨PERF_DISPATCHES, 1, 0⟩]
/-- Every writable, hardware-written or constant field of the page. -/
def rows : List FldRow := rows0
end PgTSH

namespace PgCOH
/-- CFG.F_ENABLE (R380). -/
def CFG_F_ENABLE : Fld := ⟨0x100, 48, 48, .rw, .live, 1⟩
/-- CFG.SNP_TIMEOUT_US (R380). -/
def CFG_SNP_TIMEOUT_US : Fld := ⟨0x100, 16, 0, .rw, .live, 1000⟩
/-- STATUS.ENTRIES (R380). -/
def STATUS_ENTRIES : Fld := ⟨0x108, 47, 32, .ro, .plain, 0⟩
/-- STATUS.OPEN (R380). -/
def STATUS_OPEN : Fld := ⟨0x108, 23, 16, .ro, .plain, 0⟩
/-- STATUS.LOST_WAYS (R380). -/
def STATUS_LOST_WAYS : Fld := ⟨0x108, 6, 0, .ro, .plain, 0⟩
/-- PERF0.SNOOPS (R380). -/
def PERF0_SNOOPS : Fld := ⟨0x110, 63, 32, .rc, .plain, 0⟩
/-- PERF0.FORWARDS (R380). -/
def PERF0_FORWARDS : Fld := ⟨0x110, 31, 0, .rc, .plain, 0⟩
/-- PERF1.BACK_INV (R380). -/
def PERF1_BACK_INV : Fld := ⟨0x118, 63, 32, .rc, .plain, 0⟩
/-- PERF1.CROSSED_WB (R380). -/
def PERF1_CROSSED_WB : Fld := ⟨0x118, 31, 0, .rc, .plain, 0⟩
/-- PERF2.HINT_PLACED (R380). -/
def PERF2_HINT_PLACED : Fld := ⟨0x120, 63, 32, .rc, .plain, 0⟩
/-- PERF2.HINT_DECLINED (R380). -/
def PERF2_HINT_DECLINED : Fld := ⟨0x120, 31, 0, .rc, .plain, 0⟩
/-- Rows of the page, part 0. -/
def rows0 : List FldRow :=
  [⟨CFG_F_ENABLE, 1, 0⟩, ⟨CFG_SNP_TIMEOUT_US, 1, 0⟩, ⟨STATUS_ENTRIES, 1, 0⟩, ⟨STATUS_OPEN, 1, 0⟩, ⟨STATUS_LOST_WAYS, 1, 0⟩, ⟨PERF0_SNOOPS, 1, 0⟩, ⟨PERF0_FORWARDS, 1, 0⟩, ⟨PERF1_BACK_INV, 1, 0⟩, ⟨PERF1_CROSSED_WB, 1, 0⟩, ⟨PERF2_HINT_PLACED, 1, 0⟩, ⟨PERF2_HINT_DECLINED, 1, 0⟩]
/-- Every writable, hardware-written or constant field of the page. -/
def rows : List FldRow := rows0
end PgCOH

namespace PgSIT
/-- CFG.PROTO_PREF (R414). -/
def CFG_PROTO_PREF : Fld := ⟨0x100, 9, 8, .rw, .quiesce, 0⟩
/-- CFG.MIN_CHANNELS (R414). -/
def CFG_MIN_CHANNELS : Fld := ⟨0x100, 6, 0, .rw, .quiesce, 32⟩
/-- TASK_CFG.TASK_TIMEOUT_MS (R414). -/
def TASK_CFG_TASK_TIMEOUT_MS : Fld := ⟨0x108, 15, 0, .rw, .live, 0⟩
/-- LINK.PEER_UCIE (R414). -/
def LINK_PEER_UCIE : Fld := ⟨0x110, 47, 40, .ro, .plain, 0⟩
/-- LINK.LIVE_CHANNELS (R414). -/
def LINK_LIVE_CHANNELS : Fld := ⟨0x110, 38, 32, .ro, .plain, 0⟩
/-- LINK.PROTO (R414). -/
def LINK_PROTO : Fld := ⟨0x110, 7, 6, .ro, .plain, 0⟩
/-- LINK.STATE (R414). -/
def LINK_STATE : Fld := ⟨0x110, 3, 0, .ro, .plain, 0⟩
/-- DISPUTE.TRANSIENT (R414). -/
def DISPUTE_TRANSIENT : Fld := ⟨0x118, 63, 48, .rc, .plain, 0⟩
/-- DISPUTE.LASTING (R414). -/
def DISPUTE_LASTING : Fld := ⟨0x118, 47, 32, .rc, .plain, 0⟩
/-- DISPUTE.PEER_DIGEST (R414). -/
def DISPUTE_PEER_DIGEST : Fld := ⟨0x118, 31, 0, .ro, .plain, 0⟩
/-- PERF.REPLAYS (R414). -/
def PERF_REPLAYS : Fld := ⟨0x120, 63, 32, .rc, .plain, 0⟩
/-- PERF.RETRAINS (R414). -/
def PERF_RETRAINS : Fld := ⟨0x120, 31, 0, .rc, .plain, 0⟩
/-- FUNCS.ENABLED (R414). -/
def FUNCS_ENABLED : Fld := ⟨0x128, 15, 8, .ro, .plain, 0⟩
/-- FUNCS.PRESENT (R414). -/
def FUNCS_PRESENT : Fld := ⟨0x128, 7, 0, .ro, .plain, 0⟩
/-- CFG_CMD.BUSY (R414). -/
def CFG_CMD_BUSY : Fld := ⟨0x130, 31, 31, .ro, .plain, 0⟩
/-- CFG_CMD.RESULT (R414). -/
def CFG_CMD_RESULT : Fld := ⟨0x130, 19, 16, .ro, .plain, 0⟩
/-- CFG_CMD.OP (R414). -/
def CFG_CMD_OP : Fld := ⟨0x130, 15, 14, .wo, .plain, 0⟩
/-- CFG_CMD.FUNC (R414). -/
def CFG_CMD_FUNC : Fld := ⟨0x130, 11, 9, .rw, .plain, 0⟩
/-- CFG_CMD.INDEX (R414). -/
def CFG_CMD_INDEX : Fld := ⟨0x130, 8, 0, .rw, .plain, 0⟩
/-- CFG_DATA.DATA (R414). -/
def CFG_DATA_DATA : Fld := ⟨0x138, 63, 0, .rw, .live, 0⟩
/-- THERM.THROTTLE_US (R414). -/
def THERM_THROTTLE_US : Fld := ⟨0x140, 63, 48, .rc, .plain, 0⟩
/-- THERM.EST_DW (R414). -/
def THERM_EST_DW : Fld := ⟨0x140, 31, 16, .ro, .plain, 0⟩
/-- THERM.CAP_DW (R414). -/
def THERM_CAP_DW : Fld := ⟨0x140, 15, 0, .rw, .live, 594⟩
/-- TEST.DONE (R414). -/
def TEST_DONE : Fld := ⟨0x148, 63, 63, .ro, .plain, 0⟩
/-- TEST.PASS (R414). -/
def TEST_PASS : Fld := ⟨0x148, 62, 62, .ro, .plain, 0⟩
/-- TEST.ERR_LANES (R414). -/
def TEST_ERR_LANES : Fld := ⟨0x148, 31, 16, .ro, .plain, 0⟩
/-- TEST.DURATION_MS (R414). -/
def TEST_DURATION_MS : Fld := ⟨0x148, 15, 8, .rw, .plain, 10⟩
/-- TEST.MODE (R414). -/
def TEST_MODE : Fld := ⟨0x148, 1, 1, .rw, .plain, 0⟩
/-- TEST.START (R414). -/
def TEST_START : Fld := ⟨0x148, 0, 0, .w1s, .plain, 0⟩
/-- TEST_FAIL.CHANNELS (R414). -/
def TEST_FAIL_CHANNELS : Fld := ⟨0x150, 63, 0, .ro, .plain, 0⟩
/-- ENABLE of FUNC i (R414). -/
def FUNC_ENABLE (i : Nat) : Fld := ⟨0x158 + 0x8 * i, 63, 63, .rw, .staged, 0⟩
/-- PART of FUNC i (R414). -/
def FUNC_PART (i : Nat) : Fld := ⟨0x158 + 0x8 * i, 59, 56, .rw, .staged, 0⟩
/-- CLASS_MIN of FUNC i (R414). -/
def FUNC_CLASS_MIN (i : Nat) : Fld := ⟨0x158 + 0x8 * i, 41, 40, .rw, .staged, 2⟩
/-- TASK_CREDITS of FUNC i (R414). -/
def FUNC_TASK_CREDITS (i : Nat) : Fld := ⟨0x158 + 0x8 * i, 39, 32, .ro, .plain, 0⟩
/-- EN0 of INTMAP i (R414). -/
def INTMAP_EN0 (i : Nat) : Fld := ⟨0x198 + 0x8 * i, 15, 15, .rw, .live, 0⟩
/-- VECTOR0 of INTMAP i (R414). -/
def INTMAP_VECTOR0 (i : Nat) : Fld := ⟨0x198 + 0x8 * i, 10, 0, .rw, .live, 0⟩
/-- EN1 of INTMAP i (R414). -/
def INTMAP_EN1 (i : Nat) : Fld := ⟨0x198 + 0x8 * i, 31, 31, .rw, .live, 0⟩
/-- VECTOR1 of INTMAP i (R414). -/
def INTMAP_VECTOR1 (i : Nat) : Fld := ⟨0x198 + 0x8 * i, 26, 16, .rw, .live, 0⟩
/-- EN2 of INTMAP i (R414). -/
def INTMAP_EN2 (i : Nat) : Fld := ⟨0x198 + 0x8 * i, 47, 47, .rw, .live, 0⟩
/-- VECTOR2 of INTMAP i (R414). -/
def INTMAP_VECTOR2 (i : Nat) : Fld := ⟨0x198 + 0x8 * i, 42, 32, .rw, .live, 0⟩
/-- EN3 of INTMAP i (R414). -/
def INTMAP_EN3 (i : Nat) : Fld := ⟨0x198 + 0x8 * i, 63, 63, .rw, .live, 0⟩
/-- VECTOR3 of INTMAP i (R414). -/
def INTMAP_VECTOR3 (i : Nat) : Fld := ⟨0x198 + 0x8 * i, 58, 48, .rw, .live, 0⟩
/-- RETRAIN.CHANNELS (R414). -/
def RETRAIN_CHANNELS : Fld := ⟨0x218, 63, 0, .w1s, .plain, 0⟩
/-- Rows of the page, part 0. -/
def rows0 : List FldRow :=
  [⟨CFG_PROTO_PREF, 1, 0⟩, ⟨CFG_MIN_CHANNELS, 1, 0⟩, ⟨TASK_CFG_TASK_TIMEOUT_MS, 1, 0⟩, ⟨LINK_PEER_UCIE, 1, 0⟩, ⟨LINK_LIVE_CHANNELS, 1, 0⟩, ⟨LINK_PROTO, 1, 0⟩, ⟨LINK_STATE, 1, 0⟩, ⟨DISPUTE_TRANSIENT, 1, 0⟩, ⟨DISPUTE_LASTING, 1, 0⟩, ⟨DISPUTE_PEER_DIGEST, 1, 0⟩, ⟨PERF_REPLAYS, 1, 0⟩, ⟨PERF_RETRAINS, 1, 0⟩]
/-- Rows of the page, part 1. -/
def rows1 : List FldRow :=
  [⟨FUNCS_ENABLED, 1, 0⟩, ⟨FUNCS_PRESENT, 1, 0⟩, ⟨CFG_CMD_BUSY, 1, 0⟩, ⟨CFG_CMD_RESULT, 1, 0⟩, ⟨CFG_CMD_OP, 1, 0⟩, ⟨CFG_CMD_FUNC, 1, 0⟩, ⟨CFG_CMD_INDEX, 1, 0⟩, ⟨CFG_DATA_DATA, 1, 0⟩, ⟨THERM_THROTTLE_US, 1, 0⟩, ⟨THERM_EST_DW, 1, 0⟩, ⟨THERM_CAP_DW, 1, 0⟩, ⟨TEST_DONE, 1, 0⟩]
/-- Rows of the page, part 2. -/
def rows2 : List FldRow :=
  [⟨TEST_PASS, 1, 0⟩, ⟨TEST_ERR_LANES, 1, 0⟩, ⟨TEST_DURATION_MS, 1, 0⟩, ⟨TEST_MODE, 1, 0⟩, ⟨TEST_START, 1, 0⟩, ⟨TEST_FAIL_CHANNELS, 1, 0⟩, ⟨FUNC_ENABLE 0, 8, 0x8⟩, ⟨FUNC_PART 0, 8, 0x8⟩, ⟨FUNC_CLASS_MIN 0, 8, 0x8⟩, ⟨FUNC_TASK_CREDITS 0, 8, 0x8⟩, ⟨INTMAP_EN0 0, 16, 0x8⟩, ⟨INTMAP_VECTOR0 0, 16, 0x8⟩]
/-- Rows of the page, part 3. -/
def rows3 : List FldRow :=
  [⟨INTMAP_EN1 0, 16, 0x8⟩, ⟨INTMAP_VECTOR1 0, 16, 0x8⟩, ⟨INTMAP_EN2 0, 16, 0x8⟩, ⟨INTMAP_VECTOR2 0, 16, 0x8⟩, ⟨INTMAP_EN3 0, 16, 0x8⟩, ⟨INTMAP_VECTOR3 0, 16, 0x8⟩, ⟨RETRAIN_CHANNELS, 1, 0⟩]
/-- Every writable, hardware-written or constant field of the page. -/
def rows : List FldRow := rows0 ++ rows1 ++ rows2 ++ rows3
end PgSIT

namespace PgFAB
/-- CFG.MODE (R452). -/
def CFG_MODE : Fld := ⟨0x100, 16, 16, .rw, .quiesce, 0⟩
/-- CFG.PORT_SEL (R452). -/
def CFG_PORT_SEL : Fld := ⟨0x100, 3, 0, .rw, .quiesce, 0⟩
/-- TOPO.WRAP (R452). -/
def TOPO_WRAP : Fld := ⟨0x108, 58, 56, .rw, .quiesce, 7⟩
/-- TOPO.SZ_Z (R452). -/
def TOPO_SZ_Z : Fld := ⟨0x108, 55, 50, .rw, .quiesce, 0⟩
/-- TOPO.SZ_Y (R452). -/
def TOPO_SZ_Y : Fld := ⟨0x108, 49, 44, .rw, .quiesce, 0⟩
/-- TOPO.SZ_X (R452). -/
def TOPO_SZ_X : Fld := ⟨0x108, 43, 38, .rw, .quiesce, 0⟩
/-- TOPO.NODE (R452). -/
def TOPO_NODE : Fld := ⟨0x108, 17, 0, .rw, .quiesce, 0⟩
/-- DIR_PORTS0.MY (R452). -/
def DIR_PORTS0_MY : Fld := ⟨0x110, 59, 48, .rw, .quiesce, 0⟩
/-- DIR_PORTS0.PY (R452). -/
def DIR_PORTS0_PY : Fld := ⟨0x110, 43, 32, .rw, .quiesce, 0⟩
/-- DIR_PORTS0.MX (R452). -/
def DIR_PORTS0_MX : Fld := ⟨0x110, 27, 16, .rw, .quiesce, 0⟩
/-- DIR_PORTS0.PX (R452). -/
def DIR_PORTS0_PX : Fld := ⟨0x110, 11, 0, .rw, .quiesce, 0⟩
/-- DIR_PORTS1.MZ (R452). -/
def DIR_PORTS1_MZ : Fld := ⟨0x118, 27, 16, .rw, .quiesce, 0⟩
/-- DIR_PORTS1.PZ (R452). -/
def DIR_PORTS1_PZ : Fld := ⟨0x118, 11, 0, .rw, .quiesce, 0⟩
/-- E2E.RETRIES (R452). -/
def E2E_RETRIES : Fld := ⟨0x120, 35, 32, .rw, .live, 3⟩
/-- E2E.TIMEOUT_US (R452). -/
def E2E_TIMEOUT_US : Fld := ⟨0x120, 15, 0, .rw, .live, 100⟩
/-- SPARE_CFG.CE_LIMIT (R452). -/
def SPARE_CFG_CE_LIMIT : Fld := ⟨0x128, 31, 0, .rw, .live, 1048576⟩
/-- STRAND.SECURE0 (R452). -/
def STRAND_SECURE0 : Fld := ⟨0x130, 4, 4, .ro, .plain, 0⟩
/-- STRAND.STATE0 (R452). -/
def STRAND_STATE0 : Fld := ⟨0x130, 3, 0, .ro, .plain, 0⟩
/-- STRAND.SECURE1 (R452). -/
def STRAND_SECURE1 : Fld := ⟨0x130, 20, 20, .ro, .plain, 0⟩
/-- STRAND.STATE1 (R452). -/
def STRAND_STATE1 : Fld := ⟨0x130, 19, 16, .ro, .plain, 0⟩
/-- STRAND.SECURE2 (R452). -/
def STRAND_SECURE2 : Fld := ⟨0x130, 36, 36, .ro, .plain, 0⟩
/-- STRAND.STATE2 (R452). -/
def STRAND_STATE2 : Fld := ⟨0x130, 35, 32, .ro, .plain, 0⟩
/-- STRAND.SECURE3 (R452). -/
def STRAND_SECURE3 : Fld := ⟨0x130, 52, 52, .ro, .plain, 0⟩
/-- STRAND.STATE3 (R452). -/
def STRAND_STATE3 : Fld := ⟨0x130, 51, 48, .ro, .plain, 0⟩
/-- ID of PEER i (R452). -/
def PEER_ID (i : Nat) : Fld := ⟨0x138 + 0x8 * i, 63, 32, .ro, .plain, 0⟩
/-- STRAND of PEER i (R452). -/
def PEER_STRAND (i : Nat) : Fld := ⟨0x138 + 0x8 * i, 22, 21, .ro, .plain, 0⟩
/-- ATT of PEER i (R452). -/
def PEER_ATT (i : Nat) : Fld := ⟨0x138 + 0x8 * i, 20, 18, .ro, .plain, 0⟩
/-- NODE of PEER i (R452). -/
def PEER_NODE (i : Nat) : Fld := ⟨0x138 + 0x8 * i, 17, 0, .ro, .plain, 0⟩
/-- TEST.DONE (R452). -/
def TEST_DONE : Fld := ⟨0x158, 63, 63, .ro, .plain, 0⟩
/-- TEST.PASS (R452). -/
def TEST_PASS : Fld := ⟨0x158, 62, 62, .ro, .plain, 0⟩
/-- TEST.DURATION_MS (R452). -/
def TEST_DURATION_MS : Fld := ⟨0x158, 23, 16, .rw, .plain, 10⟩
/-- TEST.STRANDS (R452). -/
def TEST_STRANDS : Fld := ⟨0x158, 11, 8, .rw, .plain, 0⟩
/-- TEST.MODE (R452). -/
def TEST_MODE : Fld := ⟨0x158, 2, 1, .rw, .plain, 0⟩
/-- TEST.START (R452). -/
def TEST_START : Fld := ⟨0x158, 0, 0, .w1s, .plain, 0⟩
/-- TEST_FAIL.LANES (R452). -/
def TEST_FAIL_LANES : Fld := ⟨0x160, 16, 0, .ro, .plain, 0⟩
/-- LANE_Q.CORR_1S (R452). -/
def LANE_Q_CORR_1S : Fld := ⟨0x168, 63, 32, .ro, .plain, 0⟩
/-- LANE_Q.UNCORR_1S (R452). -/
def LANE_Q_UNCORR_1S : Fld := ⟨0x168, 31, 16, .ro, .plain, 0⟩
/-- LANE_Q.LANE (R452). -/
def LANE_Q_LANE : Fld := ⟨0x168, 4, 0, .rw, .live, 0⟩
/-- PERF0.TX_KFRAMES (R452). -/
def PERF0_TX_KFRAMES : Fld := ⟨0x170, 63, 32, .rc, .plain, 0⟩
/-- PERF0.RX_KFRAMES (R452). -/
def PERF0_RX_KFRAMES : Fld := ⟨0x170, 31, 0, .rc, .plain, 0⟩
/-- PERF1.REPLAYS (R452). -/
def PERF1_REPLAYS : Fld := ⟨0x178, 63, 32, .rc, .plain, 0⟩
/-- PERF1.RETRAINS (R452). -/
def PERF1_RETRAINS : Fld := ⟨0x178, 31, 0, .rc, .plain, 0⟩
/-- PERF2.DROPPED (R452). -/
def PERF2_DROPPED : Fld := ⟨0x180, 63, 32, .rc, .plain, 0⟩
/-- PERF2.KEY_MISS (R452). -/
def PERF2_KEY_MISS : Fld := ⟨0x180, 31, 0, .rc, .plain, 0⟩
/-- SEC.TAG_FAIL (R452). -/
def SEC_TAG_FAIL : Fld := ⟨0x188, 63, 32, .rc, .plain, 0⟩
/-- SEC.KEYS_HI (R452). -/
def SEC_KEYS_HI : Fld := ⟨0x188, 31, 16, .ro, .plain, 0⟩
/-- SEC.KEYS_LO (R452). -/
def SEC_KEYS_LO : Fld := ⟨0x188, 15, 0, .ro, .plain, 0⟩
/-- ENGINE.ENGINE_ID (R452). -/
def ENGINE_ENGINE_ID : Fld := ⟨0x190, 63, 32, .ro, .plain, 0⟩
/-- ENGINE.LASER_ON (R452). -/
def ENGINE_LASER_ON : Fld := ⟨0x190, 17, 17, .ro, .plain, 0⟩
/-- ENGINE.READY (R452). -/
def ENGINE_READY : Fld := ⟨0x190, 16, 16, .ro, .plain, 0⟩
/-- ENGINE.TEMP_C (R452). -/
def ENGINE_TEMP_C : Fld := ⟨0x190, 7, 0, .ro, .plain, 0⟩
/-- Rows of the page, part 0. -/
def rows0 : List FldRow :=
  [⟨CFG_MODE, 1, 0⟩, ⟨CFG_PORT_SEL, 1, 0⟩, ⟨TOPO_WRAP, 1, 0⟩, ⟨TOPO_SZ_Z, 1, 0⟩, ⟨TOPO_SZ_Y, 1, 0⟩, ⟨TOPO_SZ_X, 1, 0⟩, ⟨TOPO_NODE, 1, 0⟩, ⟨DIR_PORTS0_MY, 1, 0⟩, ⟨DIR_PORTS0_PY, 1, 0⟩, ⟨DIR_PORTS0_MX, 1, 0⟩, ⟨DIR_PORTS0_PX, 1, 0⟩, ⟨DIR_PORTS1_MZ, 1, 0⟩]
/-- Rows of the page, part 1. -/
def rows1 : List FldRow :=
  [⟨DIR_PORTS1_PZ, 1, 0⟩, ⟨E2E_RETRIES, 1, 0⟩, ⟨E2E_TIMEOUT_US, 1, 0⟩, ⟨SPARE_CFG_CE_LIMIT, 1, 0⟩, ⟨STRAND_SECURE0, 1, 0⟩, ⟨STRAND_STATE0, 1, 0⟩, ⟨STRAND_SECURE1, 1, 0⟩, ⟨STRAND_STATE1, 1, 0⟩, ⟨STRAND_SECURE2, 1, 0⟩, ⟨STRAND_STATE2, 1, 0⟩, ⟨STRAND_SECURE3, 1, 0⟩, ⟨STRAND_STATE3, 1, 0⟩]
/-- Rows of the page, part 2. -/
def rows2 : List FldRow :=
  [⟨PEER_ID 0, 4, 0x8⟩, ⟨PEER_STRAND 0, 4, 0x8⟩, ⟨PEER_ATT 0, 4, 0x8⟩, ⟨PEER_NODE 0, 4, 0x8⟩, ⟨TEST_DONE, 1, 0⟩, ⟨TEST_PASS, 1, 0⟩, ⟨TEST_DURATION_MS, 1, 0⟩, ⟨TEST_STRANDS, 1, 0⟩, ⟨TEST_MODE, 1, 0⟩, ⟨TEST_START, 1, 0⟩, ⟨TEST_FAIL_LANES, 1, 0⟩, ⟨LANE_Q_CORR_1S, 1, 0⟩]
/-- Rows of the page, part 3. -/
def rows3 : List FldRow :=
  [⟨LANE_Q_UNCORR_1S, 1, 0⟩, ⟨LANE_Q_LANE, 1, 0⟩, ⟨PERF0_TX_KFRAMES, 1, 0⟩, ⟨PERF0_RX_KFRAMES, 1, 0⟩, ⟨PERF1_REPLAYS, 1, 0⟩, ⟨PERF1_RETRAINS, 1, 0⟩, ⟨PERF2_DROPPED, 1, 0⟩, ⟨PERF2_KEY_MISS, 1, 0⟩, ⟨SEC_TAG_FAIL, 1, 0⟩, ⟨SEC_KEYS_HI, 1, 0⟩, ⟨SEC_KEYS_LO, 1, 0⟩, ⟨ENGINE_ENGINE_ID, 1, 0⟩]
/-- Rows of the page, part 4. -/
def rows4 : List FldRow :=
  [⟨ENGINE_LASER_ON, 1, 0⟩, ⟨ENGINE_READY, 1, 0⟩, ⟨ENGINE_TEMP_C, 1, 0⟩]
/-- Every writable, hardware-written or constant field of the page. -/
def rows : List FldRow := rows0 ++ rows1 ++ rows2 ++ rows3 ++ rows4
end PgFAB

namespace PgMGT
/-- TIME_CFG.ROOT (R463). -/
def TIME_CFG_ROOT : Fld := ⟨0x300, 63, 63, .rw, .live, 0⟩
/-- TIME_CFG.STRETCH_LIMIT_MS (R463). -/
def TIME_CFG_STRETCH_LIMIT_MS : Fld := ⟨0x300, 47, 32, .rw, .live, 1000⟩
/-- TIME_CFG.HOLD_LEAD_TICKS (R463). -/
def TIME_CFG_HOLD_LEAD_TICKS : Fld := ⟨0x300, 31, 16, .rw, .live, 1500⟩
/-- TIME_CFG.PERIOD_TICKS (R463). -/
def TIME_CFG_PERIOD_TICKS : Fld := ⟨0x300, 15, 0, .rw, .live, 400⟩
/-- TIME_PARENT.PORTS (R463). -/
def TIME_PARENT_PORTS : Fld := ⟨0x308, 11, 0, .rw, .live, 4095⟩
/-- TIME_CMD.OP (R463). -/
def TIME_CMD_OP : Fld := ⟨0x310, 1, 0, .wo, .plain, 0⟩
/-- TIME_STATUS.LATE (R463). -/
def TIME_STATUS_LATE : Fld := ⟨0x318, 55, 40, .rc, .plain, 0⟩
/-- TIME_STATUS.PHASE_PS (R463). -/
def TIME_STATUS_PHASE_PS : Fld := ⟨0x318, 39, 24, .ro, .plain, 0⟩
/-- TIME_STATUS.DEPTH (R463). -/
def TIME_STATUS_DEPTH : Fld := ⟨0x318, 23, 16, .ro, .plain, 0⟩
/-- TIME_STATUS.PARENT (R463). -/
def TIME_STATUS_PARENT : Fld := ⟨0x318, 15, 12, .ro, .plain, 15⟩
/-- TIME_STATUS.STATE (R463). -/
def TIME_STATUS_STATE : Fld := ⟨0x318, 2, 0, .ro, .plain, 0⟩
/-- TIME_DELAY.DELAY_PS (R463). -/
def TIME_DELAY_DELAY_PS : Fld := ⟨0x320, 35, 4, .ro, .plain, 0⟩
/-- TIME_DELAY.PORT (R463). -/
def TIME_DELAY_PORT : Fld := ⟨0x320, 3, 0, .rw, .live, 0⟩
/-- IMG_CFG.PART (R487). -/
def IMG_CFG_PART : Fld := ⟨0x340, 63, 60, .rw, .live, 0⟩
/-- IMG_CFG.STAGING (R487). -/
def IMG_CFG_STAGING : Fld := ⟨0x340, 47, 0, .rw, .live, 0⟩
/-- IMG_CMD.OP (R487). -/
def IMG_CMD_OP : Fld := ⟨0x348, 17, 16, .wo, .plain, 0⟩
/-- IMG_CMD.IMAGE (R487). -/
def IMG_CMD_IMAGE : Fld := ⟨0x348, 15, 0, .rw, .plain, 0⟩
/-- IMG_STATUS.STATE (R487). -/
def IMG_STATUS_STATE : Fld := ⟨0x350, 63, 61, .ro, .plain, 0⟩
/-- IMG_STATUS.ROUND (R487). -/
def IMG_STATUS_ROUND : Fld := ⟨0x350, 60, 59, .ro, .plain, 0⟩
/-- IMG_STATUS.MISSING (R487). -/
def IMG_STATUS_MISSING : Fld := ⟨0x350, 29, 15, .ro, .plain, 0⟩
/-- IMG_STATUS.CHUNKS (R487). -/
def IMG_STATUS_CHUNKS : Fld := ⟨0x350, 14, 0, .ro, .plain, 0⟩
/-- NET_CFG.ENABLE (R563). -/
def NET_CFG_ENABLE : Fld := ⟨0x100, 48, 48, .rw, .live, 1⟩
/-- NET_CFG.MAC (R563). -/
def NET_CFG_MAC : Fld := ⟨0x100, 47, 0, .rw, .live, 0⟩
/-- I3C_CFG.SMBUS (R563). -/
def I3C_CFG_SMBUS : Fld := ⟨0x108, 8, 8, .rw, .live, 0⟩
/-- I3C_CFG.STATIC_ADDR (R563). -/
def I3C_CFG_STATIC_ADDR : Fld := ⟨0x108, 6, 0, .rw, .live, 0⟩
/-- SLEEP.MGMT_STATE (R590). -/
def SLEEP_MGMT_STATE : Fld := ⟨0x200, 7, 6, .ro, .plain, 0⟩
/-- SLEEP.CORE_STATE (R590). -/
def SLEEP_CORE_STATE : Fld := ⟨0x200, 5, 4, .ro, .plain, 0⟩
/-- SLEEP.MGMT_REQ (R590). -/
def SLEEP_MGMT_REQ : Fld := ⟨0x200, 3, 2, .rw, .live, 0⟩
/-- SLEEP.CORE_REQ (R590). -/
def SLEEP_CORE_REQ : Fld := ⟨0x200, 1, 0, .rw, .live, 0⟩
/-- WAKE_CFG.LVL_FALL (R590). -/
def WAKE_CFG_LVL_FALL : Fld := ⟨0x208, 24, 24, .rw, .live, 0⟩
/-- WAKE_CFG.LVL_THR (R590). -/
def WAKE_CFG_LVL_THR : Fld := ⟨0x208, 23, 16, .rw, .live, 50⟩
/-- WAKE_CFG.WAKE_N_EN (R590). -/
def WAKE_CFG_WAKE_N_EN : Fld := ⟨0x208, 11, 8, .rw, .live, 1⟩
/-- WAKE_CFG.EN_TIMER (R590). -/
def WAKE_CFG_EN_TIMER : Fld := ⟨0x208, 3, 3, .rw, .live, 0⟩
/-- WAKE_CFG.EN_PERST (R590). -/
def WAKE_CFG_EN_PERST : Fld := ⟨0x208, 2, 2, .rw, .live, 1⟩
/-- WAKE_CFG.EN_LVL (R590). -/
def WAKE_CFG_EN_LVL : Fld := ⟨0x208, 1, 1, .rw, .live, 0⟩
/-- WAKE_CFG.EN_I3C (R590). -/
def WAKE_CFG_EN_I3C : Fld := ⟨0x208, 0, 0, .ro, .plain, 1⟩
/-- WAKE_TIMER.MS (R590). -/
def WAKE_TIMER_MS : Fld := ⟨0x210, 31, 0, .rw, .live, 0⟩
/-- WAKE_STATUS.COUNT (R590). -/
def WAKE_STATUS_COUNT : Fld := ⟨0x218, 63, 32, .rc, .plain, 0⟩
/-- WAKE_STATUS.SOURCE (R590). -/
def WAKE_STATUS_SOURCE : Fld := ⟨0x218, 3, 0, .w1c, .plain, 0⟩
/-- RESET.WARM (R610). -/
def RESET_WARM : Fld := ⟨0x360, 0, 0, .w1s, .plain, 0⟩
/-- EVQ_STATUS.OVERFLOW (R630). -/
def EVQ_STATUS_OVERFLOW : Fld := ⟨0x380, 63, 32, .rc, .plain, 0⟩
/-- EVQ_STATUS.COUNT (R630). -/
def EVQ_STATUS_COUNT : Fld := ⟨0x380, 8, 0, .ro, .plain, 0⟩
/-- WORD of EVQ_ENTRY i (R630). -/
def EVQ_ENTRY_WORD (i : Nat) : Fld := ⟨0x388 + 0x8 * i, 63, 0, .ro, .plain, 0⟩
/-- EVQ_POP.POP (R630). -/
def EVQ_POP_POP : Fld := ⟨0x3A8, 0, 0, .w1s, .plain, 0⟩
/-- Rows of the page, part 0. -/
def rows0 : List FldRow :=
  [⟨TIME_CFG_ROOT, 1, 0⟩, ⟨TIME_CFG_STRETCH_LIMIT_MS, 1, 0⟩, ⟨TIME_CFG_HOLD_LEAD_TICKS, 1, 0⟩, ⟨TIME_CFG_PERIOD_TICKS, 1, 0⟩, ⟨TIME_PARENT_PORTS, 1, 0⟩, ⟨TIME_CMD_OP, 1, 0⟩, ⟨TIME_STATUS_LATE, 1, 0⟩, ⟨TIME_STATUS_PHASE_PS, 1, 0⟩, ⟨TIME_STATUS_DEPTH, 1, 0⟩, ⟨TIME_STATUS_PARENT, 1, 0⟩, ⟨TIME_STATUS_STATE, 1, 0⟩, ⟨TIME_DELAY_DELAY_PS, 1, 0⟩]
/-- Rows of the page, part 1. -/
def rows1 : List FldRow :=
  [⟨TIME_DELAY_PORT, 1, 0⟩, ⟨IMG_CFG_PART, 1, 0⟩, ⟨IMG_CFG_STAGING, 1, 0⟩, ⟨IMG_CMD_OP, 1, 0⟩, ⟨IMG_CMD_IMAGE, 1, 0⟩, ⟨IMG_STATUS_STATE, 1, 0⟩, ⟨IMG_STATUS_ROUND, 1, 0⟩, ⟨IMG_STATUS_MISSING, 1, 0⟩, ⟨IMG_STATUS_CHUNKS, 1, 0⟩, ⟨NET_CFG_ENABLE, 1, 0⟩, ⟨NET_CFG_MAC, 1, 0⟩, ⟨I3C_CFG_SMBUS, 1, 0⟩]
/-- Rows of the page, part 2. -/
def rows2 : List FldRow :=
  [⟨I3C_CFG_STATIC_ADDR, 1, 0⟩, ⟨SLEEP_MGMT_STATE, 1, 0⟩, ⟨SLEEP_CORE_STATE, 1, 0⟩, ⟨SLEEP_MGMT_REQ, 1, 0⟩, ⟨SLEEP_CORE_REQ, 1, 0⟩, ⟨WAKE_CFG_LVL_FALL, 1, 0⟩, ⟨WAKE_CFG_LVL_THR, 1, 0⟩, ⟨WAKE_CFG_WAKE_N_EN, 1, 0⟩, ⟨WAKE_CFG_EN_TIMER, 1, 0⟩, ⟨WAKE_CFG_EN_PERST, 1, 0⟩, ⟨WAKE_CFG_EN_LVL, 1, 0⟩, ⟨WAKE_CFG_EN_I3C, 1, 0⟩]
/-- Rows of the page, part 3. -/
def rows3 : List FldRow :=
  [⟨WAKE_TIMER_MS, 1, 0⟩, ⟨WAKE_STATUS_COUNT, 1, 0⟩, ⟨WAKE_STATUS_SOURCE, 1, 0⟩, ⟨RESET_WARM, 1, 0⟩, ⟨EVQ_STATUS_OVERFLOW, 1, 0⟩, ⟨EVQ_STATUS_COUNT, 1, 0⟩, ⟨EVQ_ENTRY_WORD 0, 4, 0x8⟩, ⟨EVQ_POP_POP, 1, 0⟩]
/-- Every writable, hardware-written or constant field of the page. -/
def rows : List FldRow := rows0 ++ rows1 ++ rows2 ++ rows3
end PgMGT

namespace PgMIL
/-- SCHED.ENABLE (R470). -/
def SCHED_ENABLE : Fld := ⟨0x100, 63, 63, .rw, .staged, 0⟩
/-- SCHED.CYCLE_BASE (R470). -/
def SCHED_CYCLE_BASE : Fld := ⟨0x100, 47, 0, .rw, .staged, 0⟩
/-- LOAD_DESC.DESC (R470). -/
def LOAD_DESC_DESC : Fld := ⟨0x108, 63, 0, .rw, .live, 0⟩
/-- LOAD_CMD.BUSY (R470). -/
def LOAD_CMD_BUSY : Fld := ⟨0x110, 31, 31, .ro, .plain, 0⟩
/-- LOAD_CMD.RESULT (R470). -/
def LOAD_CMD_RESULT : Fld := ⟨0x110, 19, 16, .ro, .plain, 0⟩
/-- LOAD_CMD.OP (R470). -/
def LOAD_CMD_OP : Fld := ⟨0x110, 15, 12, .wo, .plain, 0⟩
/-- STATUS.STATE (R470). -/
def STATUS_STATE : Fld := ⟨0x118, 63, 61, .ro, .plain, 0⟩
/-- STATUS.FAIL_CAUSE (R470). -/
def STATUS_FAIL_CAUSE : Fld := ⟨0x118, 60, 57, .ro, .plain, 0⟩
/-- STATUS.POS (R470). -/
def STATUS_POS : Fld := ⟨0x118, 47, 32, .ro, .plain, 0⟩
/-- STATUS.STAGED_ENTRIES (R470). -/
def STATUS_STAGED_ENTRIES : Fld := ⟨0x118, 29, 16, .ro, .plain, 0⟩
/-- STATUS.ACTIVE_ENTRIES (R470). -/
def STATUS_ACTIVE_ENTRIES : Fld := ⟨0x118, 13, 0, .ro, .plain, 0⟩
/-- BOUND.TASKS (R470). -/
def BOUND_TASKS : Fld := ⟨0x120, 10, 0, .ro, .plain, 0⟩
/-- PERF.SENT_KPKT (R470). -/
def PERF_SENT_KPKT : Fld := ⟨0x128, 63, 32, .rc, .plain, 0⟩
/-- PERF.RECV_KPKT (R470). -/
def PERF_RECV_KPKT : Fld := ⟨0x128, 31, 0, .rc, .plain, 0⟩
/-- PERF2.OVERRUNS (R470). -/
def PERF2_OVERRUNS : Fld := ⟨0x130, 63, 32, .rc, .plain, 0⟩
/-- PERF2.LATE_SENDS (R470). -/
def PERF2_LATE_SENDS : Fld := ⟨0x130, 31, 0, .rc, .plain, 0⟩
/-- Rows of the page, part 0. -/
def rows0 : List FldRow :=
  [⟨SCHED_ENABLE, 1, 0⟩, ⟨SCHED_CYCLE_BASE, 1, 0⟩, ⟨LOAD_DESC_DESC, 1, 0⟩, ⟨LOAD_CMD_BUSY, 1, 0⟩, ⟨LOAD_CMD_RESULT, 1, 0⟩, ⟨LOAD_CMD_OP, 1, 0⟩, ⟨STATUS_STATE, 1, 0⟩, ⟨STATUS_FAIL_CAUSE, 1, 0⟩, ⟨STATUS_POS, 1, 0⟩, ⟨STATUS_STAGED_ENTRIES, 1, 0⟩, ⟨STATUS_ACTIVE_ENTRIES, 1, 0⟩, ⟨BOUND_TASKS, 1, 0⟩]
/-- Rows of the page, part 1. -/
def rows1 : List FldRow :=
  [⟨PERF_SENT_KPKT, 1, 0⟩, ⟨PERF_RECV_KPKT, 1, 0⟩, ⟨PERF2_OVERRUNS, 1, 0⟩, ⟨PERF2_LATE_SENDS, 1, 0⟩]
/-- Every writable, hardware-written or constant field of the page. -/
def rows : List FldRow := rows0 ++ rows1
end PgMIL

namespace PgCOL
/-- CFG.STEP_TIMEOUT_MS (R484). -/
def CFG_STEP_TIMEOUT_MS : Fld := ⟨0x100, 15, 0, .rw, .live, 1000⟩
/-- PLY_CMD.BUSY (R484). -/
def PLY_CMD_BUSY : Fld := ⟨0x108, 31, 31, .ro, .plain, 0⟩
/-- PLY_CMD.RESULT (R484). -/
def PLY_CMD_RESULT : Fld := ⟨0x108, 19, 16, .ro, .plain, 0⟩
/-- PLY_CMD.OP (R484). -/
def PLY_CMD_OP : Fld := ⟨0x108, 15, 12, .wo, .plain, 0⟩
/-- PLY_CMD.PLY (R484). -/
def PLY_CMD_PLY : Fld := ⟨0x108, 9, 0, .rw, .plain, 0⟩
/-- PLY_ARG.DESC (R484). -/
def PLY_ARG_DESC : Fld := ⟨0x110, 63, 0, .rw, .live, 0⟩
/-- STATUS.PLIES (R484). -/
def STATUS_PLIES : Fld := ⟨0x118, 26, 16, .ro, .plain, 0⟩
/-- STATUS.RUNNING (R484). -/
def STATUS_RUNNING : Fld := ⟨0x118, 4, 0, .ro, .plain, 0⟩
/-- PERF.COMBINED_KB (R484). -/
def PERF_COMBINED_KB : Fld := ⟨0x120, 63, 32, .rc, .plain, 0⟩
/-- PERF.DONE (R484). -/
def PERF_DONE : Fld := ⟨0x120, 31, 0, .rc, .plain, 0⟩
/-- Rows of the page, part 0. -/
def rows0 : List FldRow :=
  [⟨CFG_STEP_TIMEOUT_MS, 1, 0⟩, ⟨PLY_CMD_BUSY, 1, 0⟩, ⟨PLY_CMD_RESULT, 1, 0⟩, ⟨PLY_CMD_OP, 1, 0⟩, ⟨PLY_CMD_PLY, 1, 0⟩, ⟨PLY_ARG_DESC, 1, 0⟩, ⟨STATUS_PLIES, 1, 0⟩, ⟨STATUS_RUNNING, 1, 0⟩, ⟨PERF_COMBINED_KB, 1, 0⟩, ⟨PERF_DONE, 1, 0⟩]
/-- Every writable, hardware-written or constant field of the page. -/
def rows : List FldRow := rows0
end PgCOL

namespace PgHEP
/-- LINK_STATUS.CXL (R518). -/
def LINK_STATUS_CXL : Fld := ⟨0x100, 23, 23, .ro, .plain, 0⟩
/-- LINK_STATUS.FLIT (R518). -/
def LINK_STATUS_FLIT : Fld := ⟨0x100, 22, 22, .ro, .plain, 0⟩
/-- LINK_STATUS.DL_UP (R518). -/
def LINK_STATUS_DL_UP : Fld := ⟨0x100, 21, 21, .ro, .plain, 0⟩
/-- LINK_STATUS.PM (R518). -/
def LINK_STATUS_PM : Fld := ⟨0x100, 20, 19, .ro, .plain, 0⟩
/-- LINK_STATUS.DSTATE (R518). -/
def LINK_STATUS_DSTATE : Fld := ⟨0x100, 18, 16, .ro, .plain, 0⟩
/-- LINK_STATUS.WIDTH (R518). -/
def LINK_STATUS_WIDTH : Fld := ⟨0x100, 15, 8, .ro, .plain, 0⟩
/-- LINK_STATUS.SPEED (R518). -/
def LINK_STATUS_SPEED : Fld := ⟨0x100, 3, 0, .ro, .plain, 0⟩
/-- LINK_CFG.BME_HOLD_MS (R518). -/
def LINK_CFG_BME_HOLD_MS : Fld := ⟨0x108, 47, 32, .rw, .live, 100⟩
/-- LINK_CFG.GRACE_MS (R518). -/
def LINK_CFG_GRACE_MS : Fld := ⟨0x108, 7, 0, .rw, .live, 10⟩
/-- RESET_CAUSE.CAUSE (R518). -/
def RESET_CAUSE_CAUSE : Fld := ⟨0x110, 63, 62, .ro, .plain, 0⟩
/-- RESET_CAUSE.LOSS_COUNT (R518). -/
def RESET_CAUSE_LOSS_COUNT : Fld := ⟨0x110, 31, 0, .ro, .plain, 0⟩
/-- BME.HELD_NOW (R518). -/
def BME_HELD_NOW : Fld := ⟨0x118, 47, 32, .ro, .plain, 0⟩
/-- BME.FAILED (R518). -/
def BME_FAILED : Fld := ⟨0x118, 31, 0, .rc, .plain, 0⟩
/-- CLOSED_LOG.VALID (R518). -/
def CLOSED_LOG_VALID : Fld := ⟨0x120, 63, 63, .w1c, .plain, 0⟩
/-- CLOSED_LOG.POSTED (R518). -/
def CLOSED_LOG_POSTED : Fld := ⟨0x120, 62, 62, .ro, .plain, 0⟩
/-- CLOSED_LOG.KIND (R518). -/
def CLOSED_LOG_KIND : Fld := ⟨0x120, 61, 60, .ro, .plain, 0⟩
/-- CLOSED_LOG.REQ_ID (R518). -/
def CLOSED_LOG_REQ_ID : Fld := ⟨0x120, 59, 44, .ro, .plain, 0⟩
/-- CLOSED_LOG.OFFSET (R518). -/
def CLOSED_LOG_OFFSET : Fld := ⟨0x120, 39, 0, .ro, .plain, 0⟩
/-- CLOSED_CNT.NP_REFUSED (R518). -/
def CLOSED_CNT_NP_REFUSED : Fld := ⟨0x128, 63, 32, .rc, .plain, 0⟩
/-- CLOSED_CNT.P_DROPPED (R518). -/
def CLOSED_CNT_P_DROPPED : Fld := ⟨0x128, 31, 0, .rc, .plain, 0⟩
/-- PERF0.RX_KTLP (R518). -/
def PERF0_RX_KTLP : Fld := ⟨0x130, 63, 32, .rc, .plain, 0⟩
/-- PERF0.TX_KTLP (R518). -/
def PERF0_TX_KTLP : Fld := ⟨0x130, 31, 0, .rc, .plain, 0⟩
/-- PERF1.REPLAYS (R518). -/
def PERF1_REPLAYS : Fld := ⟨0x138, 63, 32, .rc, .plain, 0⟩
/-- PERF1.RECOVERIES (R518). -/
def PERF1_RECOVERIES : Fld := ⟨0x138, 31, 0, .rc, .plain, 0⟩
/-- EN of INT_ROUTE i (R518). -/
def INT_ROUTE_EN (i : Nat) : Fld := ⟨0x200 + 0x8 * i, 63, 63, .rw, .live, 0⟩
/-- VECTOR of INT_ROUTE i (R518). -/
def INT_ROUTE_VECTOR (i : Nat) : Fld := ⟨0x200 + 0x8 * i, 10, 0, .rw, .live, 0⟩
/-- PEND of INT_GROUP i (R518). -/
def INT_GROUP_PEND (i : Nat) : Fld := ⟨0x300 + 0x8 * i, 63, 0, .ro, .plain, 0⟩
/-- ENABLE of WIN_MAP i (R518). -/
def WIN_MAP_ENABLE (i : Nat) : Fld := ⟨0x400 + 0x10 * i, 63, 63, .rw, .staged, 0⟩
/-- WRITE of WIN_MAP i (R518). -/
def WIN_MAP_WRITE (i : Nat) : Fld := ⟨0x400 + 0x10 * i, 62, 62, .rw, .staged, 0⟩
/-- WINSEL of WIN_MAP i (R518). -/
def WIN_MAP_WINSEL (i : Nat) : Fld := ⟨0x400 + 0x10 * i, 61, 61, .rw, .staged, 0⟩
/-- PART of WIN_MAP i (R518). -/
def WIN_MAP_PART (i : Nat) : Fld := ⟨0x400 + 0x10 * i, 60, 57, .rw, .staged, 0⟩
/-- LEN of WIN_MAP i (R518). -/
def WIN_MAP_LEN (i : Nat) : Fld := ⟨0x400 + 0x10 * i, 36, 18, .rw, .staged, 0⟩
/-- BAR_BASE of WIN_MAP i (R518). -/
def WIN_MAP_BAR_BASE (i : Nat) : Fld := ⟨0x400 + 0x10 * i, 17, 0, .rw, .staged, 0⟩
/-- HINT of WIN_TGT i (R518). -/
def WIN_TGT_HINT (i : Nat) : Fld := ⟨0x408 + 0x10 * i, 63, 48, .rw, .staged, 0⟩
/-- TGT_OFFSET of WIN_TGT i (R518). -/
def WIN_TGT_TGT_OFFSET (i : Nat) : Fld := ⟨0x408 + 0x10 * i, 26, 0, .rw, .staged, 0⟩
/-- BASE of PEER_BASE i (R518). -/
def PEER_BASE_BASE (i : Nat) : Fld := ⟨0x600 + 0x10 * i, 63, 21, .rw, .live, 0⟩
/-- ENABLE of PEER_BASE i (R518). -/
def PEER_BASE_ENABLE (i : Nat) : Fld := ⟨0x600 + 0x10 * i, 0, 0, .rw, .live, 0⟩
/-- LEN of PEER_LEN i (R518). -/
def PEER_LEN_LEN (i : Nat) : Fld := ⟨0x608 + 0x10 * i, 31, 0, .rw, .live, 0⟩
/-- ENABLE of CXL_BIND i (R518). -/
def CXL_BIND_ENABLE (i : Nat) : Fld := ⟨0x680 + 0x8 * i, 63, 63, .rw, .staged, 0⟩
/-- PART of CXL_BIND i (R518). -/
def CXL_BIND_PART (i : Nat) : Fld := ⟨0x680 + 0x8 * i, 60, 57, .rw, .staged, 0⟩
/-- TGT_OFFSET of CXL_BIND i (R518). -/
def CXL_BIND_TGT_OFFSET (i : Nat) : Fld := ⟨0x680 + 0x8 * i, 26, 0, .rw, .staged, 0⟩
/-- Rows of the page, part 0. -/
def rows0 : List FldRow :=
  [⟨LINK_STATUS_CXL, 1, 0⟩, ⟨LINK_STATUS_FLIT, 1, 0⟩, ⟨LINK_STATUS_DL_UP, 1, 0⟩, ⟨LINK_STATUS_PM, 1, 0⟩, ⟨LINK_STATUS_DSTATE, 1, 0⟩, ⟨LINK_STATUS_WIDTH, 1, 0⟩, ⟨LINK_STATUS_SPEED, 1, 0⟩, ⟨LINK_CFG_BME_HOLD_MS, 1, 0⟩, ⟨LINK_CFG_GRACE_MS, 1, 0⟩, ⟨RESET_CAUSE_CAUSE, 1, 0⟩, ⟨RESET_CAUSE_LOSS_COUNT, 1, 0⟩, ⟨BME_HELD_NOW, 1, 0⟩]
/-- Rows of the page, part 1. -/
def rows1 : List FldRow :=
  [⟨BME_FAILED, 1, 0⟩, ⟨CLOSED_LOG_VALID, 1, 0⟩, ⟨CLOSED_LOG_POSTED, 1, 0⟩, ⟨CLOSED_LOG_KIND, 1, 0⟩, ⟨CLOSED_LOG_REQ_ID, 1, 0⟩, ⟨CLOSED_LOG_OFFSET, 1, 0⟩, ⟨CLOSED_CNT_NP_REFUSED, 1, 0⟩, ⟨CLOSED_CNT_P_DROPPED, 1, 0⟩, ⟨PERF0_RX_KTLP, 1, 0⟩, ⟨PERF0_TX_KTLP, 1, 0⟩, ⟨PERF1_REPLAYS, 1, 0⟩, ⟨PERF1_RECOVERIES, 1, 0⟩]
/-- Rows of the page, part 2. -/
def rows2 : List FldRow :=
  [⟨INT_ROUTE_EN 0, 32, 0x8⟩, ⟨INT_ROUTE_VECTOR 0, 32, 0x8⟩, ⟨INT_GROUP_PEND 0, 32, 0x8⟩, ⟨WIN_MAP_ENABLE 0, 32, 0x10⟩, ⟨WIN_MAP_WRITE 0, 32, 0x10⟩, ⟨WIN_MAP_WINSEL 0, 32, 0x10⟩, ⟨WIN_MAP_PART 0, 32, 0x10⟩, ⟨WIN_MAP_LEN 0, 32, 0x10⟩, ⟨WIN_MAP_BAR_BASE 0, 32, 0x10⟩, ⟨WIN_TGT_HINT 0, 32, 0x10⟩, ⟨WIN_TGT_TGT_OFFSET 0, 32, 0x10⟩, ⟨PEER_BASE_BASE 0, 8, 0x10⟩]
/-- Rows of the page, part 3. -/
def rows3 : List FldRow :=
  [⟨PEER_BASE_ENABLE 0, 8, 0x10⟩, ⟨PEER_LEN_LEN 0, 8, 0x10⟩, ⟨CXL_BIND_ENABLE 0, 8, 0x8⟩, ⟨CXL_BIND_PART 0, 8, 0x8⟩, ⟨CXL_BIND_TGT_OFFSET 0, 8, 0x8⟩]
/-- Every writable, hardware-written or constant field of the page. -/
def rows : List FldRow := rows0 ++ rows1 ++ rows2 ++ rows3
end PgHEP

namespace PgETH
/-- CFG.PFC_EN (R532). -/
def CFG_PFC_EN : Fld := ⟨0x100, 63, 56, .rw, .quiesce, 0⟩
/-- CFG.MAC (R532). -/
def CFG_MAC : Fld := ⟨0x100, 47, 0, .rw, .quiesce, 0⟩
/-- FC.XOFF_KIB (R532). -/
def FC_XOFF_KIB : Fld := ⟨0x108, 25, 16, .rw, .live, 768⟩
/-- FC.XON_KIB (R532). -/
def FC_XON_KIB : Fld := ⟨0x108, 9, 0, .rw, .live, 512⟩
/-- STATUS.BUF_KIB (R532). -/
def STATUS_BUF_KIB : Fld := ⟨0x110, 26, 16, .ro, .plain, 0⟩
/-- STATUS.FEC_LOCK (R532). -/
def STATUS_FEC_LOCK : Fld := ⟨0x110, 15, 8, .ro, .plain, 0⟩
/-- STATUS.LINK_UP (R532). -/
def STATUS_LINK_UP : Fld := ⟨0x110, 0, 0, .ro, .plain, 0⟩
/-- PERF0.RX_KFRAMES (R532). -/
def PERF0_RX_KFRAMES : Fld := ⟨0x118, 63, 32, .rc, .plain, 0⟩
/-- PERF0.TX_KFRAMES (R532). -/
def PERF0_TX_KFRAMES : Fld := ⟨0x118, 31, 0, .rc, .plain, 0⟩
/-- PERF1.DROPPED (R532). -/
def PERF1_DROPPED : Fld := ⟨0x120, 63, 32, .rc, .plain, 0⟩
/-- PERF1.RETRANSMITS (R532). -/
def PERF1_RETRANSMITS : Fld := ⟨0x120, 31, 0, .rc, .plain, 0⟩
/-- PERF2.RNR_SENT (R532). -/
def PERF2_RNR_SENT : Fld := ⟨0x128, 63, 32, .rc, .plain, 0⟩
/-- PERF2.FEC_UNCORR (R532). -/
def PERF2_FEC_UNCORR : Fld := ⟨0x128, 31, 0, .rc, .plain, 0⟩
/-- QP_CMD.PART (R532). -/
def QP_CMD_PART : Fld := ⟨0x138, 51, 48, .rw, .plain, 0⟩
/-- QP_CMD.QP (R532). -/
def QP_CMD_QP : Fld := ⟨0x138, 45, 32, .rw, .plain, 0⟩
/-- QP_CMD.BUSY (R532). -/
def QP_CMD_BUSY : Fld := ⟨0x138, 31, 31, .ro, .plain, 0⟩
/-- QP_CMD.STATE (R532). -/
def QP_CMD_STATE : Fld := ⟨0x138, 21, 20, .ro, .plain, 0⟩
/-- QP_CMD.RESULT (R532). -/
def QP_CMD_RESULT : Fld := ⟨0x138, 19, 16, .ro, .plain, 0⟩
/-- QP_CMD.OP (R532). -/
def QP_CMD_OP : Fld := ⟨0x138, 15, 12, .wo, .plain, 0⟩
/-- QP_ARG.CTX (R532). -/
def QP_ARG_CTX : Fld := ⟨0x140, 63, 0, .rw, .live, 0⟩
/-- MR_CMD.MR (R532). -/
def MR_CMD_MR : Fld := ⟨0x148, 45, 32, .rw, .plain, 0⟩
/-- MR_CMD.BUSY (R532). -/
def MR_CMD_BUSY : Fld := ⟨0x148, 31, 31, .ro, .plain, 0⟩
/-- MR_CMD.RESULT (R532). -/
def MR_CMD_RESULT : Fld := ⟨0x148, 19, 16, .ro, .plain, 0⟩
/-- MR_CMD.OP (R532). -/
def MR_CMD_OP : Fld := ⟨0x148, 15, 12, .wo, .plain, 0⟩
/-- MR_CMD.KEY (R532). -/
def MR_CMD_KEY : Fld := ⟨0x148, 7, 0, .rw, .plain, 0⟩
/-- MR_ARG0.BASE (R532). -/
def MR_ARG0_BASE : Fld := ⟨0x150, 63, 0, .rw, .live, 0⟩
/-- MR_ARG1.PART (R532). -/
def MR_ARG1_PART : Fld := ⟨0x158, 63, 60, .rw, .live, 0⟩
/-- MR_ARG1.ACCESS (R532). -/
def MR_ARG1_ACCESS : Fld := ⟨0x158, 59, 57, .rw, .live, 0⟩
/-- MR_ARG1.HINT (R532). -/
def MR_ARG1_HINT : Fld := ⟨0x158, 55, 40, .rw, .live, 0⟩
/-- MR_ARG1.LENGTH (R532). -/
def MR_ARG1_LENGTH : Fld := ⟨0x158, 39, 0, .rw, .live, 0⟩
/-- DB.RING (R532). -/
def DB_RING : Fld := ⟨0x160, 63, 62, .wo, .plain, 0⟩
/-- DB.QP (R532). -/
def DB_QP : Fld := ⟨0x160, 45, 32, .wo, .plain, 0⟩
/-- DB.INDEX (R532). -/
def DB_INDEX : Fld := ⟨0x160, 31, 0, .wo, .plain, 0⟩
/-- Rows of the page, part 0. -/
def rows0 : List FldRow :=
  [⟨CFG_PFC_EN, 1, 0⟩, ⟨CFG_MAC, 1, 0⟩, ⟨FC_XOFF_KIB, 1, 0⟩, ⟨FC_XON_KIB, 1, 0⟩, ⟨STATUS_BUF_KIB, 1, 0⟩, ⟨STATUS_FEC_LOCK, 1, 0⟩, ⟨STATUS_LINK_UP, 1, 0⟩, ⟨PERF0_RX_KFRAMES, 1, 0⟩, ⟨PERF0_TX_KFRAMES, 1, 0⟩, ⟨PERF1_DROPPED, 1, 0⟩, ⟨PERF1_RETRANSMITS, 1, 0⟩, ⟨PERF2_RNR_SENT, 1, 0⟩]
/-- Rows of the page, part 1. -/
def rows1 : List FldRow :=
  [⟨PERF2_FEC_UNCORR, 1, 0⟩, ⟨QP_CMD_PART, 1, 0⟩, ⟨QP_CMD_QP, 1, 0⟩, ⟨QP_CMD_BUSY, 1, 0⟩, ⟨QP_CMD_STATE, 1, 0⟩, ⟨QP_CMD_RESULT, 1, 0⟩, ⟨QP_CMD_OP, 1, 0⟩, ⟨QP_ARG_CTX, 1, 0⟩, ⟨MR_CMD_MR, 1, 0⟩, ⟨MR_CMD_BUSY, 1, 0⟩, ⟨MR_CMD_RESULT, 1, 0⟩, ⟨MR_CMD_OP, 1, 0⟩]
/-- Rows of the page, part 2. -/
def rows2 : List FldRow :=
  [⟨MR_CMD_KEY, 1, 0⟩, ⟨MR_ARG0_BASE, 1, 0⟩, ⟨MR_ARG1_PART, 1, 0⟩, ⟨MR_ARG1_ACCESS, 1, 0⟩, ⟨MR_ARG1_HINT, 1, 0⟩, ⟨MR_ARG1_LENGTH, 1, 0⟩, ⟨DB_RING, 1, 0⟩, ⟨DB_QP, 1, 0⟩, ⟨DB_INDEX, 1, 0⟩]
/-- Every writable, hardware-written or constant field of the page. -/
def rows : List FldRow := rows0 ++ rows1 ++ rows2
end PgETH

namespace PgLCS
/-- STATUS.SLOTS_USED (R550). -/
def STATUS_SLOTS_USED : Fld := ⟨0x100, 39, 34, .ro, .plain, 0⟩
/-- STATUS.INTENT_TARGET (R550). -/
def STATUS_INTENT_TARGET : Fld := ⟨0x100, 29, 26, .ro, .plain, 0⟩
/-- STATUS.INTENT_FROM (R550). -/
def STATUS_INTENT_FROM : Fld := ⟨0x100, 25, 22, .ro, .plain, 0⟩
/-- STATUS.INTENT_WIPE (R550). -/
def STATUS_INTENT_WIPE : Fld := ⟨0x100, 21, 21, .ro, .plain, 0⟩
/-- STATUS.INTENT_WIPE_DONE (R550). -/
def STATUS_INTENT_WIPE_DONE : Fld := ⟨0x100, 20, 20, .ro, .plain, 0⟩
/-- STATUS.INCOMPLETE (R550). -/
def STATUS_INCOMPLETE : Fld := ⟨0x100, 19, 19, .ro, .plain, 0⟩
/-- STATUS.DEBUG_READY (R550). -/
def STATUS_DEBUG_READY : Fld := ⟨0x100, 18, 18, .ro, .plain, 0⟩
/-- STATUS.BUSY (R550). -/
def STATUS_BUSY : Fld := ⟨0x100, 17, 17, .ro, .plain, 0⟩
/-- STATUS.RESULT (R550). -/
def STATUS_RESULT : Fld := ⟨0x100, 15, 12, .ro, .plain, 0⟩
/-- STATUS.EXC_COUNT (R550). -/
def STATUS_EXC_COUNT : Fld := ⟨0x100, 8, 4, .ro, .plain, 0⟩
/-- STATUS.STATE (R550). -/
def STATUS_STATE : Fld := ⟨0x100, 3, 0, .ro, .plain, 0⟩
/-- TARGET.STATE (R550). -/
def TARGET_STATE : Fld := ⟨0x108, 3, 0, .wo, .plain, 0⟩
/-- STATE_WORD.WORD (R550). -/
def STATE_WORD_WORD : Fld := ⟨0x110, 63, 0, .ro, .plain, 0⟩
/-- EXC_WORD.WORD (R550). -/
def EXC_WORD_WORD : Fld := ⟨0x118, 31, 0, .ro, .plain, 0⟩
/-- SLOT of INTENT i (R550). -/
def INTENT_SLOT (i : Nat) : Fld := ⟨0x120 + 0x8 * i, 63, 0, .ro, .plain, 0⟩
/-- Rows of the page, part 0. -/
def rows0 : List FldRow :=
  [⟨STATUS_SLOTS_USED, 1, 0⟩, ⟨STATUS_INTENT_TARGET, 1, 0⟩, ⟨STATUS_INTENT_FROM, 1, 0⟩, ⟨STATUS_INTENT_WIPE, 1, 0⟩, ⟨STATUS_INTENT_WIPE_DONE, 1, 0⟩, ⟨STATUS_INCOMPLETE, 1, 0⟩, ⟨STATUS_DEBUG_READY, 1, 0⟩, ⟨STATUS_BUSY, 1, 0⟩, ⟨STATUS_RESULT, 1, 0⟩, ⟨STATUS_EXC_COUNT, 1, 0⟩, ⟨STATUS_STATE, 1, 0⟩, ⟨TARGET_STATE, 1, 0⟩]
/-- Rows of the page, part 1. -/
def rows1 : List FldRow :=
  [⟨STATE_WORD_WORD, 1, 0⟩, ⟨EXC_WORD_WORD, 1, 0⟩, ⟨INTENT_SLOT 0, 32, 0x8⟩]
/-- Every writable, hardware-written or constant field of the page. -/
def rows : List FldRow := rows0 ++ rows1
end PgLCS

namespace PgDBG
/-- CTRL.HALTED (R551). -/
def CTRL_HALTED : Fld := ⟨0x100, 40, 40, .ro, .plain, 0⟩
/-- CTRL.HALT (R551). -/
def CTRL_HALT : Fld := ⟨0x100, 39, 39, .rw, .live, 0⟩
/-- CTRL.CLASS (R551). -/
def CTRL_CLASS : Fld := ⟨0x100, 35, 31, .rw, .live, 0⟩
/-- CTRL.INSTANCE (R551). -/
def CTRL_INSTANCE : Fld := ⟨0x100, 30, 19, .rw, .live, 0⟩
/-- ADDR.ARRAY (R551). -/
def ADDR_ARRAY : Fld := ⟨0x108, 47, 40, .rw, .live, 0⟩
/-- ADDR.INDEX (R551). -/
def ADDR_INDEX : Fld := ⟨0x108, 39, 0, .rw, .live, 0⟩
/-- DATA.DATA (R551). -/
def DATA_DATA : Fld := ⟨0x110, 63, 0, .rw, .plain, 0⟩
/-- STEP.STEP (R551). -/
def STEP_STEP : Fld := ⟨0x118, 0, 0, .w1s, .plain, 0⟩
/-- Rows of the page, part 0. -/
def rows0 : List FldRow :=
  [⟨CTRL_HALTED, 1, 0⟩, ⟨CTRL_HALT, 1, 0⟩, ⟨CTRL_CLASS, 1, 0⟩, ⟨CTRL_INSTANCE, 1, 0⟩, ⟨ADDR_ARRAY, 1, 0⟩, ⟨ADDR_INDEX, 1, 0⟩, ⟨DATA_DATA, 1, 0⟩, ⟨STEP_STEP, 1, 0⟩]
/-- Every writable, hardware-written or constant field of the page. -/
def rows : List FldRow := rows0
end PgDBG

namespace PgROT
/-- MBOX_CMD.BUSY (R569). -/
def MBOX_CMD_BUSY : Fld := ⟨0x100, 31, 31, .ro, .plain, 0⟩
/-- MBOX_CMD.RESULT (R569). -/
def MBOX_CMD_RESULT : Fld := ⟨0x100, 27, 24, .ro, .plain, 0⟩
/-- MBOX_CMD.OP (R569). -/
def MBOX_CMD_OP : Fld := ⟨0x100, 23, 20, .wo, .plain, 0⟩
/-- MBOX_CMD.LEN (R569). -/
def MBOX_CMD_LEN : Fld := ⟨0x100, 11, 0, .rw, .plain, 0⟩
/-- DATA of MBOX_DATA i (R569). -/
def MBOX_DATA_DATA (i : Nat) : Fld := ⟨0x200 + 0x8 * i, 63, 0, .rw, .plain, 0⟩
/-- Rows of the page, part 0. -/
def rows0 : List FldRow :=
  [⟨MBOX_CMD_BUSY, 1, 0⟩, ⟨MBOX_CMD_RESULT, 1, 0⟩, ⟨MBOX_CMD_OP, 1, 0⟩, ⟨MBOX_CMD_LEN, 1, 0⟩, ⟨MBOX_DATA_DATA 0, 448, 0x8⟩]
/-- Every writable, hardware-written or constant field of the page. -/
def rows : List FldRow := rows0
end PgROT

namespace PgPWR
/-- CFG.DEMAND_WAKE (R589). -/
def CFG_DEMAND_WAKE : Fld := ⟨0x100, 0, 0, .rw, .live, 1⟩
/-- STATUS.REF_INST (R589). -/
def STATUS_REF_INST : Fld := ⟨0x108, 35, 24, .ro, .plain, 0⟩
/-- STATUS.REF_CLASS (R589). -/
def STATUS_REF_CLASS : Fld := ⟨0x108, 23, 19, .ro, .plain, 0⟩
/-- STATUS.REF_CAUSE (R589). -/
def STATUS_REF_CAUSE : Fld := ⟨0x108, 18, 15, .ro, .plain, 0⟩
/-- STATUS.LAST_RESULT (R589). -/
def STATUS_LAST_RESULT : Fld := ⟨0x108, 11, 8, .ro, .plain, 0⟩
/-- STATUS.PHASE (R589). -/
def STATUS_PHASE : Fld := ⟨0x108, 2, 0, .ro, .plain, 0⟩
/-- COUNT.REFUSED (R589). -/
def COUNT_REFUSED : Fld := ⟨0x110, 63, 48, .rc, .plain, 0⟩
/-- COUNT.ABORTED (R589). -/
def COUNT_ABORTED : Fld := ⟨0x110, 47, 32, .rc, .plain, 0⟩
/-- COUNT.ROUND_TRIPS (R589). -/
def COUNT_ROUND_TRIPS : Fld := ⟨0x110, 31, 16, .rc, .plain, 0⟩
/-- COUNT.ENTRIES (R589). -/
def COUNT_ENTRIES : Fld := ⟨0x110, 15, 0, .rc, .plain, 0⟩
/-- DEMANDS.WAKES (R589). -/
def DEMANDS_WAKES : Fld := ⟨0x118, 31, 0, .rc, .plain, 0⟩
/-- Rows of the page, part 0. -/
def rows0 : List FldRow :=
  [⟨CFG_DEMAND_WAKE, 1, 0⟩, ⟨STATUS_REF_INST, 1, 0⟩, ⟨STATUS_REF_CLASS, 1, 0⟩, ⟨STATUS_REF_CAUSE, 1, 0⟩, ⟨STATUS_LAST_RESULT, 1, 0⟩, ⟨STATUS_PHASE, 1, 0⟩, ⟨COUNT_REFUSED, 1, 0⟩, ⟨COUNT_ABORTED, 1, 0⟩, ⟨COUNT_ROUND_TRIPS, 1, 0⟩, ⟨COUNT_ENTRIES, 1, 0⟩, ⟨DEMANDS_WAKES, 1, 0⟩]
/-- Every writable, hardware-written or constant field of the page. -/
def rows : List FldRow := rows0
end PgPWR

namespace PgTST
/-- CMD.BUSY (R633). -/
def CMD_BUSY : Fld := ⟨0x100, 31, 31, .ro, .plain, 0⟩
/-- CMD.RESULT (R633). -/
def CMD_RESULT : Fld := ⟨0x100, 27, 24, .ro, .plain, 0⟩
/-- CMD.OP (R633). -/
def CMD_OP : Fld := ⟨0x100, 23, 20, .wo, .plain, 0⟩
/-- CMD.KIND (R633). -/
def CMD_KIND : Fld := ⟨0x100, 19, 16, .rw, .plain, 0⟩
/-- CMD.INSTANCE (R633). -/
def CMD_INSTANCE : Fld := ⟨0x100, 8, 0, .rw, .plain, 0⟩
/-- STATUS.DURATION_US (R633). -/
def STATUS_DURATION_US : Fld := ⟨0x108, 63, 32, .ro, .plain, 0⟩
/-- STATUS.DETAIL (R633). -/
def STATUS_DETAIL : Fld := ⟨0x108, 15, 0, .ro, .plain, 0⟩
/-- Rows of the page, part 0. -/
def rows0 : List FldRow :=
  [⟨CMD_BUSY, 1, 0⟩, ⟨CMD_RESULT, 1, 0⟩, ⟨CMD_OP, 1, 0⟩, ⟨CMD_KIND, 1, 0⟩, ⟨CMD_INSTANCE, 1, 0⟩, ⟨STATUS_DURATION_US, 1, 0⟩, ⟨STATUS_DETAIL, 1, 0⟩]
/-- Every writable, hardware-written or constant field of the page. -/
def rows : List FldRow := rows0
end PgTST

namespace PgFPD0
/-- FPD_GEN.GEN (R83). -/
def FPD_GEN_GEN : Fld := ⟨0x100, 31, 0, .ro, .plain, 0⟩
/-- DIGEST of DIGEST i (R83). -/
def DIGEST_DIGEST (i : Nat) : Fld := ⟨0x118 + 0x8 * i, 63, 0, .ro, .plain, 0⟩
/-- FPD_STATUS.BELOW_MIN (R83). -/
def FPD_STATUS_BELOW_MIN : Fld := ⟨0x148, 2, 2, .ro, .plain, 0⟩
/-- FPD_STATUS.MESH_FATAL (R83). -/
def FPD_STATUS_MESH_FATAL : Fld := ⟨0x148, 1, 1, .ro, .plain, 0⟩
/-- FPD_STATUS.DIGEST_VALID (R83). -/
def FPD_STATUS_DIGEST_VALID : Fld := ⟨0x148, 0, 0, .ro, .plain, 0⟩
/-- Rows of the page, part 0. -/
def rows0 : List FldRow :=
  [⟨FPD_GEN_GEN, 1, 0⟩, ⟨DIGEST_DIGEST 0, 6, 0x8⟩, ⟨FPD_STATUS_BELOW_MIN, 1, 0⟩, ⟨FPD_STATUS_MESH_FATAL, 1, 0⟩, ⟨FPD_STATUS_DIGEST_VALID, 1, 0⟩]
/-- Every writable, hardware-written or constant field of the page. -/
def rows : List FldRow := rows0
end PgFPD0

namespace PgFPD8
/-- GEN of LOG i (R93). -/
def LOG_GEN (i : Nat) : Fld := ⟨0x100 + 0x8 * i, 63, 32, .ro, .plain, 0⟩
/-- KIND of LOG i (R93). -/
def LOG_KIND (i : Nat) : Fld := ⟨0x100 + 0x8 * i, 31, 28, .ro, .plain, 0⟩
/-- INSTANCE of LOG i (R93). -/
def LOG_INSTANCE (i : Nat) : Fld := ⟨0x100 + 0x8 * i, 27, 13, .ro, .plain, 0⟩
/-- NEW_CAUSE of LOG i (R93). -/
def LOG_NEW_CAUSE (i : Nat) : Fld := ⟨0x100 + 0x8 * i, 12, 9, .ro, .plain, 0⟩
/-- SUBCAUSE of LOG i (R93). -/
def LOG_SUBCAUSE (i : Nat) : Fld := ⟨0x100 + 0x8 * i, 8, 1, .ro, .plain, 0⟩
/-- VALID of LOG i (R93). -/
def LOG_VALID (i : Nat) : Fld := ⟨0x100 + 0x8 * i, 0, 0, .ro, .plain, 0⟩
/-- LOG_HEAD.HEAD (R93). -/
def LOG_HEAD_HEAD : Fld := ⟨0x300, 5, 0, .ro, .plain, 0⟩
/-- Rows of the page, part 0. -/
def rows0 : List FldRow :=
  [⟨LOG_GEN 0, 64, 0x8⟩, ⟨LOG_KIND 0, 64, 0x8⟩, ⟨LOG_INSTANCE 0, 64, 0x8⟩, ⟨LOG_NEW_CAUSE 0, 64, 0x8⟩, ⟨LOG_SUBCAUSE 0, 64, 0x8⟩, ⟨LOG_VALID 0, 64, 0x8⟩, ⟨LOG_HEAD_HEAD, 1, 0⟩]
/-- Every writable, hardware-written or constant field of the page. -/
def rows : List FldRow := rows0
end PgFPD8

namespace PgHDR
/-- PAGE_STATE.COMMIT_BUSY (R55). -/
def PAGE_STATE_COMMIT_BUSY : Fld := ⟨0x10, 9, 9, .ro, .plain, 0⟩
/-- PAGE_STATE.STAGED_PENDING (R55). -/
def PAGE_STATE_STAGED_PENDING : Fld := ⟨0x10, 8, 8, .ro, .plain, 0⟩
/-- PAGE_STATE.STATE (R55). -/
def PAGE_STATE_STATE : Fld := ⟨0x10, 3, 0, .ro, .plain, 1⟩
/-- PAGE_CTRL.FENCE (R56). -/
def PAGE_CTRL_FENCE : Fld := ⟨0x18, 2, 2, .rw, .plain, 0⟩
/-- PAGE_CTRL.QUIESCE_REQ (R56). -/
def PAGE_CTRL_QUIESCE_REQ : Fld := ⟨0x18, 1, 1, .rw, .plain, 0⟩
/-- PAGE_CTRL.ENABLE (R56). -/
def PAGE_CTRL_ENABLE : Fld := ⟨0x18, 0, 0, .rw, .plain, 0⟩
/-- PAGE_COMMIT.COMMIT_SEQ (R56). -/
def PAGE_COMMIT_COMMIT_SEQ : Fld := ⟨0x20, 31, 0, .ro, .plain, 0⟩
/-- PAGE_ERR.FIRST_SRC (R56). -/
def PAGE_ERR_FIRST_SRC : Fld := ⟨0x28, 31, 30, .ro, .plain, 0⟩
/-- PAGE_ERR.FIRST_OFF (R56). -/
def PAGE_ERR_FIRST_OFF : Fld := ⟨0x28, 27, 16, .ro, .plain, 0⟩
/-- PAGE_ERR.PARITY (R56). -/
def PAGE_ERR_PARITY : Fld := ⟨0x28, 3, 3, .w1c, .plain, 0⟩
/-- PAGE_ERR.ACCESS (R56). -/
def PAGE_ERR_ACCESS : Fld := ⟨0x28, 2, 2, .w1c, .plain, 0⟩
/-- PAGE_ERR.ORDER (R56). -/
def PAGE_ERR_ORDER : Fld := ⟨0x28, 1, 1, .w1c, .plain, 0⟩
/-- PAGE_ERR.QWRITE (R56). -/
def PAGE_ERR_QWRITE : Fld := ⟨0x28, 0, 0, .w1c, .plain, 0⟩
/-- INT_STATUS.ERR (R57). -/
def INT_STATUS_ERR : Fld := ⟨0x30, 63, 63, .w1c, .plain, 0⟩
/-- INT_STATUS.STATE_CHG (R57). -/
def INT_STATUS_STATE_CHG : Fld := ⟨0x30, 62, 62, .w1c, .plain, 0⟩
/-- INT_STATUS.COMMIT_DONE (R57). -/
def INT_STATUS_COMMIT_DONE : Fld := ⟨0x30, 61, 61, .w1c, .plain, 0⟩
/-- INT_STATUS.BLK (R57). -/
def INT_STATUS_BLK : Fld := ⟨0x30, 55, 0, .w1c, .plain, 0⟩
/-- INT_ENABLE.ERR (R57). -/
def INT_ENABLE_ERR : Fld := ⟨0x38, 63, 63, .rw, .plain, 0⟩
/-- INT_ENABLE.STATE_CHG (R57). -/
def INT_ENABLE_STATE_CHG : Fld := ⟨0x38, 62, 62, .rw, .plain, 0⟩
/-- INT_ENABLE.COMMIT_DONE (R57). -/
def INT_ENABLE_COMMIT_DONE : Fld := ⟨0x38, 61, 61, .rw, .plain, 0⟩
/-- INT_ENABLE.BLK (R57). -/
def INT_ENABLE_BLK : Fld := ⟨0x38, 55, 0, .rw, .plain, 0⟩
/-- RST_CTRL.BLOCK_RST (R60). -/
def RST_CTRL_BLOCK_RST : Fld := ⟨0x58, 0, 0, .w1s, .plain, 0⟩
/-- ERR_COUNT.LASTING (R60). -/
def ERR_COUNT_LASTING : Fld := ⟨0x60, 63, 48, .rc, .plain, 0⟩
/-- ERR_COUNT.TRANSIENT (R60). -/
def ERR_COUNT_TRANSIENT : Fld := ⟨0x60, 47, 32, .rc, .plain, 0⟩
/-- ERR_COUNT.CORRECTED (R60). -/
def ERR_COUNT_CORRECTED : Fld := ⟨0x60, 31, 0, .rc, .plain, 0⟩
/-- OWNER.PARTITION (R60). -/
def OWNER_PARTITION : Fld := ⟨0x68, 12, 8, .rw, .quiesce, 31⟩
/-- OWNER.ACCESS_CLASS (R60). -/
def OWNER_ACCESS_CLASS : Fld := ⟨0x68, 1, 0, .rw, .quiesce, 0⟩
/-- Rows of the page, part 0. -/
def rows0 : List FldRow :=
  [⟨PAGE_STATE_COMMIT_BUSY, 1, 0⟩, ⟨PAGE_STATE_STAGED_PENDING, 1, 0⟩, ⟨PAGE_STATE_STATE, 1, 0⟩, ⟨PAGE_CTRL_FENCE, 1, 0⟩, ⟨PAGE_CTRL_QUIESCE_REQ, 1, 0⟩, ⟨PAGE_CTRL_ENABLE, 1, 0⟩, ⟨PAGE_COMMIT_COMMIT_SEQ, 1, 0⟩, ⟨PAGE_ERR_FIRST_SRC, 1, 0⟩, ⟨PAGE_ERR_FIRST_OFF, 1, 0⟩, ⟨PAGE_ERR_PARITY, 1, 0⟩, ⟨PAGE_ERR_ACCESS, 1, 0⟩, ⟨PAGE_ERR_ORDER, 1, 0⟩]
/-- Rows of the page, part 1. -/
def rows1 : List FldRow :=
  [⟨PAGE_ERR_QWRITE, 1, 0⟩, ⟨INT_STATUS_ERR, 1, 0⟩, ⟨INT_STATUS_STATE_CHG, 1, 0⟩, ⟨INT_STATUS_COMMIT_DONE, 1, 0⟩, ⟨INT_STATUS_BLK, 1, 0⟩, ⟨INT_ENABLE_ERR, 1, 0⟩, ⟨INT_ENABLE_STATE_CHG, 1, 0⟩, ⟨INT_ENABLE_COMMIT_DONE, 1, 0⟩, ⟨INT_ENABLE_BLK, 1, 0⟩, ⟨RST_CTRL_BLOCK_RST, 1, 0⟩, ⟨ERR_COUNT_LASTING, 1, 0⟩, ⟨ERR_COUNT_TRANSIENT, 1, 0⟩]
/-- Rows of the page, part 2. -/
def rows2 : List FldRow :=
  [⟨ERR_COUNT_CORRECTED, 1, 0⟩, ⟨OWNER_PARTITION, 1, 0⟩, ⟨OWNER_ACCESS_CLASS, 1, 0⟩]
/-- Every writable, hardware-written or constant field of the page. -/
def rows : List FldRow := rows0 ++ rows1 ++ rows2
end PgHDR

end Sys2Proof.Machine
end

