-- ==== Sys2Proof/Machine/SiteTypes.lean ====
section
/-! DEFINITION. State of the chiplet sites (13_chiplet_sites.md), and answers of the hub that are gathered from several homes. -/
namespace Sys2Proof.Machine

/-- A site channel (R396, R400, R401). -/
structure AspChan where
  txSeq : Nat := 0
  rxSeq : Nat := 0
  unacked : List AspFlit := []
  /-- Messages of the hub that wait for credits or for a retrain, in order (R394, R402). -/
  queue : List AspMsg := []
  /-- Credits left toward the chiplet, by class; credits of the hub's buffers in use, by class (R400). -/
  cr : List Nat := [0, 0, 0, 0, 0, 0, 0]
  used : List Nat := [0, 0, 0, 0, 0, 0, 0]
  naked : Bool := false
  badSeq : Option Nat := none
  retraining : Bool := false
  /-- The retrain follows a fault (R396, R401, R406). -/
  faulty : Bool := false
  /-- TAGs of the chiplet's requests that await a response (R401). -/
  tags : List Nat := []
  deriving DecidableEq, Repr

/-- A SITE task on a chiplet (R409): its handle, the task, its function; expired, so that only its credit is awaited. -/
structure SiteTask where
  handle : Nat
  task : TaskId
  part : Nat
  func : Nat
  late : Bool := false
  deriving DecidableEq, Repr

/-- A configuration request of the hub that awaits its CfgCpl (R413, R414): for software, for enumeration, for a FUNC commit; function,
register index, write. -/
inductive CfgWhy where
  | software | enumerate | bind
  deriving DecidableEq, Repr
structure CfgReq where
  why : CfgWhy
  func : Nat
  index : Nat
  write : Bool
  deriving DecidableEq, Repr

/-- A site. -/
structure SiteSt where
  /-- Sideband statuses (R391): the hub's, the chiplet's. -/
  hub : Nat := 0
  peer : Nat := 0
  chans : NMap AspChan := []
  /-- CAPS words of the functions (R412). -/
  caps : NMap Nat := []
  tasks : List SiteTask := []
  nextHandle : Nat := 0
  /-- Configuration requests outstanding, in order. -/
  cfg : List CfgReq := []
  /-- Functions found present so far by the enumeration under way. -/
  found : Nat := 0
  /-- XlateInv outstanding: TAG, the invalidation they belong to (none: INV_CMD), channel (R408). -/
  invs : List (Nat × Option Nat × Nat) := []
  nextInv : Nat := 0
  /-- Translations handed out by port (R408): port, translation. -/
  handed : List (Nat × Tlb) := []
  /-- Tick + 1 of the last protocol error and of the last timeout (R401, R406). -/
  lastProto : Nat := 0
  lastMiss : Nat := 0
  /-- A lane-map mismatch has had its one retrain (R393). -/
  disputed : Bool := false
  /-- The chiplet dropped READY and may return (R419). -/
  dropped : Bool := false
  /-- Reset by BLOCK_RST: waits for the chiplet's SITE_RESET (R416). -/
  resetting : Bool := false
  /-- Trained once, so a retraining reuses its parameters (R392). -/
  trained : Bool := false
  /-- A FUNC commit has rewritten register 0x018 and awaits the answers (R414). -/
  binding : Bool := false
  deriving DecidableEq, Repr

/-- Whom an answer of the homes is for. -/
inductive JoinKind where
  /-- The DACK of a fabric packet, which came in by an attachment (14_fabric_links.md R439). -/
  | dack (att : Nat) (p : FabPkt)
  /-- A request of the host or a peer through BAR4 (16_host_endpoint.md R495): offset, Requester ID, posted write. -/
  | host (off reqId : Nat) (posted : Bool)
  /-- A request of a site (13_chiplet_sites.md R398): site, channel, TAG, opcode of the answer. -/
  | asp (st ch tag op : Nat)
  /-- A read of the host under CXL.mem (12_coherence.md R375). -/
  | cxl (line : Nat)
  /-- An inbound RDMA request (17_network_ports.md R527): QP, kind, its packet. -/
  | rdma (qp kind : Nat) (q : RdmaReq)
  /-- The response of a work request stored in its local buffer (R529): QP, ring index. -/
  | wqe (qp idx : Nat)
  /-- The completion record of a SIGNAL (06_task_graphs.md R184). -/
  | record (t : TaskId)
  /-- What a hank drains (04_spindle_array.md R101): hank, SPIN run, unit, M tile, what ends with it. -/
  | drain (n spin unit mt ends : Nat)
  /-- Data a SEND entry reads for one packet (15_milestone_schedule.md R467): port, entry, milestone, byte offset, source, partition. -/
  | schedSend (port ent occ off src part : Nat)
  /-- A SCHED or COLL packet written here, which came in by an attachment (R467, R483). -/
  | schedIn (att : Nat) (p : FabPkt)
  /-- The input of a COLL, its result (R480). -/
  | collIn (t : TaskId)
  | collOut (t : TaskId)
  /-- A piece of an image chunk read for a port (R486); staging writes. -/
  | image (port img off : Nat)
  | staged
  /-- A completion entry written to its home (17_network_ports.md R528): partition, event, error. -/
  | cqe (part event : Nat) (err : Bool)
  /-- Reads of a gather engine (07_skein_memory.md R217, R218): slice, slot and the descriptor load, or the window read whose index or row sector
  it is. -/
  | gatherDesc (n slot load : Nat)
  | gatherIdx (n slot read : Nat)
  | gatherRow (n slot read k : Nat)
  /-- A piece a copy reads, and writes (06_task_graphs.md R171, 08_memory_tiers.md R261): the copy. -/
  | copyIn (k : Nat)
  | copyOut (k : Nat)
  /-- A fill of a hank (04_spindle_array.md R103). -/
  | fill (k : Nat)
  deriving DecidableEq, Repr

/-- An answer being gathered: its parts still out, the first status other than OK, data by part, poisoned.
[DESIGN CHOICE, log entry 217] -/
structure Join where
  id : Nat
  kind : JoinKind
  left : Nat
  status : Nat := 0
  parts : NMap (List Byte × Nat) := []
  deriving DecidableEq, Repr

/-- What waits for a client's translations (10_address_translation.md R314): a request of a site on a channel, a site's XlateReq, an inbound
RDMA packet of a QP, an entry of an event ring (22_fault_detection.md R626). -/
inductive XUse where
  | asp (st ch : Nat) (m : AspMsg)
  | aspXlate (st ch : Nat) (m : AspMsg)
  | rdma (qp kind : Nat) (q : RdmaReq)
  | ring (r : Nat)
  deriving DecidableEq, Repr

/-- A wait for translations: client, its number there, partition, PASID, pages (2 MiB) still to come, translations that have come.
[DESIGN CHOICE, log entry 217] -/
structure XWait where
  client : Nat
  id : Nat
  part : Nat
  pasid : Nat
  need : List Nat
  got : List (Nat × Tlb × Bool)
  use_ : XUse
  deriving DecidableEq, Repr

end Sys2Proof.Machine
end

