-- ==== Sys2Proof/Machine/Fp.lean ====
section
/-! DEFINITION. Binary floating-point values, their encodings and round-to-nearest-even (00_scope.md R17: IEEE 754;
05_spindle_arithmetic.md R127, R137). -/
namespace Sys2Proof.Machine

/-- A floating-point value: NaN, an infinity, or (-1)^neg × mag × 2^exp. -/
inductive FpVal where
  | nan
  | inf (neg : Bool)
  | fin (neg : Bool) (mag : Nat) (exp : Int)
  deriving DecidableEq, Repr

/-- An IEEE-style format: exponent bits, fraction bits. -/
structure FpFmt where
  eb : Nat
  mb : Nat
  deriving DecidableEq, Repr

def fp32 : FpFmt := ⟨8, 23⟩
def fp16 : FpFmt := ⟨5, 10⟩
def bf16 : FpFmt := ⟨8, 7⟩

/-- The exponent bias. -/
def FpFmt.bias (f : FpFmt) : Nat := 2 ^ (f.eb - 1) - 1
/-- The width of an encoding. -/
def FpFmt.width (f : FpFmt) : Nat := 1 + f.eb + f.mb
/-- Exponent of the last place of the subnormals. -/
def FpFmt.qmin (f : FpFmt) : Int := 1 - (f.bias : Int) - f.mb
/-- The canonical quiet NaN (R207): 0x7FC0_0000, 0x7E00, 0x7FC0. -/
def FpFmt.qnan (f : FpFmt) : Nat := (2 ^ f.eb - 1) <<< f.mb + 2 ^ (f.mb - 1)

/-- The value of an encoding; subnormals are kept. -/
def FpFmt.decode (f : FpFmt) (w : Nat) : FpVal :=
  let neg := natBit w (f.eb + f.mb)
  let e := natBits w (f.eb + f.mb - 1) f.mb
  let m := w % 2 ^ f.mb
  if e = 2 ^ f.eb - 1 then (if m = 0 then .inf neg else .nan)
  else if e = 0 then .fin neg m f.qmin
  else .fin neg (2 ^ f.mb + m) (f.qmin + (e - 1 : Nat))

/-- mag × 2^e ÷ 2^q rounded to nearest, ties to even. -/
def rneShift (mag : Nat) (e q : Int) : Nat :=
  if q ≤ e then mag <<< (e - q).toNat
  else
    let k := (q - e).toNat
    let fl := mag >>> k
    let r := mag % 2 ^ k
    let h := 2 ^ (k - 1)
    if h < r || (r = h && fl % 2 = 1) then fl + 1 else fl

/-- ⌊mag × 2^e ÷ 2^q⌋ and whether a remainder was dropped. -/
def floorShift (mag : Nat) (e q : Int) : Nat × Bool :=
  if q ≤ e then (mag <<< (e - q).toNat, false)
  else
    let k := (q - e).toNat
    (mag >>> k, decide (mag % 2 ^ k ≠ 0))

/-- The encoding nearest a value, ties to even, overflow to infinity (IEEE 754). -/
def FpFmt.encode (f : FpFmt) (v : FpVal) : Nat :=
  let sign (neg : Bool) : Nat := if neg then 2 ^ (f.eb + f.mb) else 0
  match v with
  | .nan => f.qnan
  | .inf neg => sign neg + (2 ^ f.eb - 1) <<< f.mb
  | .fin neg mag e =>
    if mag = 0 then sign neg
    else
      let p : Int := (Nat.log2 mag : Int) + e
      let q : Int := max (p - f.mb) f.qmin
      let n := rneShift mag e q
      let code := if n < 2 ^ f.mb then n else (q - f.qmin + 1).toNat <<< f.mb + (n - 2 ^ f.mb)
      sign neg + min code ((2 ^ f.eb - 1) <<< f.mb)

/-- The signed integer multiple of 2^e that a finite value is, at an exponent no larger than its own. -/
def fpScaled (neg : Bool) (mag : Nat) (e q : Int) : Int :=
  let n : Int := (mag <<< (e - q).toNat : Nat)
  if neg then -n else n

/-- The exact sum of two values; a zero sum of unlike signs is +0, of like signs keeps the sign (IEEE 754). -/
def FpVal.add : FpVal → FpVal → FpVal
  | .nan, _ => .nan
  | _, .nan => .nan
  | .inf a, .inf b => if a = b then .inf a else .nan
  | .inf a, _ => .inf a
  | _, .inf b => .inf b
  | .fin n1 m1 e1, .fin n2 m2 e2 =>
    let q := min e1 e2
    let s := fpScaled n1 m1 e1 q + fpScaled n2 m2 e2 q
    if s = 0 then .fin (n1 && n2) 0 q else .fin (decide (s < 0)) s.natAbs q

/-- The exact product of two values. -/
def FpVal.mul : FpVal → FpVal → FpVal
  | .nan, _ => .nan
  | _, .nan => .nan
  | .inf a, .inf b => .inf (a ^^ b)
  | .inf a, .fin b m _ => if m = 0 then .nan else .inf (a ^^ b)
  | .fin b m _, .inf a => if m = 0 then .nan else .inf (a ^^ b)
  | .fin n1 m1 e1, .fin n2 m2 e2 => .fin (n1 ^^ n2) (m1 * m2) (e1 + e2)

/-- The negative of a value. -/
def FpVal.neg : FpVal → FpVal
  | .nan => .nan
  | .inf a => .inf (!a)
  | .fin n m e => .fin (!n) m e

/-- a < b with −0 below +0; false where either is NaN. -/
def FpVal.lt : FpVal → FpVal → Bool
  | .nan, _ => false
  | _, .nan => false
  | .inf a, .inf b => a && !b
  | .inf a, .fin .. => a
  | .fin .., .inf b => !b
  | .fin n1 m1 e1, .fin n2 m2 e2 =>
    let q := min e1 e2
    let x := fpScaled n1 m1 e1 q
    let y := fpScaled n2 m2 e2 q
    if x = 0 && y = 0 then n1 && !n2 else decide (x < y)

/-- The value is zero. -/
def FpVal.isZero : FpVal → Bool
  | .fin _ m _ => decide (m = 0)
  | _ => false

end Sys2Proof.Machine
end

