-- ==== Sys2Proof/Machine/TaskTypes.lean ====
section
/-! DEFINITION. State of task graphs and the Dispatcher (06_task_graphs.md), of SPINs (05_spindle_arithmetic.md) and of the
hanks (04_spindle_array.md). -/
namespace Sys2Proof.Machine

/-- States of a submission queue (R162, R164 DB_STATE). -/
inductive QState where
  | absent | active | stoppedSw | stoppedErr
  deriving DecidableEq, Repr

/-- A submission queue (R160-R165). -/
structure QueueSt where
  st : QState := .absent
  part : Nat := 0
  pasid : Nat := 0
  base : Nat := 0
  log2 : Nat := 0
  span : Nat := 0
  siteMask : Nat := 0
  head : Nat := 0
  tail : Nat := 0
  errIndex : Nat := 0
  errCode : Nat := 0
  /-- DESTROY waits for the queue's last task (R163). -/
  destroying : Bool := false
  deriving DecidableEq, Repr

/-- The life of a live task (R173): waiting, ready, dispatched, or done and walking its references. -/
inductive TaskPhase where
  | waiting | ready | dispatched | walking
  deriving DecidableEq, Repr

/-- The error a task carries to its successors (R188): code, queue and index of its origin (queue 0xFFFF: an event). -/
structure ErrOrigin where
  code : Nat
  queue : Nat
  seq : Nat
  deriving DecidableEq, Repr

/-- A live task (R169-R175, R188). -/
structure TaskSt where
  id : TaskId
  part : Nat
  pasid : Nat
  ty : Nat
  prio : Nat
  ignoreErr : Bool
  pred : Nat
  refs : List Nat
  block : Nat
  tag : Nat
  body : List Byte
  phase : TaskPhase := .waiting
  /-- Status it ended with. -/
  status : Nat := 0
  /-- The errored direct predecessor of lowest index so far, with what it carried; how many predecessors failed. -/
  predErr : Option (Nat × ErrOrigin) := none
  failedPreds : Nat := 0
  /-- What it carries on after an error (R188). -/
  origin : Option ErrOrigin := none
  /-- Arithmetic status: a SPIN's own word, and what a SIGNAL combines (R185). -/
  arith : Nat := 0
  /-- Successor blocks read so far (R170, R174). `block` is 2^64 where the references that remain end in a bad one. -/
  blocks : Nat := 0
  /-- The engine, port or slot it was given. -/
  engine : Nat := 0
  /-- Every write of it on other paths has been issued; it ends when they are acknowledged. -/
  sent : Bool := false
  /-- Writes a SIGNAL's fence covers (R183): kind (1 home, 3 fabric, 4 Ethernet) and number. -/
  cover : List (Nat × Nat) := []
  deriving DecidableEq, Repr

/-- An event (R180, R182): COUNT, ERR, the remote event it forwards to (NODE and PART as in EVT_DATA [53:32], remote event). -/
structure EventSt where
  count : Nat := 0
  err : Bool := false
  fwd : Option (Nat × Nat) := none
  deriving DecidableEq, Repr

/-- An epilogue step (R148). -/
structure EpiStep where
  code : Nat
  shape : Nat
  vec : Nat
  imm : Nat
  deriving DecidableEq, Repr

/-- A pattern descriptor (R153-R157). -/
structure PatDesc where
  op : Nat
  aFmt : Nat
  bFmt : Nat
  outFmt : Nat
  resFmt : Nat
  round : Nat
  cmp : Nat
  flags : Nat
  topkK : Nat
  accBase : Nat
  nSeg : Nat
  m : Nat
  n : Nat
  k : Nat
  aBase : Nat
  aScale : Nat
  bBase : Nat
  bScale : Nat
  cBase : Nat
  resBase : Nat
  aStride : Nat
  bStride : Nat
  cStride : Nat
  resStride : Nat
  actTable : Nat
  seed : Nat
  vec0 : Nat
  vec1 : Nat
  indexBase : Nat
  clampLo : Nat
  clampHi : Nat
  inW : Nat
  inH : Nat
  cIn : Nat
  kr : Nat
  ks : Nat
  dil : Nat
  padX : Nat
  padY : Nat
  padVal : Nat
  epi : List EpiStep
  csBase : Nat
  deriving DecidableEq, Repr

/-- A task whose columns a SPIN run computes: the task, its own descriptor, its first column in the run, its arithmetic status
(bits [7:2] and FLAGGED, R159), the first error. -/
structure SpinMember where
  task : TaskId
  desc : PatDesc
  col0 : Nat
  bits : Nat := 0
  flagged : Nat := 0
  /-- Its number in the run; it met poison, or a read of it failed: no further tile starts for it (09_memory_integrity.md R279). -/
  num : Nat := 0
  stop : Bool := false
  deriving DecidableEq, Repr

/-- A SPIN in a tile queue (R121, R178, R179): one SPIN, or the members of a distaff batch. -/
structure SpinRun where
  id : Nat
  part : Nat
  hset : Nat
  members : List SpinMember
  /-- The descriptor of the run: the first member's, with N the columns of all. -/
  desc : PatDesc
  /-- Hanks of the effective set, rising (R178). -/
  hanks : List Nat
  /-- Next unit in walk order (DYNAMIC); units taken by each hank number of the set (AFFINE, FIXED). -/
  next : Nat := 0
  pos : NMap Nat := []
  /-- Units to run again (R122), and hank numbers of an AFFINE set whose remaining units run in DYNAMIC mode. -/
  requeue : List Nat := []
  orphans : List Nat := []
  /-- Units written. -/
  done : Nat := 0
  /-- No further tile starts (09_memory_integrity.md R279). -/
  stop : Bool := false
  /-- Strips written by M tile, the lists they wrote (R152), merges due: hank, M tile, unit. -/
  segDone : NMap Nat := []
  segLists : NMap (List (Nat × Nat × Nat)) := []
  merges : List (Nat × Nat × Nat) := []
  deriving DecidableEq, Repr

/-- An open distaff batch (R108-R112): requests (task and descriptor) in order of arrival, the tick of its opening, its hanks. -/
structure Batch where
  id : Nat
  part : Nat
  hset : Nat
  reqs : List (TaskId × PatDesc)
  tick : Nat
  hanks : List Nat
  deriving DecidableEq, Repr

/-- A request on its way to its distaff (R109). -/
structure DistaffReq where
  task : TaskId
  part : Nat
  hset : Nat
  desc : PatDesc
  hanks : List Nat
  deriving DecidableEq, Repr

/-- An accumulator (R132, R139, R143): the integer I (or an integer semiring's value), flags NAN 1, PINF 2, NINF 4, INEXACT 8, RANGE 16,
SAT 32, and the FP32 encoding of a fixed-order or BF16 semiring accumulation. -/
structure Accum where
  i : Int := 0
  flags : Nat := 0
  f : Nat := 0
  deriving DecidableEq, Repr

/-- A written value on its way to memory: region address and bytes, and bytes that it covers in part: address, bits, mask. -/
structure Write where
  addr : Nat
  data : List Byte
  bits : List (Nat × Byte × Byte) := []
  deriving DecidableEq, Repr

/-- Operands of one step in a bobbin (R99, R102): for each row or column it feeds, the bytes of the step's elements and their block
scales (one for all, or one each); in the pixel chain of SHIFT mode the new pixels of the step (R106). -/
structure Slice where
  runs : List (List Byte)
  scales : List (List Nat)
  deriving DecidableEq, Repr

/-- The tile a hank runs (R101, R117, R121): SPIN run, unit, M tile, segment, N tile, row group, pass, step, the chunk its K walk starts at
(R140), its own accumulator set, the pixel lanes of SHIFT mode (R106), the working values (with status bits and container) of the elements
whose passes have ended, by row × 16 + column, and the members whose operands were poisoned. -/
structure TileRun where
  spin : Nat
  unit : Nat
  mt : Nat
  seg : Nat
  nt : Nat
  group : Nat := 0
  pass : Nat := 0
  step : Nat := 0
  start : Nat := 0
  set : Nat := 0
  chain : List (List Byte) := []
  work : NMap (FpVal × Nat × Nat) := []
  pois : List Nat := []
  deriving DecidableEq, Repr

/-- What an accumulator set drains (R101; set 2: a merged list): the writes, what members' status words take (member, bits, flagged), and
what ends with it: 0 a pass, 1 a tile of a strip, 2 a unit, 3 a strip of several segments. -/
structure Drain where
  set : Nat
  spin : Nat
  unit : Nat
  mt : Nat
  writes : List Write
  stats : List (Nat × Nat × Nat)
  ends : Nat
  deriving DecidableEq, Repr

/-- What one side's bobbins hold resident (R102): the operand it belongs to, by bobbin the chunks held, oldest first, and their slices by
bobbin × 2^17 + step of the walk. -/
structure Held where
  key : Nat := 0
  chunks : NMap (List Nat) := []
  slices : NMap Slice := []
  deriving DecidableEq, Repr

/-- What a fill reads, piece by piece: address in the partition's windows and length; none for a row or column outside the matrix. -/
abbrev Piece := Option (Nat × Nat)

/-- A fill under way (R103): its number, the hank that reads, the SPIN run, what it is (`none`: the merge of an M tile, R152), the step of the
walk it serves, the M tile and unit, its pieces, the hanks it is for, and what has come: status, bytes and poison of each access. -/
structure FillRun where
  id : Nat
  hank : Nat
  spin : Nat
  fill : Option Fill
  at_ : Nat
  mt : Nat
  unit : Nat
  pieces : List Piece
  goesTo : List Nat
  got : Option (Nat × List (List Byte × Nat)) := none
  deriving DecidableEq, Repr

/-- A hank (04_spindle_array.md). -/
structure HankSt where
  run : Option TileRun := none
  /-- Accumulators by set × 512 + row × 16 + column. -/
  acc : NMap Accum := []
  /-- Slices in the bobbins and not consumed: row bobbins 0-15, column bobbins 16-19, the pixel chain 20. -/
  bobs : NMap (List Slice) := []
  /-- What the row and the column bobbins hold resident (R102). -/
  heldA : Held := {}
  heldB : Held := {}
  /-- Epilogue operands of the tile: 0 initial C and 1 residual by row × 16 + column; 2 + 2 × VEC + SHAPE - 1: vector values. -/
  tileIn : NMap (List Nat) := []
  /-- Drains to come, oldest first (R101). -/
  drains : List Drain := []
  /-- The set the next tile takes. -/
  nextSet : Nat := 0
  /-- Hank steps since reset (R114). -/
  steps : Nat := 0
  /-- A check under way (R115): 0 none, 1 replay, 2 known-answer pattern; the step that awaits it is not committed. -/
  check : Nat := 0
  /-- Running lists by row × 16 + member (R151, R152): value code, recorded index, status bits; best first. -/
  lists : NMap (List (Nat × Nat × Nat)) := []
  /-- ACT tables read, by run (R149). -/
  acts : NMap (List (Nat × Nat × Nat)) := []
  /-- A read of a bobbin failed in this tile, which was restarted (09_memory_integrity.md R268). -/
  bobFail : Bool := false
  /-- DST_CFG as the segment in progress found it (R67, R119). -/
  dst : Nat := 0
  /-- The set (partition × 16 + HSET) whose tile queue it served last (R179). -/
  lastSet : Nat := 255
  /-- Steps and stalls below 1,024 (PERF). -/
  busy : Nat := 0
  stall : Nat := 0
  /-- Tiles written within the last 64 steps: tasks, step (R615 of 22_fault_detection.md). -/
  recent : List (List TaskId × Nat) := []
  /-- Spindles that SP_FENCE is to remove at the next segment boundary, to return at the next tile boundary (R124). -/
  fence : List Nat := []
  unfence : List Nat := []
  deriving DecidableEq, Repr

/-- A doorbell that waits for the writes its sender made before it (R166): of the host (those joins below `after`) or of a site (channel and TAG
of each); its queue, an event to increment, else the new TAIL. -/
structure Bell where
  site : Option Nat
  after : Nat
  writes : List (Nat × Nat)
  queue : Nat
  event : Option Nat
  tail : Nat
  deriving DecidableEq, Repr

/-- Who asked for a copy: a MOVE (R171), or a T0 or T1 stage of an itinerary slot (08_memory_tiers.md R261). -/
inductive CopyFor where
  | move (t : TaskId)
  | stage (slot index : Nat)
  deriving DecidableEq, Repr

/-- A copy under way (R171, R325, 08_memory_tiers.md R261): whom it is for, its partition and PASID, the ATU client and tollgate of its engine and
its class; object addresses, rows, strides, write hint; `fill`: only the home's cache ways take the lines (T1). -/
structure CopyRun where
  id : Nat
  for_ : CopyFor
  part : Nat
  pasid : Nat
  client : Nat
  tol : Nat
  cls : Nat
  src : Nat
  dst : Nat
  rowBytes : Nat
  rows : Nat
  srcStride : Nat
  dstStride : Nat
  hint : Nat
  fill : Bool
  /-- Every region is resolved (R325). -/
  going : Bool := false
  /-- Where the next piece lies; its bytes and poison once read; an access of it is under way. -/
  row : Nat := 0
  pos : Nat := 0
  piece : Option (List Byte × Nat) := none
  busy : Bool := false
  /-- It has ended, with a status. -/
  ended : Bool := false
  status : Nat := 0
  deriving DecidableEq, Repr

/-- The Dispatcher and the array. -/
structure DspSt where
  queues : NMap QueueSt := []
  /-- Live tasks, in the order they were fetched. -/
  tasks : List TaskSt := []
  /-- Ready tasks in the order they became ready (R175). -/
  ready : List TaskId := []
  events : NMap EventSt := []
  spins : List SpinRun := []
  nextSpin : Nat := 1
  batches : List Batch := []
  arriving : List DistaffReq := []
  hanks : NMap HankSt := []
  /-- Round robin over partitions (11_mesh_and_regulation.md R343): by task type × 2 + tier, the partition served last and what remains
  of its quantum. -/
  drr : NMap (Nat × Nat) := []
  /-- Copies under way, and the next one's number. -/
  copies : List CopyRun := []
  nextCopy : Nat := 0
  /-- Fills under way, and the next one's number (04_spindle_array.md R103). -/
  fills : List FillRun := []
  nextFill : Nat := 0
  /-- Doorbells that wait, in order of arrival (R166). -/
  bells : List Bell := []
  deriving DecidableEq, Repr

end Sys2Proof.Machine
end

