-- ==== Sys2Proof/Machine/State.lean ====
section
/-! DEFINITION. The state of the block, its stops, and the state after reset. -/
namespace Sys2Proof.Machine

/-- How a command can stop the block. No rule of the spec stops it: every happening the spec describes has an effect
(22_fault_detection.md R622: even a FATAL event leaves registers, management and the ROT running), so no meaning answers
with the one constructor kept here. Safe: it is never raised.
[DESIGN CHOICE, log entry 216] -/
inductive Fault where
  | unused
  deriving DecidableEq, Repr

/-- Why a command has no meaning. Raised by an arm of `exec` that is not modelled yet, with the row's mnemonic; safe, since
nothing can be proved of what it does.
[DESIGN CHOICE, log entry 216] -/
inductive Refusal where
  | notModelled (mnemonic : String)
  deriving DecidableEq, Repr

/-- The whole block: the queue of waiting commands, every register, and the state behind the registers. -/
structure State where
  /-- Commands that wait, first in, first out. -/
  pending : List Instr := []
  /-- Every register whose value differs from its reset value; key `regKey`. STAGED registers: the shadow copy (R69). -/
  regs : NMap Word := []
  /-- Active copies of STAGED registers that differ from their reset value (R69). -/
  active : NMap Word := []
  /-- FIXED fields locked since the last reset of their page (R71); key `regKey` × 64 + lo. -/
  locks : List Nat := []
  /-- Messages the hub has sent, oldest first (the model's own record of its outputs). -/
  out : List Out := []
  /-- Free values taken so far (the model's own; see Config.freeValue). -/
  freeCtr : Nat := 0
  /-- Ticks of 10 ns since reset, on which intervals are measured: TICK_NOW may be loaded, an interval goes on (01_anatomy.md R37). -/
  clock : Nat := 0
  /-- DMM_CFG and RATE_FLOOR as the current monitor window uses them (R30, R31). -/
  dmmCfg : Nat := 0x11008
  rateFloor : Nat := 620
  /-- Delay margins by page index of the region (R28, R29). -/
  dmm : NMap DmmSt := []
  plan : PlanSt := {}
  dom : NMap DomSt := []
  boot : BootSt := {}
  deliv : NMap DelivSt := []
  host : HostSt := {}
  lc : LcSt := {}
  tap : TapSt := {}
  rot : RotSt := {}
  saf : SafSt := {}
  /-- Memory: Skein, HBM, tiers, coherence homes. -/
  mem : MemSt := {}
  atu : AtuSt := {}
  dsp : DspSt := {}
  mesh : MeshSt := {}
  fab : FabSt := {}
  /-- The sites (13_chiplet_sites.md). -/
  site : NMap SiteSt := []
  /-- Answers being gathered from homes, and the next number of one. -/
  joins : List Join := []
  nextJoin : Nat := 0
  /-- Requests that wait for translations, and the next number of one. -/
  xwaits : List XWait := []
  nextWait : Nat := 0
  eth : EthSt := {}
  mil : MilSt := {}
  /-- What an engine or home has reported against a task that runs (06_task_graphs.md R187): status code by task key. -/
  taskErrs : NMap Nat := []
  deriving DecidableEq, Repr

/-- The block right after reset: supplies in tolerance, PWR_GOOD_IN deasserted and PERST_N asserted, so every page is in
RESET and nothing has started (21_bring_up_and_reset.md R593-R595). -/
def State.reset : State := {}

end Sys2Proof.Machine
end

