-- ==== Sys2Proof/Machine/Ops.lean ====
section
/-! DEFINITION. The operations every block shares: register storage, page header, interrupts, MSI-X, host-link issue,
events, free values. -/
namespace Sys2Proof.Machine

/-! ### Pages and registers (02_register_pages.md) -/

/-- The page of instance `i` of class `c` (R42): 2,048 page positions per class. -/
def pg (c i : Nat) : Nat := c * 2048 + i
/-- The class of a page. -/
def pgCls (p : Nat) : Nat := p / 2048
/-- The instance of a page. -/
def pgInst (p : Nat) : Nat := p % 2048

def cGLB : Nat := 0
def cFPD : Nat := 1
def cLCS : Nat := 2
def cROT : Nat := 3
def cMGT : Nat := 4
def cPWR : Nat := 5
def cSAF : Nat := 6
def cTST : Nat := 7
def cHNK : Nat := 8
def cBOB : Nat := 9
def cSKN : Nat := 10
def cMSH : Nat := 11
def cTOL : Nat := 12
def cCOH : Nat := 13
def cHBM : Nat := 14
def cHCH : Nat := 15
def cTIR : Nat := 16
def cITN : Nat := 17
def cSCR : Nat := 18
def cATU : Nat := 19
def cDSP : Nat := 20
def cDMA : Nat := 21
def cSIT : Nat := 22
def cFAB : Nat := 23
def cMIL : Nat := 24
def cCOL : Nat := 25
def cHEP : Nat := 26
def cETH : Nat := 27
def cKEY : Nat := 28
def cPRT : Nat := 29
def cDBG : Nat := 30

/-- Pages of the classes with one instance. -/
def pGLB : Nat := pg cGLB 0
def pLCS : Nat := pg cLCS 0
def pROT : Nat := pg cROT 0
def pMGT : Nat := pg cMGT 0
def pSAF : Nat := pg cSAF 0
def pTST : Nat := pg cTST 0
def pCOL : Nat := pg cCOL 0
def pHEP : Nat := pg cHEP 0
def pKEY : Nat := pg cKEY 0
def pDBG : Nat := pg cDBG 0
def pFPD : Nat := pg cFPD 0
def pATU : Nat := pg cATU 0

/-- Instances of each class (R43). -/
def classCount : Nat → Nat
  | 0 => 1 | 1 => 16 | 2 => 1 | 3 => 1 | 4 => 1 | 5 => 825 | 6 => 1 | 7 => 1 | 8 => 400 | 9 => 400 | 10 => 400
  | 11 => 448 | 12 => 512 | 13 => 400 | 14 => 8 | 15 => 256 | 16 => 16 | 17 => 64 | 18 => 8 | 19 => 97 | 20 => 16
  | 21 => 64 | 22 => 4 | 23 => 6 | 24 => 12 | 25 => 1 | 26 => 1 | 27 => 2 | 28 => 1 | 29 => 16 | 30 => 1
  | _ => 0

/-- Default access class of a class of pages (R43): 0 HOST-PRIV, 1 MGMT-ONLY, 2 ROT-ONLY. -/
def classAccess : Nat → Nat
  | 2 => 1 | 3 => 1 | 4 => 1 | 7 => 1 | 23 => 1 | 29 => 1 | 28 => 2 | 30 => 2
  | _ => 0

/-- The register fields of a page's block registers, by class and instance. -/
def blockRows (p : Nat) : List FldRow :=
  let i := pgInst p
  match pgCls p with
  | 0 => PgGLB.rows
  | 1 => if i = 0 then PgFPD0.rows else if i = 8 then PgFPD8.rows else []
  | 2 => PgLCS.rows
  | 3 => PgROT.rows
  | 4 => PgMGT.rows
  | 5 => PgPWR.rows
  | 6 => PgSAF.rows
  | 7 => PgTST.rows
  | 8 => PgHNK.rows
  | 9 => PgBOB.rows
  | 10 => PgSKN.rows
  | 11 => PgMSH.rows
  | 12 => if i ≤ 490 then PgTOL.rows else if 496 ≤ i then PgTSH.rows else []
  | 13 => PgCOH.rows
  | 14 => PgHBM.rows
  | 15 => PgHCH.rows
  | 16 => PgTIR.rows
  | 17 => PgITN.rows
  | 18 => PgSCR.rows
  | 19 => if i = 0 then PgATU.rows else if i ≤ 86 then PgATC.rows else []
  | 20 => PgDSP.rows
  | 22 => PgSIT.rows
  | 23 => PgFAB.rows
  | 24 => PgMIL.rows
  | 25 => PgCOL.rows
  | 26 => PgHEP.rows
  | 27 => PgETH.rows
  | 28 => PgKEY.rows
  | 29 => PgPRT.rows
  | 30 => PgDBG.rows
  | _ => []

/-- The field of an array row that lies in the register at a byte offset. -/
def FldRow.at? (r : FldRow) (off : Nat) : Option Fld :=
  if off < r.fld.off then none
  else if r.stride = 0 then (if off = r.fld.off then some r.fld else none)
  else
    let d := off - r.fld.off
    if d % r.stride = 0 && d / r.stride < r.count then some { r.fld with off := off } else none

/-- The fields of the register at a byte offset (a multiple of 8) of a page.
[DESIGN CHOICE, log entry 26] -/
def fieldsAt (p off : Nat) : List Fld :=
  (if off < 0x100 then PgHDR.rows else blockRows p).filterMap (fun r => r.at? off)

/-- The reset value of a register of a page: the tables', with OWNER's access class by class (R43) and the tollgates'
DEFAULT_CLASS by master (11_mesh_and_regulation.md R339).
[DESIGN CHOICE, log entries 10, 12, 46] -/
def resetWord (p off : Nat) : Word :=
  let base := (fieldsAt p off).foldl (fun n f => n + f.reset <<< f.lo) 0
  if off = 0x68 then BitVec.ofNat 64 (base + classAccess (pgCls p))
  else BitVec.ofNat 64 base

/-- The page that holds a register shared across pages: TOPO, DIR_PORTS0, DIR_PORTS1 and E2E of the FAB pages
(14_fabric_links.md R452). -/
def homePage (p off : Nat) : Nat :=
  if pgCls p = cFAB && 0x108 ≤ off && off ≤ 0x120 then pg cFAB 0 else p

/-- The key of a register in State.regs.
[DESIGN CHOICE, log entry 12] -/
def regKey (p off : Nat) : Nat := p * 512 + off / 8

/-- The stored value of a register (a STAGED register: its shadow, R69).
[DESIGN CHOICE, log entry 12] -/
def State.word (s : State) (p off : Nat) : Word :=
  NMap.getD s.regs (resetWord (homePage p off) off) (regKey (homePage p off) off)

/-- Stores a register. -/
def State.setWord (s : State) (p off : Nat) (v : Word) : State :=
  { s with regs := NMap.put s.regs (resetWord (homePage p off) off) (regKey (homePage p off) off) v }

/-- The value of a field. -/
def State.fld (s : State) (p : Nat) (f : Fld) : Nat := natBits (s.word p f.off).toNat f.hi f.lo

/-- A one-bit field as a Bool. -/
def State.flag (s : State) (p : Nat) (f : Fld) : Bool := decide (s.fld p f ≠ 0)

/-- Stores a field. -/
def State.setFld (s : State) (p : Nat) (f : Fld) (v : Nat) : State :=
  s.setWord p f.off (BitVec.ofNat 64 (natSetBits (s.word p f.off).toNat f.hi f.lo v))

/-- The active copy of a STAGED register (R69).
[DESIGN CHOICE, log entry 12] -/
def State.actWord (s : State) (p off : Nat) : Word := NMap.getD s.active (resetWord p off) (regKey p off)

/-- The value of a field in the active copy. -/
def State.actFld (s : State) (p : Nat) (f : Fld) : Nat := natBits (s.actWord p f.off).toNat f.hi f.lo

/-- A one-bit field of the active copy as a Bool. -/
def State.actFlag (s : State) (p : Nat) (f : Fld) : Bool := decide (s.actFld p f ≠ 0)

/-- Stores an active copy. -/
def State.setActWord (s : State) (p off : Nat) (v : Word) : State :=
  { s with active := NMap.put s.active (resetWord p off) (regKey p off) v }

/-- Adds to a counter field, which saturates at all ones (24_limits.md, Wrapping identifiers). -/
def State.count (s : State) (p : Nat) (f : Fld) (k : Nat) : State :=
  s.setFld p f (satAdd (2 ^ (f.hi + 1 - f.lo) - 1) (s.fld p f) k)

/-- Sends a message.
[DESIGN CHOICE, log entry 8] -/
def State.emit (s : State) (m : Out) : State := { s with out := s.out ++ [m] }

/-- Sends a message if a condition holds. -/
def State.emitIf (s : State) (b : Bool) (m : Out) : State := if b then s.emit m else s

/-- The hub's tick counter (01_anatomy.md R37; 15_milestone_schedule.md R463). -/
def State.tick (s : State) : Nat := s.fld pGLB PgGLB.TICK_NOW_TICK

/-- Takes a fresh free value.
[DESIGN CHOICE, log entries 42, 68, 207] -/
def State.fresh (s : State) : Word × State := (Config.freeValue s.freeCtr, { s with freeCtr := s.freeCtr + 1 })

/-! ### Capabilities (R53-R55) -/

/-- PAGE_CAP bits [7:0] of a page, as its chapter states them: 0 HAS_INT, 1 IN_SERVICE_TEST, 2 FENCEABLE, 3 HAS_RST,
4 HAS_PWR, 5 HAS_FIXED, 6 HAS_QUIESCE, 7 HAS_STAGED. -/
def capBits (p : Nat) : Nat :=
  let i := pgInst p
  match pgCls p with
  | 0 => 0x01
  | 1 => if i = 0 then 0x01 else 0
  | 2 => 0x01
  | 3 => 0x01
  | 4 => 0x01
  | 5 => if i ≤ 819 then 0x11 else 0x01
  | 6 => 0x01
  | 7 => 0x01
  | 8 => 0x5F
  | 9 => 0x40
  | 10 => 0xDF
  | 11 => 0x05
  | 12 => if i ≤ 490 then 0x01 else 0
  | 13 => 0x01
  | 14 => 0x11
  | 15 => 0x03
  | 16 => 0x81
  | 17 => 0x01
  | 18 => 0x01
  | 19 => if i = 0 then 0x01 else 0
  | 20 => 0x81
  | 22 => 0xDF
  | 23 => 0x5F
  | 24 => 0x81
  | 25 => 0x01
  | 26 => 0x81
  | 27 => 0x55
  | 29 => 0x40
  | _ => 0

/-- PAGE_CAP.BLK_LEN of a page (R51), as its chapter states it; GLB and MGT reach to their last register.
[DEDUCED, log entry 199] -/
def blkLen (p : Nat) : Nat :=
  let i := pgInst p
  match pgCls p with
  | 0 => 13
  | 1 => match i with
    | 0 => 54 | 1 => 400 | 2 => 400 | 3 => 400 | 4 => 264 | 5 => 16 | 6 => 256 | 7 => 256 | 8 => 65 | _ => 0
  | 2 => 36 | 3 => 480 | 4 => 86 | 5 => 4 | 6 => 352 | 7 => 2 | 8 => 5 | 9 => 2 | 10 => 27 | 11 => 4
  | 12 => if i ≤ 490 then 10 else if 496 ≤ i then 4 else 0
  | 13 => 5 | 14 => 4 | 15 => 5 | 16 => 36 | 17 => 5 | 18 => 5
  | 19 => if i = 0 then 12 else if i ≤ 86 then 4 else 0
  | 20 => 160 | 22 => 36 | 23 => 19 | 24 => 7 | 25 => 5 | 26 => 184 | 27 => 13 | 28 => 16 | 29 => 10 | 30 => 4
  | _ => 0

/-- PAGE_CAP.BLK_CAP of a page: bobbin capacities (04 The bobbins), Skein gather slots and ways (R229), real-time masters
(11, Tollgates), site functions and channels (R414); 0 elsewhere. -/
def blkCap (p : Nat) : Nat :=
  let i := pgInst p
  match pgCls p with
  | 9 => 4 <<< 8 + 8
  | 10 => 4 <<< 8 + 16
  | 12 => b2n (decide (468 ≤ i) && decide (i ≤ 476))
  | 22 => 8 <<< 8 + 64
  | _ => 0

/-- A capability bit. -/
def hasCap (p bit : Nat) : Bool := natBit (capBits p) bit
def capInt : Nat := 0
def capTest : Nat := 1
def capFence : Nat := 2
def capRst : Nat := 3
def capPwr : Nat := 4
def capFixed : Nat := 5
def capQuiesce : Nat := 6
def capStaged : Nat := 7

/-! ### Page state (R55, R56, R63) -/

/-- PAGE_STATE.STATE codes (R56). -/
def stOFF : Nat := 0
def stRESET : Nat := 1
def stIDLE : Nat := 2
def stBUSY : Nat := 3
def stQUIESCING : Nat := 4
def stFENCED : Nat := 5
def stFAULTED : Nat := 6

/-- PAGE_STATE.STATE of a page. -/
def State.pageState (s : State) (p : Nat) : Nat := s.fld p PgHDR.PAGE_STATE_STATE

/-- OWNER.PARTITION of a page (31 device-wide). -/
def State.ownerPart (s : State) (p : Nat) : Nat := s.fld p PgHDR.OWNER_PARTITION

/-- OWNER.ACCESS_CLASS of a page. -/
def State.accessClass (s : State) (p : Nat) : Nat := s.fld p PgHDR.OWNER_ACCESS_CLASS

/-! ### MSI-X (16_host_endpoint.md R499, R507, R508, R510) -/

/-- D3hot of the function (R508). -/
def State.d3hot (s : State) : Bool := decide (s.fld pHEP PgHEP.LINK_STATUS_DSTATE = 3)
/-- The data link is up. -/
def State.dlUp (s : State) : Bool := s.flag pHEP PgHEP.LINK_STATUS_DL_UP

/-- The link carries memory requests of the hub: up, Bus Master Enable set, not D3hot (R507, R508, R513). -/
def State.hostOpen (s : State) : Bool := s.dlUp && s.host.bme && !s.d3hot

/-- An address that the owner policy lets leave the hub (19_trust_and_tenancy.md R571): with IDE_REQUIRED, one inside an active stream's
address association. -/
def State.inStream (s : State) (addr : Nat) : Bool :=
  match s.rot.owner with
  | some o => !o.policy.ideRequired || s.rot.ide.any (fun e => e.2.go.isSome && e.2.assoc.any (fun r => decide (r.1 ≤ addr) && decide (addr ≤ r.2)))
  | none => true

/-- A memory request of the hub to an address may leave now (R507, R571). -/
def State.mayLeave (s : State) (addr : Nat) : Bool := s.hostOpen && s.inStream addr

/-- A vector of the table. -/
def State.vec (s : State) (v : Nat) : MsixVec := NMap.getD s.host.msix {} v

/-- Writes a vector of the table.
[DEDUCED, log entry 37] -/
def State.setVec (s : State) (v : Nat) (x : MsixVec) : State :=
  { s with host := { s.host with msix := NMap.put s.host.msix {} v x } }

/-- Makes a vector pending; the first one to become pending in D3hot with PME_En sends PM_PME (R510). -/
def State.pendVec (s : State) (v : Nat) : State :=
  let first := !(s.host.msix.any (fun e => e.2.pend))
  let s1 := s.setVec v { s.vec v with pend := true }
  if s.d3hot && s.host.pmeEn && first then
    { s1 with host := { s1.host with pmeStatus := true } }.emit .pmPme
  else s1

/-- The message of a vector leaves, or the vector becomes pending (R499).
[DEDUCED, log entry 198] -/
def State.sendVector (s : State) (v : Nat) : State :=
  let x := s.vec v
  if x.mask || s.host.funcMask || !s.host.msixEn || !s.mayLeave x.addr then s.pendVec v
  else
    let h := s.host
    let q : HostReq := { id := h.nextReq, kind := .msix, pasid := v, addr := x.addr }
    ({ s with host := { h with nextReq := h.nextReq + 1, posted := h.posted ++ [q] } } : State).emit (.msix v x.addr x.data)

/-! ### Interrupts (R57, R58, R500) -/

/-- A page asserts its interrupt while INT_STATUS AND INT_ENABLE is non-zero (R58). -/
def State.asserts (s : State) (p : Nat) : Bool := decide (s.word p 0x30 &&& s.word p 0x38 ≠ 0)

/-- Delivery of a page interrupt (R500): to the host by the class's route while the page is HOST-PRIV, else to management;
HEP interrupts reach management only while the link is down (R518). -/
def State.deliverIrq (s : State) (p : Nat) : State :=
  let c := pgCls p
  if s.accessClass p ≠ 0 || (c = cHEP && !s.dlUp) then s.emit (.mgmtIrq p)
  else if s.flag pHEP (PgHEP.INT_ROUTE_EN c) then s.sendVector (s.fld pHEP (PgHEP.INT_ROUTE_VECTOR c))
  else s

/-- Changes INT_STATUS or INT_ENABLE and delivers when the page goes from not asserting to asserting (R500).
[DEDUCED, log entry 14] -/
def State.withIrq (s : State) (p : Nat) (f : State → State) : State :=
  let s1 := f s
  if !s.asserts p && s1.asserts p then s1.deliverIrq p else s1

/-- Sets a bit of INT_STATUS (R57). A page without HAS_INT keeps the bit too; it asserts nothing, since its INT_ENABLE stays 0 (R55).
[DEDUCED, log entry 14] -/
def State.setInt (s : State) (p bit : Nat) : State :=
  s.withIrq p (fun s => s.setWord p 0x30 (s.word p 0x30 ||| BitVec.ofNat 64 (2 ^ bit)))

/-- INT_STATUS bits of every page (R57). -/
def iERR : Nat := 63
def iSTATE_CHG : Nat := 62
def iCOMMIT_DONE : Nat := 61

/-- Bits of PAGE_ERR (R56). -/
inductive PErr where
  | qwrite | order | access | parity
  deriving DecidableEq, Repr

def PErr.bit : PErr → Nat
  | .qwrite => 0 | .order => 1 | .access => 2 | .parity => 3

def Requester.code : Requester → Nat
  | .host => 0 | .mgmt => 1 | .rot => 2 | .hub => 3

/-- Sets a bit of PAGE_ERR; captures FIRST_SRC and FIRST_OFF when none was set (R57), and raises ERR when the bit goes from
0 to 1.
[DEDUCED, log entry 16] -/
def State.pageErr (s : State) (p : Nat) (e : PErr) (src : Requester) (off : Nat) : State :=
  let w := (s.word p 0x28).toNat
  let w1 := if natBits w 3 0 = 0 then natSetBits (natSetBits w 31 30 (Requester.code src)) 27 16 off else w
  let s1 := s.setWord p 0x28 (BitVec.ofNat 64 (natSetBits w1 e.bit e.bit 1))
  if natBit w e.bit then s1 else s1.setInt p iERR

/-- ORDER set by a write of a requester. -/
def State.order (s : State) (p : Nat) (src : Requester) (off : Nat) : State := s.pageErr p .order src off

/-- Moves a page to a state; entering FENCED or FAULTED raises STATE_CHG (R57), FAULTED sets FENCE (R56) where the page has it (R55); BOB n
follows HNK n (04_spindle_array.md R124). -/
def State.setState (s : State) (p st : Nat) : State :=
  let old := s.pageState p
  let s0 := s.setFld p PgHDR.PAGE_STATE_STATE st
  let s1 := if pgCls p = cHNK then s0.setFld (pg cBOB (pgInst p)) PgHDR.PAGE_STATE_STATE st else s0
  let s2 := if st = stFAULTED && hasCap p capFence then s1.setFld p PgHDR.PAGE_CTRL_FENCE 1 else s1
  if st ≠ old && (st = stFENCED || st = stFAULTED) then s2.setInt p iSTATE_CHG else s2

/-! ### Commits (R69, R70) -/

/-- A commit completes (R69): COMMIT_SEQ goes on, COMMIT_BUSY and STAGED_PENDING clear, COMMIT_DONE is raised. -/
def State.commitDone (s : State) (p : Nat) : State :=
  (((s.setFld p PgHDR.PAGE_COMMIT_COMMIT_SEQ ((s.fld p PgHDR.PAGE_COMMIT_COMMIT_SEQ + 1) % 2 ^ 32)).setFld p PgHDR.PAGE_STATE_COMMIT_BUSY
    0).setFld p PgHDR.PAGE_STATE_STAGED_PENDING 0).setInt p iCOMMIT_DONE

/-- A commit whose content is refused completes all the same (R70): the active copies stay, ORDER is set. -/
def State.commitRefuse (s : State) (p : Nat) : State := (s.commitDone p).order p .hub 0x20

/-- Every STAGED register of a page passes from shadow to active (R69). -/
def State.copyStaged (s : State) (p : Nat) : State :=
  ((blockRows p).filter (fun r => r.fld.cls = .staged)).foldl (fun s r =>
    (List.range r.count).foldl (fun s k => s.setActWord p (r.fld.off + k * r.stride) (s.word p (r.fld.off + k * r.stride))) s) s

/-- DBG halts a page (18_life_cycle.md R551): its target, and the hank controller, Dispatcher or schedule engine that drives the target.
[DEDUCED, log entry 139] -/
def State.haltedPage (s : State) (p : Nat) : Bool :=
  let c := s.fld pDBG PgDBG.CTRL_CLASS
  let i := s.fld pDBG PgDBG.CTRL_INSTANCE
  s.flag pDBG PgDBG.CTRL_HALT && !s.tap.step && (p = pg c i || (c = cBOB && p = pg cHNK i) || ((c = cHNK || c = cDMA) && pgCls p = cDSP) ||
    ((c = cCOL || c = cFAB) && pgCls p = cMIL))

/-- A region has stopped its handshakes on a margin fault (01_anatomy.md R29), or, a hank, on a FATAL THERMAL or VOLTAGE event
(22_fault_detection.md R619). -/
def State.stopped (s : State) (p : Nat) : Bool :=
  (NMap.getD s.dmm {} p).stopped || (pgCls p = cHNK && (s.saf.fatal.contains 0x0A || s.saf.fatal.contains 0x0B))

/-- A unit of work starts: IDLE goes to BUSY while ENABLE = 1 and QUIESCE_REQ = 0 (R63) and DBG does not halt the block. -/
def State.workStart (s : State) (p : Nat) : State :=
  if s.pageState p = stIDLE && !s.haltedPage p && s.flag p PgHDR.PAGE_CTRL_ENABLE && !s.flag p PgHDR.PAGE_CTRL_QUIESCE_REQ then
    ({ s with tap := { s.tap with step := s.tap.step && !decide (p = pg (s.fld pDBG PgDBG.CTRL_CLASS) (s.fld pDBG PgDBG.CTRL_INSTANCE)) } } : State).setState
      p stBUSY
  else s

/-- The last unit of work ends: BUSY and QUIESCING go to IDLE (R63). -/
def State.workEnd (s : State) (p : Nat) : State :=
  if s.pageState p = stBUSY || s.pageState p = stQUIESCING then s.setState p stIDLE else s

/-- The page is IDLE or BUSY as its block has work. -/
def State.workSet (s : State) (p : Nat) (busy : Bool) : State := if busy then s.workStart p else s.workEnd p

/-- The power domain a page belongs to; GLB, FPD, LCS, SAF, TST, KEY, PRT and DBG lie with core services, management or the ROT and have
none of their own. -/
def pageDom (p : Nat) : Option Nat :=
  let i := pgInst p
  match pgCls p with
  | 8 => some i | 9 => some i
  | 10 => some (400 + i) | 13 => some (400 + i)
  | 22 => some (800 + i)
  | 14 => some (804 + i) | 18 => some (804 + i) | 15 => some (804 + i / 32)
  | 23 => some (812 + i) | 24 => some (812 + i / 2)
  | 27 => some (818 + i)
  | 26 => some 820
  | 20 => some 821 | 19 => some 821 | 21 => some 821 | 25 => some 821 | 17 => some 821 | 16 => some 821
  | 11 => some 822 | 12 => some 822
  | 4 => some 823 | 3 => some 823
  | 5 => some i
  | _ => none

/-- The page's power domain runs no entry or exit (20_power_domains.md R577): an entry quiesces its pages as QUIESCE_REQ does. -/
def State.domSteady (s : State) (p : Nat) : Bool :=
  match pageDom p with
  | some d => s.fld (pg cPWR d) PgPWR.STATUS_PHASE = 0
  | none => true

/-- The page takes new work: IDLE or BUSY, ENABLE = 1, QUIESCE_REQ = 0 (R63).
[DEDUCED, log entry 110] -/
def State.accepts (s : State) (p : Nat) : Bool :=
  (s.pageState p = stIDLE || s.pageState p = stBUSY) && s.flag p PgHDR.PAGE_CTRL_ENABLE
    && !s.flag p PgHDR.PAGE_CTRL_QUIESCE_REQ && s.domSteady p && !s.haltedPage p && !s.stopped p

/-! ### Host-link issue (16_host_endpoint.md R501, R507, R513) -/

/-- Writes the held-request count (HEP.BME.HELD_NOW). -/
def State.syncHeld (s : State) : State := s.setFld pHEP PgHEP.BME_HELD_NOW (min 0xFFFF s.host.held.length)

/-- A TLP leaves, arrives: counted in units of 1,024 (HEP.PERF0). -/
def State.txTlp (s : State) : State :=
  if s.host.txTlp = 1023 then { s with host := { s.host with txTlp := 0 } }.count pHEP PgHEP.PERF0_TX_KTLP 1
  else { s with host := { s.host with txTlp := s.host.txTlp + 1 } }
def State.rxTlp (s : State) : State :=
  if s.host.rxTlp = 1023 then { s with host := { s.host with rxTlp := 0 } }.count pHEP PgHEP.PERF0_RX_KTLP 1
  else { s with host := { s.host with rxTlp := s.host.rxTlp + 1 } }

/-- Sends a request on the link and keeps it until it completes or is acknowledged. -/
def State.hostSend (s : State) (q : HostReq) : State :=
  let h := s.host
  let h1 := match q.kind with
    | .write | .msix => { h with posted := h.posted ++ [q] }
    | .pageReq => h
    | _ => { h with reads := h.reads ++ [q] }
  ({ s with host := h1 }.emit (.hostReq q)).txTlp.workStart pHEP

/-- A host-path request is ready: it leaves, or is held in issue order (R507 item 3); Page Requests are not governed by Bus
Master Enable. Reads beyond 1,024 outstanding wait at the endpoint (R490). -/
def State.hostIssue (s : State) (kind : HostReqKind) (task : Option TaskId) (pasid addr : Nat) (untr relaxed : Bool)
    (data : List Byte) (back : Option (Nat × Nat) := none) (pois : Nat := 0) : State :=
  let q : HostReq := ⟨s.host.nextReq, kind, task, pasid, addr, untr, relaxed, data, back, pois⟩
  let s1 := { s with host := { s.host with nextReq := s.host.nextReq + 1 } }
  let free := match kind with
    | .pageReq => s.dlUp
    | .read | .flush => s.mayLeave addr && s.host.held.all (fun h => !s.inStream h.addr) && decide (s.host.reads.length < 1024)
    | _ => s.mayLeave addr && s.host.held.all (fun h => !s.inStream h.addr)
  if free then s1.hostSend q
  else
    let s2 := { s1 with host := { s1.host with held := s1.host.held ++ [q] } }.syncHeld
    s2.setInt pHEP 3

/-- The peer aperture a host physical address lies in (R503). -/
def State.peerOf (s : State) (addr : Nat) : Option Nat :=
  (List.range 8).find? (fun a =>
    let b := s.fld pHEP (PgHEP.PEER_BASE_BASE a) * 0x200000
    s.flag pHEP (PgHEP.PEER_BASE_ENABLE a) && decide (b ≤ addr) && decide (addr < b + s.fld pHEP (PgHEP.PEER_LEN_LEN a) * 0x200000))

/-- A write of a partition on the host link: a translated one into a peer aperture is a peer write, every other a host-memory write; a
later fence flushes the last of each (R502, R503). -/
def State.hostWrite (s : State) (part : Nat) (task : Option TaskId) (pasid addr : Nat) (untr relaxed : Bool) (data : List Byte)
    (back : Option (Nat × Nat) := none) (pois : Nat := 0) : State :=
  let h := s.host
  let h1 := match (if untr then none else s.peerOf addr) with
    | some a => { h with peerW := NMap.insert h.peerW (8 * part + a) (pasid, addr, untr) }
    | none => { h with lastW := NMap.insert h.lastW part (pasid, addr, untr) }
  ({ s with host := h1 } : State).hostIssue .write task pasid addr untr relaxed data back pois

/-- A zero-length read to a noted write, behind it (R502). -/
def State.flushAt (s : State) (w : Option (Nat × Nat × Bool)) (task : Option TaskId) (back : Option (Nat × Nat)) : State :=
  match w with
  | none => s
  | some (pasid, addr, untr) => s.hostIssue .flush task pasid addr untr false [] back

/-- The flush of a partition's host-memory writes. -/
def State.flushLast (s : State) (part : Nat) (task : Option TaskId) (back : Option (Nat × Nat) := none) : State :=
  s.flushAt (NMap.find? s.host.lastW part) task back

/-- A request of the host that cannot be served is logged, if no entry stands, and counted (16_host_endpoint.md R496). -/
def State.closedLog (s : State) (kind off reqId : Nat) (posted : Bool) : State :=
  let s1 := if s.flag pHEP PgHEP.CLOSED_LOG_VALID then s
    else ((((s.setFld pHEP PgHEP.CLOSED_LOG_VALID 1).setFld pHEP PgHEP.CLOSED_LOG_POSTED (b2n posted)).setFld pHEP PgHEP.CLOSED_LOG_KIND
      kind).setFld pHEP PgHEP.CLOSED_LOG_REQ_ID reqId).setFld pHEP PgHEP.CLOSED_LOG_OFFSET off
  ((if posted then s1.count pHEP PgHEP.CLOSED_CNT_P_DROPPED 1 else s1.count pHEP PgHEP.CLOSED_CNT_NP_REFUSED 1)).setInt pHEP 2

/-- A memory request of the host can reach the BARs: the link is up, Memory Space Enable is set, the function is not in D3hot (R494), and the
hub has answered ready (R516). -/
def State.hostReach (s : State) : Bool := s.dlUp && s.host.mse && !s.d3hot && s.host.drsSent

/-- With IDE_REQUIRED and no active stream, a TLP of the host arrives outside one (19_trust_and_tenancy.md R571).
[DEDUCED, log entry 128] -/
def State.ideShut (s : State) : Bool :=
  match s.rot.owner with
  | some o => o.policy.ideRequired && !s.rot.ide.any (fun e => e.2.go.isSome)
  | none => false

/-- A write of the host to BAR0 or BAR2 is let in: while the BARs are closed it is dropped (R494); outside an active stream where the owner
requires one it is a closed range (19_trust_and_tenancy.md R571). -/
def State.hostIn (s : State) (k : State → State) : State :=
  if !s.hostReach then s
  else if s.ideShut then s.rxTlp.closedLog 0 0 0 true
  else k s.rxTlp

/-! ### Events (22_fault_detection.md R621-R628) -/

/-- Event causes (R625). -/
def evECC : Nat := 0x01
def evTRANSIENT : Nat := 0x02
def evLASTING : Nat := 0x03
def evPOISON : Nat := 0x04
def evREPAIRED : Nat := 0x05
def evPARITY : Nat := 0x06
def evLOCKSTEP : Nat := 0x07
def evWATCHDOG : Nat := 0x08
def evMARGIN : Nat := 0x09
def evTHERMAL : Nat := 0x0A
def evVOLTAGE : Nat := 0x0B
def evSLICE_LOST : Nat := 0x0C
def evMESH_FATAL : Nat := 0x0D
def evSTORE_UE : Nat := 0x0E
def evLATENT : Nat := 0x0F
def evFW_FALLBACK : Nat := 0x10
def evSECURITY : Nat := 0x11
def evRESET : Nat := 0x12
def evOTP_FAIL : Nat := 0x13
def evBELOW_MIN : Nat := 0x14

/-- An event about a page's unit, not suspect, at the present tick. -/
def State.ev (s : State) (sev : Severity) (cause sub p part detail addr : Nat) : EvRec :=
  ⟨sev, cause, sub, false, pgCls p, part, pgInst p, detail, addr, s.tick⟩

/-- FAULT_N is driven (R623). -/
def State.faultN (s : State) : State :=
  if s.flag pSAF PgSAF.STATUS_FAULT_N then s else (s.setFld pSAF PgSAF.STATUS_FAULT_N 1).emit (.faultN true)

/-- Severity codes (R621). -/
def Severity.code : Severity → Nat
  | .corrected => 0 | .deferred => 1 | .contained => 2 | .fatal => 3

/-- An event record as four words of 8 bytes (R624). -/
def EvRec.words (e : EvRec) (seq : Nat) (phase lost : Bool) : List Nat :=
  let flags := b2n phase + 2 * b2n lost + 4 * b2n e.suspect
  [seq % 2 ^ 32 + e.sev.code <<< 32 + (e.cause % 256) <<< 40 + (e.sub % 256) <<< 48 + flags <<< 56,
   e.cls % 32 + (e.part % 256) <<< 8 + (e.inst % 65536) <<< 16 + (e.detail % 2 ^ 32) <<< 32,
   e.addr % 2 ^ 64, e.tick % 2 ^ 64]

/-- A PASID a ring may write under: bound to partition r, for ring 16 any bound one (R629).
[DEDUCED, log entry 130] -/
def State.ringCtx (s : State) (r pasid : Nat) : Bool :=
  s.atu.ctx.any (fun e => match e.2 with | some c => decide (c.pasid = pasid) && (r = 16 || c.part = r) | none => false)

/-- An event is to be written to an enabled ring (R626); its entry is placed when the ring's turn comes (State.ringsGo). -/
def State.ringPut (s : State) (r : Nat) (e : EvRec) : State :=
  if !s.flag pSAF (PgSAF.RING_CFG_EN r) then s else { s with saf := { s.saf with ringQ := s.saf.ringQ ++ [(r, e)] } }

/-- The oldest event of a ring that still waits to be written; it leaves. -/
def State.ringNext (s : State) (r : Nat) : Option EvRec := (s.saf.ringQ.find? (fun x => x.1 = r)).map Prod.snd
def State.ringTake (s : State) (r : Nat) : State := { s with saf := { s.saf with ringQ := s.saf.ringQ.eraseP (fun x => x.1 = r) } }

/-- What a ring still owes is dropped, the entry whose address is being translated with it.
[DESIGN CHOICE, log entry 246] -/
def State.ringDrop (s : State) (r : Nat) : State :=
  { s with saf := { s.saf with ringQ := s.saf.ringQ.filter (fun x => x.1 ≠ r) }, xwaits := s.xwaits.filter (fun w => w.use_ ≠ .ring r) }

/-- A ring has no room (R626). -/
def State.ringFull (s : State) (r : Nat) : Bool :=
  (s.fld pSAF (PgSAF.RING_HEAD_HEAD r) + 2 ^ 32 - s.fld pSAF (PgSAF.RING_TAIL_TAIL r)) % 2 ^ 32 = 2 ^ s.fld pSAF (PgSAF.RING_CFG_LOG2_SIZE r)

/-- An event finds its ring full, or its entry's address does not translate (R626): it is lost, and the next entry says so. -/
def State.ringLose (s : State) (r : Nat) : State :=
  let s1 := ((s.ringTake r).count pSAF (PgSAF.RING_HEAD_LOST r) 1).setInt pSAF 5
  { s1 with saf := { s1.saf with ringLost := if s1.saf.ringLost.contains r then s1.saf.ringLost else s1.saf.ringLost ++ [r] } }

/-- An event enters the management queue (R628, R630): 256 events, then OVERFLOW. -/
def State.evqPut (s : State) (e : EvRec) : State :=
  if 256 ≤ s.saf.evq.length then
    let s1 := (s.count pMGT PgMGT.EVQ_STATUS_OVERFLOW 1).setInt pMGT 2
    { s1 with saf := { s1.saf with evqLost := true } }
  else
    let en : EvqEntry := ⟨s.saf.evqSeq, s.saf.evqLost, e⟩
    let s1 := { s with saf := { s.saf with evq := s.saf.evq ++ [en], evqSeq := (s.saf.evqSeq + 1) % 2 ^ 32,
                                            evqLost := false } }
    s1.setInt pMGT 1

/-- The effects of a FATAL event that the reporting path has itself (R622, R623): SAF.STATUS latches the first, dispatch and
completion records stop, FAULT_N is driven. -/
def State.fatalLatch (s : State) (e : EvRec) : State :=
  let s1 := if s.flag pSAF PgSAF.STATUS_FATAL_ACTIVE then s else
    (((s.setFld pSAF PgSAF.STATUS_FATAL_ACTIVE 1).setFld pSAF PgSAF.STATUS_FIRST_CLASS e.cls).setFld pSAF
      PgSAF.STATUS_FIRST_INST e.inst).setFld pSAF PgSAF.STATUS_FIRST_CAUSE e.cause
  let fc := if s1.saf.fatal.contains e.cause then s1.saf.fatal else s1.saf.fatal ++ [e.cause]
  let s2 := { s1 with saf := { s1.saf with stopped := true, fatal := fc } }
  s2.faultN

/-- Counts an event's severity and sets SAF INT_STATUS (R621, R629). -/
def State.sevCount (s : State) : Severity → State
  | .corrected => s.count pSAF PgSAF.SEV_COUNT0_CORRECTED 1
  | .deferred => (s.count pSAF PgSAF.SEV_COUNT0_DEFERRED 1).setInt pSAF 2
  | .contained => (s.count pSAF PgSAF.SEV_COUNT1_CONTAINED 1).setInt pSAF 1
  | .fatal => (s.count pSAF PgSAF.SEV_COUNT1_FATAL 1).setInt pSAF 0

/-- Records an event (R626): rings, management queue, severity counters, FAULT_N (R623). `first`: the first event at its
location (R276), which a CORRECTED event needs to reach the rings. -/
def State.report (s : State) (first : Bool) (e : EvRec) : State :=
  let toRings := decide (s.accessClass (pg e.cls e.inst) = 0) &&
    (decide (e.sev ≠ .corrected) || (first && s.flag pSAF PgSAF.FAULT_CFG_RING_CE))
  let s1 := s.sevCount e.sev
  let s2 := if toRings then (if e.part < 16 then s1.ringPut e.part e else s1).ringPut 16 e else s1
  let s3 := s2.evqPut e
  let s4 := if e.sev = .fatal then s3.fatalLatch e else s3
  if (e.sev = .deferred && s.flag pSAF PgSAF.FAULT_CFG_ON_DEFERRED)
      || (e.cause = evLASTING && s.flag pSAF PgSAF.FAULT_CFG_ON_LASTING)
      || (e.cause = evSECURITY && s.flag pSAF PgSAF.FAULT_CFG_ON_SECURITY) then s4.faultN
  else s4

/-- A transient fault of a page's unit: counted and reported CORRECTED (R620). -/
def State.transient (s : State) (p sub detail : Nat) : State :=
  (s.count p PgHDR.ERR_COUNT_TRANSIENT 1).report true (s.ev .corrected evTRANSIENT sub p (s.ownerPart p) detail 0)

/-- An in-service test ends (R633, R634): TST holds its result. -/
def State.testOver (s : State) (result detail : Nat) : State :=
  let s1 : State := { s with saf := { s.saf with tst := none } }
  let r := s1.fresh
  ((((r.2.setFld pTST PgTST.CMD_BUSY 0).setFld pTST PgTST.CMD_RESULT result).setFld pTST PgTST.STATUS_DETAIL detail).setFld pTST
    PgTST.STATUS_DURATION_US (r.1.toNat % 2 ^ 32)).setInt pTST 0

/-- A task's failure is counted as CONTAINED (R621, R629): completion records and counters only. -/
def State.taskFailCount (s : State) : State := s.count pSAF PgSAF.SEV_COUNT1_CONTAINED 1

/-- The key of a task in the tables of the Dispatcher. -/
def taskKey (t : TaskId) : Nat := t.queue * 2 ^ 32 + t.index

/-- An engine or home reports a status against a task; the first report of a task stands (06_task_graphs.md R187). -/
def State.taskErr (s : State) (t : Option TaskId) (code : Nat) : State :=
  match t with
  | none => s
  | some t => if NMap.getD s.taskErrs 0 (taskKey t) = 0 then { s with taskErrs := NMap.put s.taskErrs 0 (taskKey t) code } else s

/-! ### Task status codes (06_task_graphs.md R187) -/
def tsOK : Nat := 0x00
def tsPRED_FAILED : Nat := 0x01
def tsCANCELLED : Nat := 0x02
def tsBME_OFF : Nat := 0x03
def tsHOST_LOST : Nat := 0x04
def tsTIMEOUT : Nat := 0x05
def tsPOISON : Nat := 0x06
def tsXLATE_REFUSED : Nat := 0x07
def tsTILE_TOO_LARGE : Nat := 0x08
def tsFIXED_SET_LOST : Nat := 0x09
def tsHSET_EMPTY : Nat := 0x0A
def tsTIER_FAIL : Nat := 0x0B
def tsSITE_ERROR : Nat := 0x0C
def tsFABRIC_ERROR : Nat := 0x0D
def tsKEY_BUSY : Nat := 0x0E
def tsPLY_INVALID : Nat := 0x0F
def tsEVENT_INVALID : Nat := 0x10
def tsACCESS : Nat := 0x11
def tsSLICE_LOST : Nat := 0x12
def tsTASK_FORMAT : Nat := 0x20
def tsTASK_CHECK : Nat := 0x21
def tsSUCC_FAULT : Nat := 0x22
def tsRING_FAULT : Nat := 0x23
def tsOVERRUN : Nat := 0x24
def tsCOUNT_ERROR : Nat := 0x25

end Sys2Proof.Machine
end

