-- ==== Sys2Proof/Machine/FloorPlan.lean ====
section
/-! DEFINITION. The floor plan (03_floor_plan.md; 01_anatomy.md R18-R21): where units lie, which are live, and what the FPD
pages read. -/
namespace Sys2Proof.Machine

/-! ### Where units lie -/

/-- Row and column of a tile (01_anatomy.md R18). -/
def tileRow (n : Nat) : Nat := n / 20
def tileCol (n : Nat) : Nat := n % 20

/-- The grid router an edge router attaches to (R19). -/
def edgeAttach (r : Nat) : Nat :=
  if r < 416 then 0 * 20 + (2 + (r - 400))
  else if r < 432 then 19 * 20 + (2 + (r - 416))
  else match r with
    | 432 => 2 * 20 | 433 => 3 * 20 | 434 => 6 * 20 | 435 => 9 * 20 | 436 => 10 * 20 | 437 => 13 * 20
    | 438 => 16 * 20 | 439 => 17 * 20
    | 440 => 2 * 20 + 19 | 441 => 3 * 20 + 19 | 442 => 6 * 20 + 19 | 443 => 9 * 20 + 19 | 444 => 10 * 20 + 19
    | 445 => 13 * 20 + 19 | 446 => 16 * 20 + 19 | _ => 17 * 20 + 19

/-- The edge router that serves channel `c` of HBM attachment `a` (R19). -/
def hbmRouter (a c : Nat) : Nat := 400 + 4 * a + c / 8

/-- The two edge routers of optical attachment `a` (R19). -/
def optRouters (a : Nat) : List Nat :=
  match a with
  | 0 => [432, 433] | 1 => [435, 436] | 2 => [438, 439] | 3 => [440, 441] | 4 => [443, 444] | _ => [446, 447]

/-- The edge router of Ethernet port `e` (R19). -/
def ethRouter (e : Nat) : Nat := if e = 0 then 442 else 445

/-- Shadow origin of a site (R20). -/
def siteOrigin (st : Nat) : Nat × Nat := (if st < 2 then 1 else 11, if st % 2 = 0 then 1 else 11)

/-- The tile under site channel `c` of site `st` (R20). -/
def siteChTile (st c : Nat) : Nat :=
  let o := siteOrigin st
  (o.1 + c / 8) * 20 + (o.2 + c % 8)

/-- The site whose shadow holds tile `n`, 7 none (R20, R83 SHADOW). -/
def tileShadow (n : Nat) : Nat :=
  let r := tileRow n
  let c := tileCol n
  let row := if 1 ≤ r && r ≤ 8 then some 0 else if 11 ≤ r && r ≤ 18 then some 1 else none
  let col := if 1 ≤ c && c ≤ 8 then some 0 else if 11 ≤ c && c ≤ 18 then some 1 else none
  match row, col with
  | some a, some b => 2 * a + b
  | _, _ => 7

/-- The site channel that lands on a grid router. -/
def tileSiteCh (n : Nat) : Option (Nat × Nat) :=
  let st := tileShadow n
  if st = 7 then none
  else
    let o := siteOrigin st
    some (st, (tileRow n - o.1) * 8 + (tileCol n - o.2))

/-! ### Units -/

/-- KIND and INSTANCE of a unit in the change log (R93); optical attachments (11) and the host endpoint (12) have no KIND. -/
def unitKind : UnitId → Nat
  | .hank _ => 0 | .spindle .. => 1 | .slice _ => 2 | .router _ => 3 | .hbmCh .. => 4 | .hbmAtt _ => 5 | .site _ => 6
  | .siteCh .. => 7 | .lane .. => 8 | .strand .. => 9 | .eth _ => 10 | .optAtt _ => 11 | .host => 12

def unitInst : UnitId → Nat
  | .hank n => n | .spindle n j => n * 64 + j | .slice n => n | .router n => n | .hbmCh a c => a * 32 + c | .hbmAtt a => a
  | .site s => s | .siteCh s c => s * 64 + c | .lane a i => a * 17 + i | .strand a k => a * 4 + k | .eth e => e
  | .optAtt a => a | .host => 0

/-- The key of a unit in PlanSt.units. -/
def unitKey (u : UnitId) : Nat := unitKind u * 32768 + unitInst u

/-- Codes of R79. -/
def causeCode : Cause → Nat
  | .good => 0 | .fused => 1 | .notPopulated => 2 | .assemblyFail => 3 | .startupFail => 4 | .dependent => 5 | .fenced => 6
  | .faulted => 7 | .inTest => 8 | .degraded => 9

/-- Sub-causes of R80. -/
def scNONE : Nat := 0
def scSPINDLE : Nat := 1
def scCHECK : Nat := 2
def scCONTROLLER : Nat := 3
def scBOBBIN : Nat := 4
def scROUTER : Nat := 5
def scMARGIN : Nat := 6
def scFIRMWARE : Nat := 7
def scSPINDLE_COUNT : Nat := 8
def scMEMORY : Nat := 9
def scTRAINING : Nat := 0xA
def scLINK : Nat := 0xB
def scPARITY : Nat := 0xC

/-- A unit's record. -/
def State.unit (s : State) (u : UnitId) : UnitRec := NMap.getD s.plan.units {} (unitKey u)

/-- Writes a unit's record. -/
def State.setUnit (s : State) (u : UnitId) (r : UnitRec) : State :=
  { s with plan := { s.plan with units := NMap.put s.plan.units {} (unitKey u) r } }

/-- A live cause of the live floor plan (R79). -/
def causeLive : Cause → Bool
  | .good => true | .degraded => true | _ => false

/-- The unit is in the live floor plan (R79). -/
def State.live (s : State) (u : UnitId) : Bool := causeLive (s.unit u).live

/-- The unit is fused or not populated, so its page is absent (R7, R10, R49). -/
def State.absent (s : State) (u : UnitId) : Bool :=
  (s.unit u).boot = .fused || (s.unit u).boot = .notPopulated

/-- The unit a page belongs to, where it has one (R44, R52). -/
def pageUnit (p : Nat) : Option UnitId :=
  let i := pgInst p
  match pgCls p with
  | 8 => some (.hank i)
  | 9 => some (.hank i)
  | 10 => some (.slice i)
  | 13 => some (.slice i)
  | 11 => some (.router i)
  | 14 => some (.hbmAtt i)
  | 18 => some (.hbmAtt i)
  | 15 => some (.hbmCh (i / 32) (i % 32))
  | 22 => some (.site i)
  | 23 => some (.optAtt i)
  | 24 => some (.optAtt (i / 2))
  | 27 => some (.eth i)
  | 26 => some .host
  | 5 =>
    if i < 400 then some (.hank i) else if i < 800 then some (.slice (i - 400)) else if i < 804 then some (.site (i - 800))
    else if i < 812 then some (.hbmAtt (i - 804)) else if i < 818 then some (.optAtt (i - 812))
    else if i < 820 then some (.eth (i - 818)) else none
  | _ => none

/-- The pages of a unit whose state follows it. -/
def unitPages : UnitId → List Nat
  | .hank n => [pg cHNK n, pg cBOB n]
  | .slice n => [pg cSKN n, pg cCOH n]
  | .router n => [pg cMSH n]
  | .hbmCh a c => [pg cHCH (a * 32 + c)]
  | .hbmAtt a => [pg cHBM a, pg cSCR a]
  | .site s => [pg cSIT s]
  | .optAtt a => [pg cFAB a, pg cMIL (2 * a), pg cMIL (2 * a + 1)]
  | .eth e => [pg cETH e]
  | .host => [pHEP]
  | _ => []

/-- The unit behind an edge router: absent with its attachment (R19). -/
def edgeUnit (r : Nat) : Option UnitId :=
  if r < 400 then none
  else if r < 432 then some (.hbmAtt ((r - 400) / 4))
  else match r with
    | 432 => some (.optAtt 0) | 433 => some (.optAtt 0) | 435 => some (.optAtt 1) | 436 => some (.optAtt 1)
    | 438 => some (.optAtt 2) | 439 => some (.optAtt 2) | 440 => some (.optAtt 3) | 441 => some (.optAtt 3)
    | 443 => some (.optAtt 4) | 444 => some (.optAtt 4) | 446 => some (.optAtt 5) | 447 => some (.optAtt 5)
    | 442 => some (.eth 0) | 445 => some (.eth 1)
    | _ => none

/-- A tollgate's page is absent: no initiator has its instance, or its initiator is absent; tile n's carries its slice's traffic too
(11_mesh_and_regulation.md R339). -/
def State.tolAbsent (s : State) (i : Nat) : Bool :=
  if i < 400 then s.absent (.hank i) && s.absent (.slice i)
  else if i < 404 then s.absent (.site (i - 400))
  else if i = 468 || i = 469 then s.absent (.eth (i - 468))
  else if 470 ≤ i && i ≤ 475 then s.absent (.optAtt (i - 470))
  else if 481 ≤ i && i ≤ 488 then s.absent (.hbmAtt (i - 481))
  else decide (491 ≤ i) && decide (i ≤ 495)

/-- The page reads as absent: instance at or above the class's count, or its unit fused or not populated (R49, R96); client
pages of the ATU above 86 and tollgate pages without a master or partition hold no register.
[DEDUCED, log entry 38] -/
def State.pageAbsent (s : State) (p : Nat) : Bool :=
  classCount (pgCls p) ≤ pgInst p || (pgCls p = cTOL && s.tolAbsent (pgInst p)) || (pgCls p = cATU && decide (86 < pgInst p)) ||
  (match pageUnit p with
   | some (.router r) => (match edgeUnit r with | some u => s.absent u | none => false)
   | some (.hbmCh a _) => s.absent (.hbmAtt a)
   | some u => s.absent u
   | none => false)

/-- The unit behind a page is in the live floor plan; pages without a unit always are (R64). -/
def State.pageLive (s : State) (p : Nat) : Bool :=
  match pageUnit p with
  | some u => s.live u
  | none => true

/-- The units a unit needs (R90; 11_mesh_and_regulation.md R337). -/
def unitNeeds : UnitId → List UnitId
  | .router r => if 400 ≤ r then [.router (edgeAttach r)] else []
  | .hank n => [.router n]
  | .slice n => [.router n]
  | .siteCh s c => [.router (siteChTile s c), .site s]
  | .hbmCh a c => [.router (hbmRouter a c), .hbmAtt a]
  | .optAtt a => (optRouters a).map .router
  | .strand a _ => [.optAtt a]
  | .eth e => [.router (ethRouter e)]
  | .host => [.router 434]
  | _ => []

/-- What a unit needs is live (R89, R90). An HBM attachment that left for want of channels comes back with the first of them (R652). -/
def State.needsMet (s : State) (u : UnitId) : Bool :=
  (unitNeeds u).all (fun v => s.live v || (match v with | .hbmAtt _ => decide ((s.unit v).live = .dependent) | _ => false))

/-- The units an edge router serves (R19, R90). -/
def edgeServes (r : Nat) : List UnitId :=
  match edgeUnit r with
  | some (.hbmAtt a) => (List.range 8).map (fun j => .hbmCh a (((r - 400) % 4) * 8 + j))
  | some (.optAtt a) => [.optAtt a] ++ (List.range 4).map (fun k => .strand a k)
  | some u => [u]
  | none => if r = 434 then [.host] else []

/-- The units removed with a unit, cause DEPENDENT (R90; an edge router with its grid router, 11_mesh_and_regulation.md R337), each after
the ones it needs.
[DEDUCED, log entry 81] -/
def unitDependents : UnitId → List UnitId
  | .router r =>
    if r < 400 then
      [.hank r, .slice r] ++ (match tileSiteCh r with | some (s, c) => [.siteCh s c] | none => []) ++
        (((List.range 48).filter (fun k => edgeAttach (400 + k) = r)).map (fun k => UnitId.router (400 + k) :: edgeServes (400 + k))).flatten
    else edgeServes r
  | .hbmAtt a => (List.range 32).map (fun c => .hbmCh a c)
  | .site s => (List.range 64).map (fun c => .siteCh s c)
  | .optAtt a => (List.range 4).map (fun k => .strand a k)
  | _ => []

/-! ### Test results of units (R653) -/

/-- Spindle bitmap of a tile (FPD 2). -/
def State.spindles (s : State) (n : Nat) : Nat := NMap.getD s.plan.spindles (2 ^ 64 - 1) n
def State.setSpindles (s : State) (n v : Nat) : State :=
  { s with plan := { s.plan with spindles := NMap.put s.plan.spindles (2 ^ 64 - 1) n v } }
def State.goodSpindles (s : State) (n : Nat) : Nat := popCount 64 (s.spindles n)
def State.checkOk (s : State) (n : Nat) : Bool := !s.plan.checkBad.contains n
def State.setCheckOk (s : State) (n : Nat) (ok : Bool) : State :=
  let l := s.plan.checkBad.filter (fun m => m ≠ n)
  { s with plan := { s.plan with checkBad := if ok then l else l ++ [n] } }
/-- BANK_OK of a slice. -/
def State.bankOk (s : State) (n : Nat) : Nat := if s.plan.banksTested then NMap.getD s.plan.banks 0xFFFF n else 0
def State.setBankOk (s : State) (n v : Nat) : State :=
  { s with plan := { s.plan with banks := NMap.put s.plan.banks 0xFFFF n v } }

/-- The live cause a hank has by its spindles (R81), if it stays. -/
def State.hankCause (s : State) (n : Nat) : Cause :=
  if s.spindles n = 2 ^ 64 - 1 then .good else .degraded

/-- A hank stays in the live floor plan: at least 48 good spindles and a good check spindle (R81). -/
def State.hankFit (s : State) (n : Nat) : Bool := decide (48 ≤ s.goodSpindles n) && s.checkOk n

/-! ### Counts (R83) -/

def State.liveHanks (s : State) : Nat := ((List.range 400).filter (fun n => s.live (.hank n))).length
def State.liveSlices (s : State) : Nat := ((List.range 400).filter (fun n => s.live (.slice n))).length
def State.liveHbmCh (s : State) (a : Nat) : Nat := ((List.range 32).filter (fun c => s.live (.hbmCh a c))).length
def State.liveChannels (s : State) : Nat := ((List.range 8).map s.liveHbmCh).foldl (· + ·) 0
def State.liveStrands (s : State) : Nat :=
  ((List.range 24).filter (fun g => s.live (.strand (g / 4) (g % 4)) && s.live (.optAtt (g / 4)))).length
def State.liveSiteChs (s : State) (st : Nat) : Nat := ((List.range 64).filter (fun c => s.live (.siteCh st c))).length
def State.liveSpindles (s : State) : Nat :=
  ((List.range 400).map (fun n => if s.live (.hank n) then s.goodSpindles n else 0)).foldl (· + ·) 0

/-- A mask of the indices below `k` that satisfy `f`. -/
def maskOf (k : Nat) (f : Nat → Bool) : Nat := (List.range k).foldl (fun m i => if f i then m + 2 ^ i else m) 0

/-- CAP_MIB of every channel: stack capacity ÷ 32 (R83). -/
def State.capMib (s : State) : Nat := s.plan.stackGib * 1024 / 32

/-- The good units of a variant at least (00_scope.md R6): hanks, slices, HBM attachments, optical attachments, sites,
Ethernet ports. -/
def variantMin : Nat → List Nat
  | 1 => [384, 384, 8, 6, 4, 2]
  | 2 => [336, 384, 6, 4, 4, 2]
  | 3 => [256, 384, 4, 2, 2, 1]
  | _ => [0, 0, 0, 0, 0, 0]

/-- The instances a variant fuses (R96). -/
def variantFused : Nat → List UnitId
  | 2 => [.hbmAtt 0, .hbmAtt 7, .optAtt 1, .optAtt 4]
  | 3 => [.hbmAtt 0, .hbmAtt 3, .hbmAtt 4, .hbmAtt 7, .optAtt 0, .optAtt 2, .optAtt 3, .optAtt 5, .site 1, .site 2, .eth 1]
  | _ => []

/-- A live count is below its minimum (R95). -/
def State.belowMin (s : State) : Bool :=
  match variantMin s.plan.variant with
  | [h, sl, hb, op, si, et] =>
    decide (s.liveHanks < h) || decide (s.liveSlices < sl) ||
    decide (popCount 8 (maskOf 8 (fun a => s.live (.hbmAtt a))) < min hb (popCount 8 s.plan.popHbm)) ||
    decide (popCount 6 (maskOf 6 (fun a => s.live (.optAtt a))) < min op (popCount 6 s.plan.popOpt)) ||
    decide (popCount 4 (maskOf 4 (fun a => s.live (.site a))) < min si (popCount 4 s.plan.popSites)) ||
    decide (popCount 2 (maskOf 2 (fun e => s.live (.eth e))) < et)
  | _ => false

/-- A router limit is broken (R91): two dead grid routers in a row or column, or edge router 434 or 437 or the host
endpoint lost. -/
def State.meshBroken (s : State) : Bool :=
  let dead := (List.range 400).filter (fun n => !s.live (.router n))
  dead.any (fun n => dead.any (fun m => m ≠ n && (tileRow m = tileRow n || tileCol m = tileCol n))) ||
  !s.live (.router 434) || !s.live (.router 437) || !s.live .host

/-! ### What the FPD pages read (R83) -/

/-- The fields common to every record: BOOT_CAUSE [27:24], LIVE_CAUSE [23:20]. -/
def recCauses (r : UnitRec) : Nat := (causeCode r.boot) <<< 24 + (causeCode r.live) <<< 20

/-- The unit was never tested: every other field of its record reads 0 (R653). -/
def State.untested (s : State) (u : UnitId) : Bool :=
  s.absent u || (match u with | .hbmCh a _ => s.absent (.hbmAtt a) | _ => false)

/-- No test reached the parts of a unit: its record reads 0 for them (R653).
[DEDUCED, log entry 221] -/
def State.noResult (s : State) : UnitId → State
  | .hank n => (s.setSpindles n 0).setCheckOk n false
  | .hbmCh a c => { s with plan := { s.plan with pcOk := NMap.put s.plan.pcOk 3 (a * 32 + c) 0 } }
  | .optAtt a => { s with plan := { s.plan with opt := NMap.put s.plan.opt {} a { NMap.getD s.plan.opt {} a with laneOk := 0 } } }
  | .eth e => { s with plan := { s.plan with ethLanes := NMap.put s.plan.ethLanes 0xFF e 0 } }
  | _ => s

def State.fpdHank (s : State) (n : Nat) : Nat :=
  let r := s.unit (.hank n)
  recCauses r + tileShadow n <<< 17 +
    (if s.untested (.hank n) then 0 else b2n (s.checkOk n) <<< 15 + s.goodSpindles n <<< 8 + r.sub)

def State.fpdSlice (s : State) (n : Nat) : Nat :=
  let r := s.unit (.slice n)
  recCauses r + (if s.untested (.slice n) then 0 else b2n (s.plan.retOk.contains n) <<< 16 + s.bankOk n)

def State.fpdHbmCh (s : State) (i : Nat) : Nat :=
  let u := UnitId.hbmCh (i / 32) (i % 32)
  recCauses (s.unit u) + (if s.untested u then 0 else
    NMap.getD s.plan.pcOk 3 i <<< 18 + NMap.getD s.plan.repaired 0 i <<< 12 + s.capMib)

def State.fpdHbmAtt (s : State) (a : Nat) : Nat :=
  let u := UnitId.hbmAtt a
  recCauses (s.unit u) + (if s.untested u then 0 else
    s.liveHbmCh a <<< 32 + s.plan.stackGib <<< 12 + s.plan.rate <<< 4)

def State.fpdSite (s : State) (st : Nat) : Nat :=
  recCauses (s.unit (.site st)) + (if s.untested (.site st) then 0 else s.liveSiteChs st <<< 8)

def State.fpdOpt (s : State) (a : Nat) : Nat :=
  let u := UnitId.optAtt a
  let o := NMap.getD s.plan.opt {} a
  recCauses (s.unit u) + (if s.untested u then 0 else
    o.laneOk <<< 37 + o.spareFor <<< 32 + maskOf 4 (fun k => s.live (.strand a k)) <<< 16)

def State.fpdEth (s : State) (e : Nat) : Nat :=
  recCauses (s.unit (.eth e)) + (if s.untested (.eth e) then 0 else NMap.getD s.plan.ethLanes 0xFF e)

/-- The boot cause is a live one: the unit was live at GEN 0. -/
def State.bootLive (s : State) (u : UnitId) : Bool := causeLive (s.unit u).boot

/-- FPD 0: registers that follow from the unit records; GEN, DIGEST and FPD_STATUS are stored. An edge router of a fused or unpopulated
attachment has not been removed by a test, and its DEAD_ROUTER bit reads 0.
[DESIGN CHOICE, log entry 219] -/
def State.fpd0 (s : State) (off : Nat) : Nat :=
  let run (base : Nat) (f : Nat → Bool) (limit : Nat) : Nat :=
    let k := (off - base) / 8
    maskOf 64 (fun j => decide (64 * k + j < limit) && f (64 * k + j))
  if off = 0x108 then
    s.plan.variant <<< 56 + s.liveHanks <<< 47 + s.liveSlices <<< 38 + s.liveChannels <<< 29 + s.liveStrands <<< 24
      + maskOf 4 (fun a => s.live (.site a)) <<< 20 + maskOf 6 (fun a => s.live (.optAtt a)) <<< 14
      + maskOf 2 (fun e => s.live (.eth e)) <<< 12 + maskOf 8 (fun a => s.live (.hbmAtt a)) <<< 4
  else if off = 0x110 then
    (s.liveChannels * s.capMib) <<< 44 + s.plan.bootSpindles <<< 16 + s.liveSpindles
  else if 0x158 ≤ off && off ≤ 0x188 then run 0x158 (fun n => s.live (.hank n)) 400
  else if 0x190 ≤ off && off ≤ 0x1C0 then run 0x190 (fun n => s.bootLive (.hank n)) 400
  else if 0x1C8 ≤ off && off ≤ 0x1F8 then run 0x1C8 (fun n => s.live (.slice n)) 400
  else if 0x200 ≤ off && off ≤ 0x230 then run 0x200 (fun n => s.bootLive (.slice n)) 400
  else if 0x238 ≤ off && off ≤ 0x268 then run 0x238 (fun n => !s.live (.router n)) 448
  else (s.word pFPD off).toNat

/-- A block register of an FPD page (R83). -/
def State.fpdWord (s : State) (page off : Nat) : Nat :=
  let u := (off - 0x100) / 8
  match page with
  | 0 => s.fpd0 off
  | 1 => s.fpdHank u
  | 2 => if s.untested (.hank u) then 0 else s.spindles u
  | 3 => s.fpdSlice u
  | 4 => if off < 0x900 then s.fpdHbmCh u else s.fpdHbmAtt ((off - 0x900) / 8)
  | 5 =>
    if off < 0x120 then s.fpdSite u
    else if off < 0x140 then maskOf 64 (fun c => s.live (.siteCh ((off - 0x120) / 8) c))
    else if off < 0x170 then s.fpdOpt ((off - 0x140) / 8)
    else s.fpdEth ((off - 0x170) / 8)
  | 6 => NMap.getD s.plan.laneOtp (2 ^ 64 - 1) u
  | 7 => NMap.getD s.plan.laneEff (2 ^ 64 - 1) u
  | 8 => (s.word (pg cFPD 8) off).toNat
  | _ => 0

/-- The bytes DIGEST is taken over (R87): the block registers of FPD 1 to FPD 7 in order, little-endian. -/
def State.fpdBytes (s : State) : List Byte :=
  ([1, 2, 3, 4, 5, 6, 7].map (fun q =>
    (List.range (blkLen (pg cFPD q))).map (fun k =>
      let w := s.fpdWord q (0x100 + 8 * k)
      (List.range 8).map (fun b => BitVec.ofNat 8 (w >>> (8 * b)))))).flatten.flatten

end Sys2Proof.Machine
end

