-- ==== Sys2Proof/Machine/LineOps.lean ====
section
/-! DEFINITION. What an access does to the 64 bytes of a line: reads, writes with poison, atomics, exact accumulation
(07_skein_memory.md R205-R212, 09_memory_integrity.md R280). -/
namespace Sys2Proof.Machine

/-- Little-endian number of bytes. -/
def leNat : List Byte → Nat
  | [] => 0
  | b :: bs => b.toNat + 256 * leNat bs

/-- The `k` low bytes of a number, little-endian. -/
def natLe : Nat → Nat → List Byte
  | 0, _ => []
  | k + 1, n => BitVec.ofNat 8 n :: natLe k (n / 256)

/-- A number of `w` bits as a signed integer. -/
def sgn (w n : Nat) : Int := if n < 2 ^ (w - 1) then (n : Int) else (n : Int) - 2 ^ w

/-- A signed integer in `w` bits, modulo 2^w. -/
def unsgn (w : Nat) (i : Int) : Nat := (i % (2 ^ w : Int)).toNat

/-- Replaces bytes of a list from an offset on. -/
def patch (bs : List Byte) (off : Nat) (d : List Byte) : List Byte := bs.take off ++ d ++ bs.drop (off + d.length)

/-- The sectors (bit 0, bit 1) that bytes off .. off+len-1 of a line touch. -/
def secsOf (off len : Nat) : Nat := (if off < 32 then 1 else 0) + (if 32 < off + len then 2 else 0)

/-- The sectors those bytes cover whole. -/
def secsWhole (off len : Nat) : Nat :=
  (if off = 0 && 32 ≤ len then 1 else 0) + (if off ≤ 32 && 64 ≤ off + len then 2 else 0)

/-! ### Atomic operations (R206-R209) -/

/-- Operand size of a type code: 4, 8, 4, 8, 4, 2, 2, 16 bytes; 0 reserved. -/
def atomTypeSize (ty : Nat) : Nat :=
  match ty with
  | 0 => 4 | 1 => 8 | 2 => 4 | 3 => 8 | 4 => 4 | 5 => 2 | 6 => 2 | 7 => 16 | _ => 0

/-- The types an operation accepts (R206). -/
def atomAccepts (op ty : Nat) : Bool :=
  match op with
  | 0 => ty = 0 || ty = 1
  | 1 => ty = 4 || ty = 5 || ty = 6
  | 2 => ty ≤ 4
  | 3 => ty ≤ 4
  | 6 => ty = 7
  | _ => false

/-- The float format of a type code. -/
def atomFmt (ty : Nat) : FpFmt := if ty = 5 then fp16 else if ty = 6 then bf16 else fp32

/-- min or max of two encodings of a type (R207): FP32 orders −0 below +0 and gives the canonical NaN if either is NaN. -/
def atomMinMax (isMax : Bool) (ty m a : Nat) : Nat :=
  if ty = 4 then
    let x := fp32.decode m
    let y := fp32.decode a
    if x = .nan || y = .nan then fp32.qnan
    else if isMax then (if x.lt y then a else m) else (if y.lt x then a else m)
  else
    let w := 8 * atomTypeSize ty
    let lt := if ty ≤ 1 then decide (sgn w m < sgn w a) else decide (m < a)
    let gt := if ty ≤ 1 then decide (sgn w a < sgn w m) else decide (a < m)
    if isMax then (if lt then a else m) else (if gt then a else m)

/-- One element of ADD, FADD, MIN, MAX. -/
def atomElem (op ty m a : Nat) : Nat :=
  match op with
  | 0 => (m + a) % 2 ^ (8 * atomTypeSize ty)
  | 1 => (atomFmt ty).encode (((atomFmt ty).decode m).add ((atomFmt ty).decode a))
  | 2 => atomMinMax false ty m a
  | _ => atomMinMax true ty m a

/-- An XACC container (05_spindle_arithmetic.md R136) combined by XADD (R208); the Bool: an L mismatch was found. -/
def xaddElem (m a : Nat) : Nat × Bool :=
  let l (n : Nat) := natBits n 111 96
  let fl (n : Nat) := natBits n 119 112
  let absorbed := l m = 0x8000 && natBit (fl m) 4
  if m = 0 then (a, false)
  else if absorbed then (m ||| fl a <<< 112, false)
  else if l m = l a then
    ((natBits m 95 0 + natBits a 95 0) % 2 ^ 96 + l m <<< 96 + (fl m ||| fl a) <<< 112, false)
  else (0x8000 <<< 96 + (fl m ||| fl a ||| 16) <<< 112, true)

/-- Applies ADD, FADD, MIN, MAX or XADD element by element; the Bool: some XADD met an L mismatch. -/
def atomVec (op ty sz : Nat) : Nat → List Byte → List Byte → List Byte × Bool
  | 0, _, _ => ([], false)
  | k + 1, ms, as =>
    let m := leNat (ms.take sz)
    let a := leNat (as.take sz)
    let e := if op = 6 then xaddElem m a else (atomElem op ty m a, false)
    let r := atomVec op ty sz k (ms.drop sz) (as.drop sz)
    (natLe sz e.1 ++ r.1, e.2 || r.2)

/-- The bytes of memory an atomic covers: CAS carries compare and swap. -/
def atomLen (op : Nat) (operand : List Byte) : Nat := if op = 5 then operand.length / 2 else operand.length

/-- An atomic is well formed (R209, R210): operation and type known and matching, sizes, alignment, one line, no fetch XADD. -/
def atomOk (op ty : Nat) (fetch : Bool) (off : Nat) (operand : List Byte) : Bool :=
  let n := atomLen op operand
  decide (off + n ≤ 64) && decide (0 < n) && off % n = 0 &&
  (if op = 4 || op = 5 then (n = 4 || n = 8 || n = 16) && (op = 4 || operand.length = 2 * n)
   else atomAccepts op ty && n % atomTypeSize ty = 0 && (n = atomTypeSize ty || decide (4 ≤ n)) && !(op = 6 && fetch))

/-- What an access leaves of a line: bytes, poison, status (06_task_graphs.md R187 code), answer bytes and poison, sectors
changed, an XADD mismatch, a sector newly poisoned. -/
structure LineRes where
  bytes : List Byte
  pois : Nat
  status : Nat
  rdata : List Byte
  rpois : Nat
  changed : Nat
  mismatch : Bool
  newPois : Nat
  deriving DecidableEq, Repr

/-- Poison of a write met sector by sector (R280): which sectors take the data, which become or stay poisoned. -/
def writePois (off len cur wp k : Nat) : Bool × Bool × Bool :=
  -- (take the data, poisoned after, the task ends with POISON)
  let touched := natBit (secsOf off len) k
  let whole := natBit (secsWhole off len) k
  if !touched then (false, natBit cur k, false)
  else if natBit wp k then (true, true, false)
  else if !natBit cur k then (true, false, false)
  else if whole then (true, false, false)
  else (false, true, true)

/-- Keeps the old bytes of the sectors that do not take new data. -/
def keepSectors (old new : List Byte) (t0 t1 : Bool) : List Byte :=
  (if t0 then new.take 32 else old.take 32) ++ (if t1 then new.drop 32 else old.drop 32)

/-- An access on a line's 64 bytes and poison (R205-R212, R280). -/
def lineApply (bytes : List Byte) (pois off len : Nat) (op : AccOp) : LineRes :=
  match op with
  | .read =>
    let p := pois &&& secsOf off len
    ⟨bytes, pois, 0, (bytes.drop off).take len, p, 0, false, 0⟩
  | .write d wp =>
    let a := writePois off len pois wp 0
    let b := writePois off len pois wp 1
    let np := b2n a.2.1 + 2 * b2n b.2.1
    ⟨keepSectors bytes (patch bytes off (d.take len)) a.1 b.1, np, if a.2.2 || b.2.2 then 0x06 else 0, [], 0,
      secsOf off len, false, np &&& (3 - (pois &&& 3))⟩
  | .bits b m =>
    let a := writePois off len pois 0 0
    let c := writePois off len pois 0 1
    let old := bytes.getD off 0
    ⟨keepSectors bytes (patch bytes off [(old &&& ~~~m) ||| (b &&& m)]) a.1 c.1, b2n a.2.1 + 2 * b2n c.2.1,
      if a.2.2 || c.2.2 then 0x06 else 0, [], 0, secsOf off len, false, 0⟩
  | .atomic o ty fetch operand =>
    let n := atomLen o operand
    let secs := secsOf off n
    if !atomOk o ty fetch off operand then ⟨bytes, pois, 0x11, [], 0, 0, false, 0⟩
    else if pois &&& secs ≠ 0 then ⟨bytes, pois, 0x06, [], pois &&& secs, 0, false, 0⟩
    else
      let old := (bytes.drop off).take n
      let r : List Byte × Bool :=
        if o = 4 then (operand, false)
        else if o = 5 then (if old = operand.take n then operand.drop n else old, false)
        else atomVec o ty (atomTypeSize ty) (n / atomTypeSize ty) old operand
      ⟨patch bytes off r.1, pois, 0, if fetch then old else [], 0, secs, r.2, 0⟩

/-- A write into an active reduction aperture (R211, R212): posted atomics of the aperture's operation, sector by sector as
poison allows. -/
def apertureApply (bytes : List Byte) (pois off len : Nat) (d : List Byte) (wp aop aty : Nat) : LineRes :=
  let sz := atomTypeSize aty
  if off % sz ≠ 0 || len % sz ≠ 0 then ⟨bytes, pois, 0x11, [], 0, 0, false, 0⟩
  else
    let old := (bytes.drop off).take len
    let r := atomVec aop aty sz (len / sz) old (d.take len)
    let low := min len (32 - off)
    let bad0 := (atomVec aop aty sz (low / sz) old d).2
    let bad1 := (atomVec aop aty sz ((len - low) / sz) (old.drop low) (d.drop low)).2
    let secs := secsOf off len
    let blocked := pois &&& secs
    let bad := wp &&& secs
    let t (k : Nat) : Bool := natBit secs k && !natBit blocked k && !natBit bad k
    let np := pois ||| bad
    ⟨keepSectors bytes (patch bytes off r.1) (t 0) (t 1), np, if blocked ≠ 0 then 0x06 else 0, [], 0,
      secs, (bad0 && t 0) || (bad1 && t 1), bad &&& (3 - (pois &&& 3))⟩

end Sys2Proof.Machine
end

