-- ==== Sys2Proof/Machine/SiteLow.lean ====
section
/-! DEFINITION. Site channels: messages, credits, flits, replay, retraining (13_chiplet_sites.md R391-R402). -/
namespace Sys2Proof.Machine

def State.siteSt (s : State) (x : Nat) : SiteSt := NMap.getD s.site {} x
def State.setSite (s : State) (x : Nat) (v : SiteSt) : State := { s with site := NMap.put s.site {} x v }
def State.chan (s : State) (x c : Nat) : AspChan := NMap.getD (s.siteSt x).chans {} c
def State.setChan (s : State) (x c : Nat) (v : AspChan) : State :=
  let t := s.siteSt x
  s.setSite x { t with chans := NMap.put t.chans {} c v }

/-- SIT.LINK.STATE codes (R414). -/
def slDOWN : Nat := 0
def slTRAINING : Nat := 1
def slUP : Nat := 2
def slRETRAINING : Nat := 3
def slTEST : Nat := 4
def slFAULTED : Nat := 5
def State.siteLink (s : State) (x : Nat) : Nat := s.fld (pg cSIT x) PgSIT.LINK_STATE
def State.setSiteLink (s : State) (x st : Nat) : State := s.setFld (pg cSIT x) PgSIT.LINK_STATE st

/-- The hub's sideband status goes out when it changes (R391). -/
def State.sendStatus (s : State) (x st : Nat) : State :=
  if (s.siteSt x).hub = st then s else (s.setSite x { s.siteSt x with hub := st }).emit (.siteStatus x st)

/-- The protocol is up on both sides. -/
def State.siteUp (s : State) (x : Nat) : Bool := s.siteLink x = slUP && (s.siteSt x).peer = 2
/-- The channel is in use: live, or out only because its site is fenced, whose link stays up (R415). -/
def State.chanIn (s : State) (x c : Nat) : Bool :=
  s.live (.siteCh x c) ||
    (decide ((s.unit (.site x)).live = .fenced) && decide ((s.unit (.siteCh x c)).live = .dependent) && s.live (.router (siteChTile x c)))
/-- A channel carries messages: live, and not in a retrain.
[DEDUCED, log entry 76] -/
def State.chanUp (s : State) (x c : Nat) : Bool := s.siteUp x && s.chanIn x c && !(s.chan x c).retraining

/-- The class of an opcode (R398, R400): REQ 0, WB 1, SNP 2, RSP 3, DRS 4, TSK 5, CFG 6. -/
def aspClass (op : Nat) : Nat :=
  if op < 0x10 then 0 else if op < 0x20 then 1 else if op < 0x30 then 2 else if op < 0x40 then 3 else if op < 0x50 then 4
  else if op < 0x60 then 5 else 6

/-- Opcodes a chiplet may send (R398). -/
def aspUp (op : Nat) : Bool :=
  (decide (0x01 ≤ op) && decide (op ≤ 0x10)) || (decide (0x30 ≤ op) && decide (op ≤ 0x39)) || op = 0x40 || op = 0x41 || op = 0x62

/-- Credits a message costs (R400): 1 for its header, 2 for each data slot. -/
def aspCost (m : AspMsg) : Nat := 1 + 2 * ((m.data.length + 63) / 64)

/-- The credits the hub advertises on a channel (R400). -/
def aspHubCredits : List Nat := [96, 24, 0, 64, 96, 0, 4]
/-- The least a chiplet must advertise (R400). -/
def aspMinCredits : List Nat := [0, 0, 16, 32, 48, 6, 2]

/-- Adds to, takes from, one class of a credit list. -/
def credAdd (l : List Nat) (cls n : Nat) : List Nat := l.set cls (l.getD cls 0 + n)
def credSub (l : List Nat) (cls n : Nat) : List Nat := l.set cls (l.getD cls 0 - n)

/-- Messages of a channel's queue, sent while credits and the window of 64 flits last; the first of each class goes first (R396, R400,
R402). One message rides in each flit.
[DESIGN CHOICE, log entry 181] -/
def State.aspPump (s : State) (x c : Nat) : Nat → State
  | 0 => s
  | fuel + 1 =>
    let h := s.chan x c
    if !s.chanUp x c || 64 ≤ h.unacked.length then s
    else
      let can (m : AspMsg) : Bool :=
        (match h.queue.find? (fun y => aspClass y.op = aspClass m.op) with | some y => y = m | none => false) &&
        decide (aspCost m ≤ h.cr.getD (aspClass m.op) 0)
      match h.queue.find? can with
      | none => s
      | some m =>
        let f : AspFlit := { seq := h.txSeq, ack := (h.rxSeq + 127) % 128, msgs := [m] }
        ((s.setChan x c { h with
            queue := h.queue.erase m, unacked := h.unacked ++ [f], txSeq := (h.txSeq + 1) % 128
            cr := credSub h.cr (aspClass m.op) (aspCost m) }).emit (.aspFlit x c f)).aspPump x c fuel

/-- What waits on a channel goes as far as it can. -/
def State.aspGo (s : State) (x c : Nat) : State := s.aspPump x c ((s.chan x c).queue.length + 1)

/-- The hub sends a message on a channel. -/
def State.aspSend (s : State) (x c : Nat) (m : AspMsg) : State :=
  let h := s.chan x c
  (s.setChan x c { h with queue := h.queue ++ [m] }).aspGo x c

/-- The live channel that carries TaskMsg and CFG messages (R402): the lowest. -/
def State.firstChan (s : State) (x : Nat) : Option Nat := (List.range 64).find? (fun c => s.chanIn x c)

/-- Hops between two tiles (01_anatomy.md R23). -/
def hops (n m : Nat) : Nat :=
  let d (a b : Nat) : Nat := (a - b) + (b - a)
  d (tileRow n) (tileRow m) + d (tileCol n) (tileCol m)

/-- The channel for a message from a home (R402): the one whose router is nearest, ties to the lower; a retraining channel does not
count (R394).
[DEDUCED, log entry 182] -/
def State.nearChan (s : State) (x n : Nat) : Option Nat :=
  (List.range 64).foldl (fun best c =>
    if !s.chanIn x c || (s.chan x c).retraining then best
    else match best with
      | none => some c
      | some b => if hops (siteChTile x c) n < hops (siteChTile x b) n then some c else best) none

/-- A site's transaction is open (R414): a request that awaits its response, a configuration request, an XlateInv, or a snoop or hint of
a home. -/
def State.siteBusy (s : State) (x : Nat) : Bool :=
  let t := s.siteSt x
  t.chans.any (fun e => e.2.tags ≠ []) || t.cfg ≠ [] || t.invs ≠ [] ||
    s.xwaits.any (fun w => match w.use_ with | .asp y _ _ => y = x | .aspXlate y _ _ => y = x | _ => false) ||
    s.mem.txns.any (fun u => u.snoops.any (fun w => w.agent = x) || (match u.req with | some r => r.agent = x | none => false))

/-- The SIT page is BUSY while a transaction is open. -/
def State.siteWork (s : State) (x : Nat) : State := s.workSet (pg cSIT x) (s.siteBusy x)

/-- A response of the hub goes on the channel of its request, which no longer awaits it (R401, R402). -/
def State.aspReply (s : State) (x c : Nat) (m : AspMsg) : State :=
  let h := s.chan x c
  ((s.setChan x c { h with tags := h.tags.erase m.tag }).aspSend x c m).siteWork x

/-- Err with a status code (R399). -/
def State.aspErr (s : State) (x c tag code : Nat) : State := s.aspReply x c { op := 0x3C, tag := tag, arg8 := code }

/-- A message's buffer is free again, and its credits go back; a quiescing site gets no REQ credits back (R400, R415). -/
def State.aspFree (s : State) (x c cls n : Nat) : State :=
  if cls = 0 && s.flag (pg cSIT x) PgHDR.PAGE_CTRL_QUIESCE_REQ then s
  else
    let h := s.chan x c
    let k := min n (h.used.getD cls 0)
    (s.setChan x c { h with used := credSub h.used cls k }).emitIf (0 < k) (.aspCredit x c cls k)

/-- A channel goes into a retrain with its buffers, sequence numbers and credits kept (R394). -/
def State.chanRetrain (s : State) (x c : Nat) (faulty : Bool) : State :=
  let h := s.chan x c
  if !s.chanIn x c || h.retraining then s
  else
    let w := s.fld (pg cSIT x) PgSIT.RETRAIN_CHANNELS
    ((s.setChan x c { h with retraining := true, faulty := faulty }).count (pg cSIT x) PgSIT.PERF_RETRAINS 1).setFld (pg cSIT x)
      PgSIT.RETRAIN_CHANNELS (natSetBits w c c 1)

/-- Resends every unacknowledged flit, from the oldest (R396). -/
def State.aspResend (s : State) (x c : Nat) : State :=
  let fs := (s.chan x c).unacked
  fs.foldl (fun s f => s.emit (.aspFlit x c f)) (s.count (pg cSIT x) PgSIT.PERF_REPLAYS fs.length)

/-- The protocol state of a site is void (R391, R416, R419): channels, requests, handed-out translations; SITE tasks keep their records
for the caller.
[DEDUCED, log entry 75] -/
def State.siteVoid (s : State) (x : Nat) : State :=
  let t := s.siteSt x
  s.setSite x { t with chans := [], caps := [], cfg := [], invs := [], handed := [], binding := false, found := 0 }

/-- CAPS of a function (R412). -/
def State.caps (s : State) (x f : Nat) : Nat := NMap.getD (s.siteSt x).caps 0 f
/-- Functions present (R413). -/
def State.siteFuncs (s : State) (x : Nat) : Nat := s.fld (pg cSIT x) PgSIT.FUNCS_PRESENT
/-- A function may be used for a partition: present, enabled, bound to it, its site live (R409). -/
def State.funcBound (s : State) (x f p : Nat) : Bool :=
  s.live (.site x) && natBit (s.siteFuncs x) f && s.actFlag (pg cSIT x) (PgSIT.FUNC_ENABLE f) && s.actFld (pg cSIT x) (PgSIT.FUNC_PART f) = p

/-- A site's index of a home transaction in TAGs (R401): slice × 128 + index. -/
def snoopTag (slice idx : Nat) : Nat := slice * 128 + idx

/-! ### Lanes (R388) -/

/-- Physical lane of a logical lane of a channel direction: the i-th that is not listed as failed. -/
def logicalLane (failed : List Nat) (i : Nat) : Option Nat := ((List.range 254).filter (fun l => !failed.contains l))[i]?

/-- Unit interval and physical lane of bit `j` of a flit: 250 bits go in each interval. -/
def flitLane (failed : List Nat) (j : Nat) : Nat × Option Nat := (j / 250, logicalLane failed (j % 250))

/-- A direction can no longer carry a flit: a logical lane is left without a physical one, as more than four have failed (R86). -/
def laneShort (failed : List Nat) : Bool := (flitLane failed 249).2 = none

/-! ### Configuration requests (R412-R414) -/

/-- Sends the configuration request at the head of the queue. -/
def State.cfgSend (s : State) (x : Nat) : State :=
  match (s.siteSt x).cfg, s.firstChan x with
  | q :: _, some c =>
    let data := if q.why = .software then s.fld (pg cSIT x) PgSIT.CFG_DATA_DATA
      else s.actFld (pg cSIT x) (PgSIT.FUNC_PART q.func) <<< 48 + b2n (s.actFlag (pg cSIT x) (PgSIT.FUNC_ENABLE q.func)) <<< 63
    s.aspSend x c { op := if q.write then 0x61 else 0x60, func := q.func, addr := q.index * 8, arg64 := if q.write then data else 0 }
  | _, _ => s

/-- Queues configuration requests; the first goes out at once where none was outstanding. -/
def State.cfgPush (s : State) (x : Nat) (qs : List CfgReq) : State :=
  let st := s.siteSt x
  let s1 := s.setSite x { st with cfg := st.cfg ++ qs }
  (if st.cfg = [] then s1.cfgSend x else s1).siteWork x

/-- A FUNC commit takes effect (R414): register 0x018 of every changed function is rewritten; the commit completes with the answers. -/
def State.siteBind (s : State) (x : Nat) (changed : List Nat) : State :=
  let p := pg cSIT x
  let s1 := s.setFld p PgSIT.FUNCS_ENABLED ((List.range 8).foldl (fun m f => if s.actFlag p (PgSIT.FUNC_ENABLE f) then m + 2 ^ f else m) 0)
  let fs := changed.filter (fun f => natBit (s.siteFuncs x) f)
  if fs = [] || !s.siteUp x then s1.commitDone p
  else (s1.setSite x { s1.siteSt x with binding := true }).cfgPush x (fs.map (fun f => ⟨.bind, f, 3, true⟩))

end Sys2Proof.Machine
end

