-- ==== Sys2Proof/Machine/TaskOps.lean ====
section
/-! DEFINITION. Queues, live tasks and the end of a task (06_task_graphs.md R160-R192), as every engine uses them. -/
namespace Sys2Proof.Machine

/-! ### The store -/

def State.queue (s : State) (q : Nat) : QueueSt := NMap.getD s.dsp.queues {} q
def State.setQueue (s : State) (q : Nat) (x : QueueSt) : State :=
  { s with dsp := { s.dsp with queues := NMap.put s.dsp.queues {} q x } }

def State.task? (s : State) (t : TaskId) : Option TaskSt := s.dsp.tasks.find? (fun x => x.id = t)
/-- Stores a live task under its number. -/
def State.putTask (s : State) (t : TaskSt) : State :=
  { s with dsp := { s.dsp with tasks := s.dsp.tasks.map (fun x => if x.id = t.id then t else x) } }

def State.event (s : State) (e : Nat) : EventSt := NMap.getD s.dsp.events {} e
def State.setEvent (s : State) (e : Nat) (x : EventSt) : State :=
  { s with dsp := { s.dsp with events := NMap.put s.dsp.events {} e x } }

/-- Live tasks of a partition, of a queue. -/
def State.liveOf (s : State) (p : Nat) : Nat := (s.dsp.tasks.filter (fun t => t.part = p)).length
def State.liveIn (s : State) (q : Nat) : Nat := (s.dsp.tasks.filter (fun t => t.id.queue = q)).length

/-- Sum of SPAN over a partition's created queues (R161 RESERVED). -/
def State.reserved (s : State) (p : Nat) : Nat :=
  (s.dsp.queues.map (fun e => if e.2.part = p then e.2.span else 0)).foldl (· + ·) 0

/-- An event lies in partition `p`'s range (R180, R191). -/
def State.eventIn (s : State) (p e : Nat) : Bool :=
  let b := s.fld (pg cPRT p) PgPRT.DSP_EVT_EVT_BASE
  decide (b ≤ e) && decide (e < b + s.fld (pg cPRT p) PgPRT.DSP_EVT_EVT_COUNT)

/-- A queue lies in partition `p`'s range (R191). -/
def State.queueIn (s : State) (p q : Nat) : Bool :=
  let b := s.fld (pg cPRT p) PgPRT.DSP_QUOTA_QUEUE_BASE
  decide (b ≤ q) && decide (q < b + s.fld (pg cPRT p) PgPRT.DSP_QUOTA_QUEUE_COUNT)

/-- The DSP page of a partition is BUSY while it has a live task, its PRT page while it has a queue (R161, R190).
[DEDUCED, log entry 188] -/
def State.dspWork (s : State) (p : Nat) : State :=
  (s.workSet (pg cDSP p) (s.dsp.tasks.any (fun t => t.part = p))).workSet (pg cPRT p) (s.dsp.queues.any (fun e => e.2.part = p))

/-- A queue enters STOPPED_ERR with a code and an index (R165, R167). -/
def State.stopQueue (s : State) (q code idx : Nat) : State :=
  let x := s.queue q
  (s.setQueue q { x with st := .stoppedErr, errIndex := idx, errCode := code }).setInt (pg cDSP x.part) 0

/-- A hank drops what it holds of runs that are gone. -/
def dropRuns (h : HankSt) (gone : List Nat) : HankSt :=
  { h with acts := h.acts.filter (fun e => !gone.contains e.1)
           run := (match h.run with | some r => if gone.contains r.spin then none else some r | none => none)
           drains := h.drains.filter (fun d => !gone.contains d.spin) }

/-! ### Becoming READY, and the end of a task (R174, R175, R187, R188) -/

/-- What a task that ends with a status carries on (R188): an errored predecessor's error, or its own. -/
def TaskSt.carried (t : TaskSt) (status : Nat) : Option ErrOrigin :=
  if status = 0 then none
  else if status = tsPRED_FAILED then
    match t.origin with
    | some o => some o
    | none => match t.predErr with
      | some (_, o) => some o
      | none => some ⟨status, t.id.queue, t.id.index⟩
  else some ⟨status, t.id.queue, t.id.index⟩

/-- A task retires (R174): it leaves the store, and its partition's counters take it. -/
def State.retire (s : State) (t : TaskSt) : State :=
  let s1 : State := { s with
    dsp := { s.dsp with tasks := s.dsp.tasks.filter (fun x => x.id ≠ t.id), ready := s.dsp.ready.filter (fun x => x ≠ t.id) }
    taskErrs := NMap.erase s.taskErrs (taskKey t.id) }
  (s1.count (pg cDSP t.part) (if t.status = 0 then PgDSP.PERF_DONE else PgDSP.PERF_FAILED) 1).dspWork t.part

/-- A task that failed itself is counted at task level (R187, 22_fault_detection.md R621). -/
def taskFails (status : Nat) : Bool := status ≠ 0 && status ≠ tsPRED_FAILED && status ≠ tsCANCELLED

def State.copy? (s : State) (k : Nat) : Option CopyRun := s.dsp.copies.find? (fun c => c.id = k)
/-- Stores a copy under its number. -/
def State.putCopy (s : State) (c : CopyRun) : State :=
  { s with dsp := { s.dsp with copies := s.dsp.copies.map (fun x => if x.id = c.id then c else x) } }
/-- Copies that satisfy a test are gone, their regions' translations with them. -/
def State.dropCopies (s : State) (f : CopyRun → Bool) : State :=
  let gone := s.dsp.copies.filter f
  { s with dsp := { s.dsp with copies := s.dsp.copies.filter (fun c => !f c) }
           atu := { s.atu with tiles := s.atu.tiles.filter (fun e => !gone.any (fun c => e.want.client = c.client && e.want.id / 128 = c.id)) } }
/-- A copy's access has been answered: what it read is there, what it wrote is accepted; a status other than OK ends it (R326). -/
def State.copyBack (s : State) (k status : Nat) (f : CopyRun → CopyRun) : State :=
  match s.copy? k with
  | none => s
  | some c =>
    if status ≠ 0 then s.putCopy { c with busy := false, ended := true, status := if c.status = 0 then status else c.status }
    else s.putCopy { f c with busy := false }
/-- The next piece of a copy lies `n` bytes on. -/
def CopyRun.advance (c : CopyRun) (n : Nat) : CopyRun :=
  if c.rowBytes ≤ c.pos + n then { c with row := c.row + 1, pos := 0, piece := none } else { c with pos := c.pos + n, piece := none }
/-- A region of a copy is finally refused (R326, R327): the copy ends. -/
def State.copyRefused (s : State) (client id : Nat) : State :=
  { s with dsp := { s.dsp with copies := s.dsp.copies.map (fun c =>
      if c.client = client && c.id = id / 128 && !c.ended then { c with ended := true, status := tsXLATE_REFUSED } else c) } }

/-- A task that ends leaves its engine: its DMA engine is free, its tiles are released (R325), a SITE task that the chiplet still runs keeps
only its credit, a SPIN's unstarted and running tiles are dropped once no member of its run is left, an XFER's binding and a COLL's run go. -/
def State.engineFree (s : State) (t : TaskSt) : State :=
  let s0 := s.dropCopies (fun c => c.for_ = .move t.id)
  let s1 : State := { s0 with atu := { s0.atu with tiles := s0.atu.tiles.filter (fun e => e.want.task ≠ some t.id) } }
  if t.phase ≠ .dispatched then s1
  else if t.ty = 2 then s1.workEnd (pg cDMA t.engine)
  else if t.ty = 3 then
    let sx := s1.siteSt t.engine
    let ts := sx.tasks.map (fun (u : SiteTask) => if u.task = t.id then { u with late := true } else u)
    s1.setSite t.engine { sx with tasks := ts }
  else if t.ty = 1 then
    let runs := s1.dsp.spins.map (fun (r : SpinRun) => { r with members := r.members.filter (fun m => m.task ≠ t.id) })
    let gone := (runs.filter (fun r => r.members = [])).map (fun r => r.id)
    let hs := s1.dsp.hanks.map (fun e => (e.1, dropRuns e.2 gone))
    let fs := s1.dsp.fills.filter (fun f => !gone.contains f.spin)
    let bs := (s1.dsp.batches.map (fun (b : Batch) => { b with reqs := b.reqs.filter (fun q => q.1 ≠ t.id) })).filter (fun b => b.reqs ≠ [])
    { s1 with dsp := { s1.dsp with spins := runs.filter (fun r => r.members ≠ []), hanks := hs, batches := bs, fills := fs } }
  else if t.ty = 4 then
    { s1 with mil := { s1.mil with ports := s1.mil.ports.map (fun e =>
      (e.1, { e.2 with bound := e.2.bound.filter (fun b => b.task ≠ t.id), runs := e.2.runs.filter (fun r => r.task ≠ some t.id) })) } }
  else if t.ty = 5 then
    let s2 : State := { s1 with mil := { s1.mil with colls := s1.mil.colls.filter (fun c => c.task ≠ t.id) } }
    s2.workSet pCOL (s2.mil.colls ≠ [])
  else s1

/-- A SPIN's arithmetic status (R159, R185). -/
def State.spinArith (s : State) (t : TaskId) : Nat :=
  match s.dsp.spins.findSome? (fun r => r.members.find? (fun m => m.task = t)) with
  | some m => m.bits + min 0xFFFF m.flagged * 65536
  | none => 0

/-- A task is DONE with a status: its walk begins, and ends at once where it has no reference; a task of a queue being destroyed is
CANCELLED (R163, R174). -/
def State.taskEnd (s : State) (id : TaskId) (status : Nat) : State :=
  match s.task? id with
  | none => s
  | some t =>
    if t.phase = .walking then s
    else
      let st := if (s.queue id.queue).destroying then tsCANCELLED else status
      let t1 := { t with phase := .walking, status := st, origin := t.carried st, arith := if t.ty = 1 then s.spinArith id else t.arith }
      let s0 := s.engineFree t
      let s1 : State := { s0 with dsp := { s0.dsp with ready := s0.dsp.ready.filter (fun x => x ≠ id) } }
      let s2 := if taskFails st then s1.taskFailCount else s1
      if st = tsCANCELLED || (t.refs = [] && t.block = 0) then s2.retire t1
      else (s2.putTask t1)

/-- A task whose engine ends it with success ends with what was reported against it, where something was (R187). -/
def State.taskDone (s : State) (id : TaskId) (status : Nat) : State :=
  let e := NMap.getD s.taskErrs 0 (taskKey id)
  s.taskEnd id (if e = 0 then status else e)

/-- A task with no pending predecessor becomes READY; a marked one does not run, unless it is a SIGNAL or ignores errors (R175,
R188). -/
def State.makeReady (s : State) (id : TaskId) : State :=
  match s.task? id with
  | none => s
  | some t =>
    if t.phase ≠ .waiting || t.pred ≠ 0 then s
    else if t.predErr ≠ none && !t.ignoreErr && t.ty ≠ 7 then s.taskEnd id tsPRED_FAILED
    else
      let s1 := s.putTask { t with phase := .ready }
      { s1 with dsp := { s1.dsp with ready := s1.dsp.ready ++ [id] } }

/-- Itinerary slots of a partition remember the tag of a task that is dispatched (08_memory_tiers.md R260 TAG). -/
def State.tagSeen (s : State) (p tag : Nat) : State :=
  { s with mem := { s.mem with itn := s.mem.itn.map (fun e =>
      if e.2.part = p && !e.2.tags.contains (tag % 2 ^ 32) && s.fld (pg cITN e.1) PgITN.STATE_STATE = 1 then
        (e.1, { e.2 with tags := e.2.tags ++ [tag % 2 ^ 32] })
      else e) } }

/-- A task is given to its resource. -/
def State.dispatched (s : State) (t : TaskSt) (engine : Nat) : State :=
  let s1 := (s.putTask { t with phase := .dispatched, engine := engine }).tagSeen t.part t.tag
  { s1 with dsp := { s1.dsp with ready := s1.dsp.ready.filter (fun x => x ≠ t.id) } }

/-- The task a resource of a type takes of partition `p` (R175): the oldest of the highest priority that can use it; none while a FATAL
event stops dispatch (22_fault_detection.md R622). -/
def State.pickTask (s : State) (p ty : Nat) (can : TaskSt → Bool) : Option TaskSt :=
  if s.saf.stopped then none
  else
    let rs := (s.dsp.ready.filterMap s.task?).filter (fun t => t.part = p && t.ty = ty && can t)
    (List.range 8).findSome? (fun k => rs.find? (fun t => t.prio = k))

/-- The partition deficit round robin serves among `cs` (11_mesh_and_regulation.md R343), and what then remains of its quantum.
[DEDUCED, log entry 184] -/
def State.drrNext (s : State) (key : Nat) (cs : List Nat) : Option (Nat × Nat) :=
  let d := NMap.getD s.dsp.drr (15, 0) key
  if cs.contains d.1 && 0 < d.2 then some (d.1, d.2 - 1)
  else ((List.range 16).map (fun k => (d.1 + 1 + k) % 16)).findSome? (fun p =>
    if cs.contains p then some (p, s.fld (pg cTOL (496 + p)) PgTSH.DSP_SHARE_WEIGHT - 1) else none)

/-- The task the Dispatcher gives a free resource of a type (R175, 11_mesh_and_regulation.md R343): partitions with a task of real-time
priority that can use it come first.
[DEDUCED, log entry 184] -/
def State.pick (s : State) (ty : Nat) (can : TaskSt → Bool) : Option (TaskSt × State) :=
  let cand (p : Nat) : Option TaskSt := s.pickTask p ty can
  let rt (p : Nat) : Bool := match cand p with | some t => decide (t.prio < s.fld (pg cTOL (496 + p)) PgTSH.DSP_SHARE_RT_LEVELS) | none => false
  let tier1 := (List.range 16).filter rt
  let tier2 := (List.range 16).filter (fun p => (cand p).isSome && !rt p)
  let key := ty * 2 + b2n (tier1 = [])
  match s.drrNext key (if tier1 = [] then tier2 else tier1) with
  | none => none
  | some (p, left) => (cand p).map (fun t =>
      (t, ({ s with dsp := { s.dsp with drr := NMap.put s.dsp.drr (15, 0) key (p, left) } } : State).count
        (pg cTOL (496 + p)) PgTSH.PERF_DISPATCHES 1))

/-- The completion record of a SIGNAL is written (R184): the interrupt follows the FLAG write, and the SIGNAL is DONE; a write that failed
ends it with its status; of a SIGNAL whose queue is being destroyed no interrupt follows (R163, R193). -/
def State.recordDone (s : State) (id : TaskId) (status : Nat) : State :=
  match s.task? id with
  | none => s
  | some t =>
    if status ≠ 0 || (s.queue id.queue).destroying then s.taskEnd id status
    else
      let s1 := if natBit (t.body.getD 1 0).toNat 0 then s.sendVector (leNat ((t.body.drop 2).take 2)) else s
      s1.taskEnd id (if t.predErr = none then tsOK else tsPRED_FAILED)

/-! ### The array, as units leave and writes arrive (04_spindle_array.md) -/

def State.hank (s : State) (n : Nat) : HankSt := NMap.getD s.dsp.hanks {} n
def State.setHank (s : State) (n : Nat) (h : HankSt) : State :=
  { s with dsp := { s.dsp with hanks := NMap.put s.dsp.hanks {} n h } }
def State.spin? (s : State) (k : Nat) : Option SpinRun := s.dsp.spins.find? (fun r => r.id = k)
def State.putSpin (s : State) (r : SpinRun) : State :=
  { s with dsp := { s.dsp with spins := s.dsp.spins.map (fun x => if x.id = r.id then r else x) } }

/-- The lead hank of a set: its lowest live hank (R112). -/
def State.lead (s : State) (hs : List Nat) : Nat := (hs.find? (fun n => s.live (.hank n))).getD 0

/-- Hanks of HSET `k` of partition `p` as the bits are written. -/
def State.hsetBits (s : State) (p k : Nat) : List Nat :=
  (List.range 7).flatMap (fun w =>
    let v := (s.actWord (pg cDSP p) (0x200 + 0x40 * k + 8 * w)).toNat
    (List.range 64).filterMap (fun j => if natBit v j && 64 * w + j < 400 then some (64 * w + j) else none))

/-- PLACE of a descriptor: 0 DYNAMIC, 1 AFFINE, 2 FIXED (R155 of 05_spindle_arithmetic.md). -/
def PatDesc.place (d : PatDesc) : Nat := d.flags % 4

/-- A tile is at its start: no step of it is done. -/
def TileRun.edge (t : TileRun) : Bool := t.step = 0 && t.pass = 0 && t.group = 0

/-- A hank has work: a drain, or a tile, but for one that a quiesce holds at its start (R119, R124). -/
def State.hankBusy (s : State) (n : Nat) : Bool :=
  let h := s.hank n
  let p := pg cHNK n
  decide (h.drains ≠ []) || (match h.run with
    | some t => !(t.edge && h.check = 0 && (s.flag p PgHDR.PAGE_CTRL_QUIESCE_REQ || !s.flag p PgHDR.PAGE_CTRL_ENABLE))
    | none => false)

/-- The HNK and BOB pages are BUSY while the hank has work. -/
def State.hankWork (s : State) (n : Nat) : State :=
  let b := s.hankBusy n
  (s.workSet (pg cHNK n) b).workSet (pg cBOB n) b

/-- A fill's accesses have been answered: what came waits for the hank. -/
def State.fillBack (s : State) (k status : Nat) (parts : List (List Byte × Nat)) : State :=
  { s with dsp := { s.dsp with fills := s.dsp.fills.map (fun f => if f.id = k then { f with got := some (status, parts) } else f) } }

/-- What comes for a hank's operands is dropped: its pass starts anew; `all`: what it merges too. -/
def State.dropFills (s : State) (n : Nat) (all : Bool) : State :=
  { s with dsp := { s.dsp with fills := s.dsp.fills.map (fun f =>
      if f.fill = none && !all then f else { f with goesTo := f.goesTo.filter (fun k => k ≠ n) }) } }

/-- What a hank drained has been accepted at its homes: a unit is written, or a strip of an M tile, whose last one makes its hank merge
(R152); a write that failed is reported against the tasks. -/
def State.drained (s : State) (n spin unit mt ends status : Nat) : State :=
  match s.spin? spin with
  | none => s
  | some r =>
    let s1 := if status = 0 then s else r.members.foldl (fun s m => s.taskErr (some m.task) status) s
    if ends = 2 then s1.putSpin { r with done := r.done + 1 }
    else if ends = 3 then
      let k := NMap.getD r.segDone 0 mt + 1
      let r1 := { r with segDone := NMap.put r.segDone 0 mt k }
      s1.putSpin (if k < r.desc.nSeg then { r1 with done := r1.done + 1 } else { r1 with merges := r1.merges ++ [(n, mt, unit)] })
    else s1

/-- Requests of a batch, or on their way to one, go back to the Dispatcher as new arrivals (R113). -/
def State.backToReady (s : State) (ts : List TaskId) : State :=
  ts.foldl (fun s id => match s.task? id with
    | some t =>
      let s1 := s.putTask { t with phase := .ready }
      { s1 with dsp := { s1.dsp with ready := s1.dsp.ready ++ [id] } }
    | none => s) s

/-- A run loses a hank (R122): what the hank held is run again; in FIXED mode, or without a hank left, the SPIN ends with a code once no hank
holds a tile or drain of it (06_task_graphs.md R177).
[DEDUCED, log entry 195] -/
def State.runLoses (s : State) (n : Nat) (h : HankSt) (r : SpinRun) : State :=
  if !r.hanks.contains n then s
  else
    let mine := (match h.run with | some t => if t.spin = r.id then [t.unit] else [] | none => []) ++
      ((h.drains.filter (fun d => d.spin = r.id && 2 ≤ d.ends && d.set < 2)).map (fun d => d.unit))
    let rest := r.hanks.filter (fun k => k ≠ n && s.live (.hank k))
    let lost := if r.desc.place = 2 then tsFIXED_SET_LOST else if rest = [] then tsHSET_EMPTY else 0
    if lost ≠ 0 then (r.members.foldl (fun s m => s.taskErr (some m.task) lost) s).putSpin { r with stop := true }
    else
      let orph := if r.desc.place = 1 then (List.range r.hanks.length).filter (fun j => r.hanks[j]? = some n) else []
      s.putSpin { r with requeue := r.requeue ++ mine, orphans := r.orphans ++ orph
                         merges := r.merges.map (fun m => if m.1 = n then (rest.headD 0, m.2.1, m.2.2) else m) }

/-- A hank leaves service (R113, R122): its runs lose it, batches of its sets go back unrun, it holds nothing. -/
def State.hankGone (s : State) (n : Nat) : State :=
  let h := s.hank n
  let s1 := s.dsp.spins.foldl (fun s r => s.runLoses n h r) s
  let bs := s1.dsp.batches.filter (fun b => b.hanks.contains n)
  let as_ := s1.dsp.arriving.filter (fun a => a.hanks.contains n)
  let s2 : State := { s1 with dsp := { s1.dsp with
    batches := s1.dsp.batches.filter (fun b => !b.hanks.contains n), arriving := s1.dsp.arriving.filter (fun a => !a.hanks.contains n) } }
  let s3 := s2.backToReady ((bs.map (fun b => b.reqs.map (fun q => q.1))).flatten ++ as_.map (fun a => a.task))
  (s3.dropFills n true).setHank n { lastSet := h.lastSet, steps := h.steps, fence := h.fence, unfence := h.unfence }

/-- A hank comes back below the lead hank of a set it belongs to (R113): the lead changes, and batches of that set go back unrun. -/
def State.leadBack (s : State) (n : Nat) : State :=
  let hit (part hset : Nat) (hs : List Nat) : Bool :=
    decide (n < s.lead hs) && s.ownerPart (pg cHNK n) = part && (s.hsetBits part hset).contains n
  let bs := s.dsp.batches.filter (fun b => hit b.part b.hset b.hanks)
  let as_ := s.dsp.arriving.filter (fun a => hit a.part a.hset a.hanks)
  let s1 : State := { s with dsp := { s.dsp with
    batches := s.dsp.batches.filter (fun b => !hit b.part b.hset b.hanks), arriving := s.dsp.arriving.filter (fun a => !hit a.part a.hset a.hanks) } }
  s1.backToReady ((bs.map (fun b => b.reqs.map (fun q => q.1))).flatten ++ as_.map (fun a => a.task))

/-- An error arrives with a decrement (R188): the errored predecessor of lowest index, the one farthest behind the task, is kept, and all
are counted. -/
def TaskSt.mark (t : TaskSt) (idx : Nat) (o : ErrOrigin) : TaskSt :=
  let far (i : Nat) : Nat := (t.id.index + 2 ^ 32 - i) % 2 ^ 32
  { t with failedPreds := satAdd 0xFFFF t.failedPreds 1
           predErr := match t.predErr with
             | some (i, q) => if far idx ≤ far i then some (i, q) else some (idx, o)
             | none => some (idx, o) }

/-- Index `i` of a queue has been fetched: it lies behind HEAD (R160, 32-bit indices). -/
def QueueSt.fetched (x : QueueSt) (i : Nat) : Bool :=
  let d := (x.head + 2 ^ 32 - i % 2 ^ 32) % 2 ^ 32
  decide (0 < d) && decide (d ≤ 2 ^ 31)

/-- Combines arithmetic status words (R185): bits [7:2] by OR, FLAGGED in [31:16] by saturating sum.
[DEDUCED, log entry 188] -/
def arithJoin (a b : Nat) : Nat :=
  (a % 256 ||| b % 256) + satAdd 0xFFFF (a / 65536) (b / 65536) * 65536

/-- Cancels every live task of a queue (R163, R193): tasks not with an engine retire at once; the copies and tiles of one an engine runs go no
further, and it is CANCELLED when it has stopped. -/
def State.cancelQueue (s : State) (q : Nat) : State :=
  let s1 : State := { s with dsp := { s.dsp with
    copies := s.dsp.copies.map (fun c => match c.for_ with | .move t => if t.queue = q then { c with ended := true } else c | .stage .. => c)
    spins := s.dsp.spins.map (fun (r : SpinRun) => if r.members.all (fun m => m.task.queue = q) then { r with stop := true } else r) } }
  (s.dsp.tasks.filter (fun t => t.id.queue = q && (t.phase ≠ .dispatched || t.ty = 6))).foldl (fun s t =>
    s.retire { t with status := tsCANCELLED }) s1

/-- A new TAIL for a queue (R163, R165): accepted within the ring and ahead of the old one, else the queue stops with OVERRUN. -/
def State.dbTail (s : State) (q tail : Nat) : State :=
  let x := s.queue q
  let t := tail % 2 ^ 32
  if x.st = .absent || x.destroying || t = x.tail then s
  else if (t + 2 ^ 32 - x.head) % 2 ^ 32 ≤ 2 ^ x.log2 && (t + 2 ^ 32 - x.tail) % 2 ^ 32 < 2 ^ 31 then s.setQueue q { x with tail := t }
  else s.stopQueue q tsOVERRUN 0

end Sys2Proof.Machine
end

