-- ==== Sys2Proof/Machine/FabOps.lean ====
section
/-! DEFINITION. Routing, strands and credits of the fabric (14_fabric_links.md R428-R444). -/
namespace Sys2Proof.Machine

/-! ### Strands -/

def State.strand (s : State) (g : Nat) : StrandSt := NMap.getD s.fab.strands {} g
def State.setStrand (s : State) (g : Nat) (x : StrandSt) : State :=
  { s with fab := { s.fab with strands := NMap.put s.fab.strands {} g x } }

/-- STRAND.STATE codes (R452). -/
def ssDOWN : Nat := 0
def ssTRAINING : Nat := 1
def ssUP : Nat := 2
def ssRETRAINING : Nat := 3
def ssNO_PEER : Nat := 4
def ssPEER_RESET : Nat := 5
def ssMODE_MISMATCH : Nat := 6
def ssMISCABLED : Nat := 7
def ssTEST : Nat := 8
def ssFAULTED : Nat := 9

/-- STATE of a strand. -/
def State.strandState (s : State) (g : Nat) : Nat := natBits (s.word (pg cFAB (g / 4)) 0x130).toNat (16 * (g % 4) + 3) (16 * (g % 4))
def State.setStrandState (s : State) (g st : Nat) : State :=
  let p := pg cFAB (g / 4)
  s.setWord p 0x130 (BitVec.ofNat 64 (natSetBits (s.word p 0x130).toNat (16 * (g % 4) + 3) (16 * (g % 4)) st))

/-- The port a strand is placed in (R429). -/
def State.portOf (s : State) (g : Nat) : Nat := 2 * (g / 4) + b2n (natBit (s.fld (pg cFAB (g / 4)) PgFAB.CFG_PORT_SEL) (g % 4))

/-- The strand carries DATA: UP, in the live floor plan, its page not FENCED (R434, R451). -/
def State.strandUp (s : State) (g : Nat) : Bool :=
  s.strandState g = ssUP && s.live (.strand (g / 4) (g % 4)) && s.live (.optAtt (g / 4)) && s.pageState (pg cFAB (g / 4)) ≠ stFENCED

/-- The FAB page is BUSY while a packet is queued or a DATA frame is unacknowledged (R452); while it is quiesced, queued packets wait
(R453). -/
def State.fabWork (s : State) (a : Nat) : State :=
  let p := pg cFAB a
  s.workSet p ((List.range 4).any (fun k => let x := s.strand (4 * a + k); (x.queue ≠ [] && s.accepts p) || x.unacked ≠ []))

/-! ### Routing (R430, R433) -/

/-- This hub's node. -/
def State.node (s : State) : Nat := s.fld (pg cFAB 0) PgFAB.TOPO_NODE

/-- Output direction of a packet (R433): dimension and PLUS, and the packet with DL as it leaves; `none`: LOCAL. DL clears where the packet
enters a dimension, which it does at the hub that still has its source's coordinate there. -/
def State.route (s : State) (p : FabPkt) : Option (Nat × Bool) × FabPkt :=
  let f := pg cFAB 0
  let size (d : Nat) : Nat := 1 + (if d = 0 then s.fld f PgFAB.TOPO_SZ_X else if d = 1 then s.fld f PgFAB.TOPO_SZ_Y else s.fld f PgFAB.TOPO_SZ_Z)
  let wrap (d : Nat) : Bool := natBit (s.fld f PgFAB.TOPO_WRAP) d
  let at_ (n d : Nat) : Nat := natBits n (6 * d + 5) (6 * d)
  match (List.range 3).find? (fun d => at_ s.node d ≠ at_ p.dst d) with
  | none => (none, p)
  | some d =>
    let n := size d
    let c := at_ s.node d
    let t := at_ p.dst d
    let fwd := (t + n - c % n) % n
    let plus := if wrap d then decide (fwd ≤ n - fwd) else decide (c < t)
    let cross := wrap d && (if plus then decide (c + 1 = n) else decide (c = 0))
    let first := decide (at_ p.src d = c)
    (some (d, plus), { p with dl := cross || (p.dl && !first) })

/-- Ports toward a direction (R434). -/
def State.dirPorts (s : State) (d : Nat) (plus : Bool) : Nat :=
  let f := pg cFAB 0
  match d, plus with
  | 0, true => s.fld f PgFAB.DIR_PORTS0_PX
  | 0, false => s.fld f PgFAB.DIR_PORTS0_MX
  | 1, true => s.fld f PgFAB.DIR_PORTS0_PY
  | 1, false => s.fld f PgFAB.DIR_PORTS0_MY
  | _, true => s.fld f PgFAB.DIR_PORTS1_PZ
  | _, false => s.fld f PgFAB.DIR_PORTS1_MZ

/-- Slots a packet takes (R431). -/
def pktSlots (p : FabPkt) : Nat := 1 + (p.data.length + 31) / 32

/-- Class S travels without credits; A is DACK, the rest U (R432, R435). -/
def pktS (p : FabPkt) : Bool := p.sched || p.ty = 4 || p.ty = 8
def pktA (p : FabPkt) : Bool := p.ty = 2

/-- Slots of VC S that a strand input holds (R435): scheduled packets that came in by it and wait at an output. -/
def State.vcS (s : State) (g : Nat) : Nat :=
  ((s.fab.strands.flatMap (fun e => e.2.queue.filter (fun o => o.inp = some g && pktS o.pkt))).map (fun o => pktSlots o.pkt)).foldl (· + ·) 0

/-- Credits left for a packet's virtual channel. -/
def StrandSt.credit (x : StrandSt) (p : FabPkt) : Nat :=
  if pktA p then (if p.dl then x.ca1 else x.ca0) else (if p.dl then x.cu1 else x.cu0)
def StrandSt.takeCredit (x : StrandSt) (p : FabPkt) : StrandSt :=
  let k := pktSlots p
  if pktS p then x
  else if pktA p then (if p.dl then { x with ca1 := x.ca1 - k } else { x with ca0 := x.ca0 - k })
  else (if p.dl then { x with cu1 := x.cu1 - k } else { x with cu0 := x.cu0 - k })

/-- The input buffer a packet holds is freed, and its credits go back to the neighbour (R435).
[DEDUCED, log entry 155] -/
def State.freeInput (s : State) (g : Nat) (p : FabPkt) : State :=
  if pktS p then s
  else
    let x := s.strand g
    let k := pktSlots p
    let x1 := if pktA p then (if p.dl then { x with ra1 := x.ra1 - k } else { x with ra0 := x.ra0 - k })
              else (if p.dl then { x with ru1 := x.ru1 - k } else { x with ru0 := x.ru0 - k })
    (s.setStrand g x1).emit (.fabCredit g (2 * b2n (pktA p) + b2n p.dl) k)

/-- The key slot of a job on a port (R443). -/
def State.keySlotOf (s : State) (port job : Nat) : Option Nat :=
  (List.range 16).find? (fun k => let x := NMap.getD s.fab.keys {} (port * 16 + k); x.cur ≠ none && x.job = job && (k = 0) = (job = 0))

/-- The attachment runs SECURE (R441). -/
def State.fabSecure (s : State) (a : Nat) : Bool := s.flag (pg cFAB a) PgFAB.CFG_MODE

/-- Takes a frame counter of a slot's phase (R443). -/
def State.nextFcnt (s : State) (port slot : Nat) : Nat × State :=
  let k := NMap.getD s.fab.keys {} (port * 16 + slot)
  (k.fcnt, { s with fab := { s.fab with keys := NMap.put s.fab.keys {} (port * 16 + slot) { k with fcnt := k.fcnt + 1 } } })

/-- Counts a frame sent or received, in units of 1,024. -/
def State.frameCount (s : State) (g : Nat) (tx : Bool) : State :=
  let x := s.strand g
  let c := (if tx then x.txCount else x.rxCount) + 1
  let s1 := s.setStrand g (if tx then { x with txCount := c % 1024 } else { x with rxCount := c % 1024 })
  if c = 1024 then s1.count (pg cFAB (g / 4)) (if tx then PgFAB.PERF0_TX_KFRAMES else PgFAB.PERF0_RX_KFRAMES) 1 else s1

/-- The identity a LINK frame of this hub carries: its node, attachment, strand, mode; key slots whose NEXT is loaded (R427, R444). -/
def State.ownLink (s : State) (g spare : Nat) : LinkBody :=
  let port := s.portOf g
  ⟨0, 0, 0, 0, s.node, g / 4, g % 4, b2n (s.fabSecure (g / 4)), spare, (Config.certDigest 0).toNat,
   (List.range 16).foldl (fun m k => if (NMap.getD s.fab.keys {} (port * 16 + k)).next ≠ none then m + 2 ^ k else m) 0⟩

/-- One frame leaves on a strand: encrypted under its job's slot and phase with a fresh FCNT where the attachment runs SECURE
(R428, R443). -/
def State.sendOne (s : State) (g : Nat) (f : FabFrame) : State :=
  let port := s.portOf g
  let sec := s.fabSecure (g / 4)
  let slot := match s.keySlotOf port f.job with | some k => k | none => 0
  let r := if sec then s.nextFcnt port slot else (0, s)
  let x := r.2.strand g
  let f1 := { f with secure := sec, fcnt := r.1, ack := (x.rxSeq + 4095) % 4096, keyPhase := (NMap.getD s.fab.keys {} (port * 16 + slot)).phase,
                     hold := s.mil.time.hold.isSome || f.hold, hubReset := s.boot.warm || f.hubReset }
  (r.2.emit (.fabFrame g f1)).frameCount g true

/-- A frame leaves on a strand, and with every 63rd a LINK frame, so that one comes in every 64 (R427). -/
def State.sendFrame (s : State) (g : Nat) (f : FabFrame) : State :=
  let s1 := s.sendOne g f
  if (s1.strand g).txCount % 64 = 63 then
    s1.sendOne g ⟨2, false, false, false, false, false, 0, (s1.strand g).txSeq, 0, 0, [], some (s1.ownLink g 31)⟩
  else s1

/-- The packet a strand sends next: S, then A, then U, as credits allow; those of one input and virtual channel in order (R435, R436). -/
def StrandSt.pick (x : StrandSt) : Option FabOut :=
  let same (o q : FabOut) : Bool := q.inp = o.inp && pktA q.pkt = pktA o.pkt && pktS q.pkt = pktS o.pkt && q.pkt.dl = o.pkt.dl
  let can (o : FabOut) : Bool := pktS o.pkt || (x.queue.find? (same o) = some o && decide (pktSlots o.pkt ≤ x.credit o.pkt))
  match x.queue.find? (fun o => pktS o.pkt && can o) with
  | some o => some o
  | none => match x.queue.find? (fun o => pktA o.pkt && can o) with
    | some o => some o
    | none => x.queue.find? can

/-- Queued packets leave in DATA frames while the window of 256, the credits, the strand and its page allow (R428, R435, R453). -/
def State.pump (s : State) (g : Nat) : Nat → State
  | 0 => s
  | fuel + 1 =>
    let x := s.strand g
    if !s.strandUp g || !s.accepts (pg cFAB (g / 4)) || 256 ≤ x.unacked.length then s
    else match x.pick with
      | none => s
      | some o =>
        let f : FabFrame := ⟨1, false, false, false, false, false, o.pkt.job, x.txSeq, 0, 0, [o.pkt], none⟩
        let x1 := { x with queue := x.queue.erase o, unacked := x.unacked ++ [f], txSeq := (x.txSeq + 1) % 4096 }
        let s1 := (s.setStrand g (x1.takeCredit o.pkt)).sendFrame g f
        (match o.inp with | some i => s1.freeInput i o.pkt | none => s1).pump g fuel

/-- Sends what a strand can, and settles its page; an overrun of VC S is over once every input is below half full
(15_milestone_schedule.md R474). -/
def State.pumpStrand (s : State) (g : Nat) : State :=
  let s1 := (s.pump g ((s.strand g).queue.length + 1)).fabWork (g / 4)
  if s1.fab.sOver && (List.range 24).all (fun h => decide (s1.vcS h < 512)) then { s1 with fab := { s1.fab with sOver := false } } else s1

/-- A packet is queued on a strand. -/
def State.queueOn (s : State) (g : Nat) (o : FabOut) : State :=
  let x := s.strand g
  (s.setStrand g { x with queue := x.queue ++ [o] }).pumpStrand g

/-- The DACK that answers a packet (R439, R440). -/
def dackFor (p : FabPkt) (status : Nat) : FabPkt :=
  { p with ty := 2, sched := false, dl := false, ackReq := false, dst := p.src, dpart := p.spart, src := p.dst, spart := p.dpart,
           data := [], poison := 0, hint := 0, arg16 := 0, arg32 := status }

/-- The strand of a set of ports that a scheduled packet takes (15_milestone_schedule.md R468): of the first port with a live strand, the one with
index `k`, else the next live one, cyclically. -/
def State.schedStrand (s : State) (ports k : Nat) : Option Nat :=
  ((List.range 12).filter (fun p => natBit ports p)).findSome? (fun p =>
    ((List.range 4).map (fun i => 4 * (p / 2) + (k + i) % 4)).find? (fun g => s.portOf g = p && s.strandUp g))

/-- A packet goes toward its destination (R433, R434): delivered here, or queued on the strand of its direction; with no live strand, or
no key for its job on a SECURE port, it is dropped and counted, and its source told. `a`: the attachment it came in by; `strand`: the index of
the strand a scheduled packet arrived on or its entry names. -/
def State.forward (s : State) (a : Nat) (inp : Option Nat) (strand : Option Nat) (p : FabPkt) : Option FabPkt × State :=
  let free (s : State) : State := match inp with | some i => s.freeInput i p | none => s
  match s.route p with
  | (none, q) => (none, (free s).emit (.fabDeliver a q))
  | (some (d, plus), q) =>
    let ports := s.dirPorts d plus
    let ups := match strand with
      | some k => (s.schedStrand ports k).toList
      | none => (List.range 24).filter (fun g => s.strandUp g && natBit ports (s.portOf g))
    match ups[Config.strandHash (p.src * 16 + p.spart) (p.dst * 16 + p.dpart) p.e2e % max 1 ups.length]? with
    | none => (if p.ackReq then some (dackFor p 0x0D) else none, free (s.count (pg cFAB a) PgFAB.PERF2_DROPPED 1))
    | some g =>
      if p.job ≠ 0 && s.fabSecure (g / 4) && s.keySlotOf (s.portOf g) p.job = none then
        (if p.ackReq then some (dackFor p 0x0D) else none,
         free ((s.count (pg cFAB a) PgFAB.PERF2_DROPPED 1).count (pg cFAB (g / 4)) PgFAB.PERF2_KEY_MISS 1))
      else (none, s.queueOn g ⟨q, inp⟩)

/-- Forwards a packet, and the DACK its refusal calls for. -/
def State.junction (s : State) (a : Nat) (inp : Option Nat) (strand : Option Nat) (p : FabPkt) : State :=
  let r := s.forward a inp strand p
  match r.1 with
  | some d => (r.2.forward a none none d).2
  | none => r.2

/-- Resends every unacknowledged frame of a strand, from the oldest (R428), each under the key phase in use and a new FCNT. -/
def State.resend (s : State) (g : Nat) : State :=
  let fs := (s.strand g).unacked
  fs.foldl (fun s f => s.sendFrame g f) (s.count (pg cFAB (g / 4)) PgFAB.PERF1_REPLAYS fs.length)

/-! ### End to end (R439) -/

/-- Sends a packet of this hub that is to be answered with DACK. -/
def State.e2eSend (s : State) (p : FabPkt) (strand : Option Nat) (task : Option TaskId) (event : Option Nat) : State :=
  let id := s.fab.nextE2e
  let q := { p with e2e := id % 2 ^ 32, ackReq := true, src := s.node }
  let s1 : State := { s with fab := { s.fab with nextE2e := id + 1, e2e := s.fab.e2e ++ [{ id := id, pkt := q, task := task, event := event }] } }
  s1.junction 0 none strand q

/-- The applied-packet table holds a pair (R439). -/
def State.appliedStatus (s : State) (p : FabPkt) : Option Nat :=
  (s.fab.applied.find? (fun e => e.1 = p.src * 16 + p.spart && e.2.1 = p.e2e)).map (fun e => e.2.2)

/-- Records an applied packet and answers it. -/
def State.applyDack (s : State) (a : Nat) (p : FabPkt) (status : Nat) : State :=
  let s1 : State := if p.ackReq then
      { s with fab := { s.fab with applied := s.fab.applied ++ [(p.src * 16 + p.spart, p.e2e, status)] } } else s
  if p.ackReq then s1.junction a none none (dackFor p status) else s1

/-- The partition of a delivered packet is bound to its job (R438). -/
def State.jobMatches (s : State) (p : FabPkt) : Bool :=
  s.flag (pg cPRT p.dpart) PgPRT.JOB_VALID && s.fld (pg cPRT p.dpart) PgPRT.JOB_TAG = p.job

/-- Poison of a run of packet data on the line it falls on: packet sector i is poisoned where bit i is set (R278, R431). -/
def packetPois (off mask pos n : Nat) : Nat :=
  let lo := (off + pos) % 64
  let hit (k : Nat) : Bool := (List.range n).any (fun i => natBit mask ((pos + i) / 32) && (lo + i) / 32 = k)
  b2n (hit 0) + 2 * b2n (hit 1)

/-- A packet that may be applied once: a duplicate gets its DACK again, one that finds the table full gets BUSY, one in progress is left
(R439). -/
def State.onceOnly (s : State) (a : Nat) (p : FabPkt) (f : State → State) : State :=
  if !p.ackReq then f s
  else match s.appliedStatus p with
    | some st => s.junction a none none (dackFor p st)
    | none =>
      if s.joins.any (fun j => match j.kind with | .dack _ q => q.src = p.src && q.spart = p.spart && q.e2e = p.e2e | _ => false) then s
      else if 16384 ≤ s.fab.applied.length then s.junction a none none (dackFor p 0x80)
      else f s

end Sys2Proof.Machine
end

