-- ==== Sys2Proof/Machine/Events.lean ====
section
/-! DEFINITION. Events of the Dispatcher (06_task_graphs.md R180-R182). -/
namespace Sys2Proof.Machine

/-- The packet that forwards an increment (R182; 14_fabric_links.md R431, R432). -/
def State.eventPacket (s : State) (p : Nat) (dst remote : Nat) (err : Bool) : FabPkt :=
  { ty := 3, sched := false, dl := false, ackReq := true, win := false, dst := dst % 2 ^ 18, dpart := dst / 2 ^ 18, src := s.node
    spart := p, job := s.fld (pg cPRT p) PgPRT.JOB_TAG, offset := 0, e2e := 0, arg16 := remote, poison := 0, hint := 0
    arg32 := b2n err, data := [] }

/-- A dispatched WAIT is evaluated against its event (R181): ERR ends it with PRED_FAILED unless it ignores errors; else the threshold. -/
def State.evalWait (s : State) (t : TaskSt) : State :=
  let e := leNat (t.body.take 2)
  let x := s.event e
  if e = 0xFFFF then s.taskEnd t.id tsOK
  else if !s.eventIn t.part e || x.fwd ≠ none then s.taskEnd t.id tsEVENT_INVALID
  else if x.err && !t.ignoreErr then
    (s.putTask { t with origin := some ⟨tsPRED_FAILED, 0xFFFF, e⟩ }).taskEnd t.id tsPRED_FAILED
  else if leNat ((t.body.drop 4).take 4) ≤ x.count then s.taskEnd t.id tsOK
  else s

/-- Every WAIT on an event is evaluated again (R181). -/
def State.evalWaits (s : State) (e : Nat) : State :=
  (s.dsp.tasks.filter (fun t => t.ty = 6 && t.phase = .dispatched && leNat (t.body.take 2) = e)).foldl State.evalWait s

/-- An increment of an event for partition `p`, with or without an error (R180, R182). -/
def State.eventInc (s : State) (p e : Nat) (err : Bool) : State :=
  if !s.eventIn p e then s.count (pg cDSP p) PgHDR.ERR_COUNT_CORRECTED 1
  else
    let x := s.event e
    match x.fwd with
    | some (dst, remote) => s.e2eSend (s.eventPacket p dst remote err) none none (some e)
    | none => (s.setEvent e { x with count := (x.count + 1) % 2 ^ 32, err := x.err || err }).evalWaits e

/-- A completion entry has been accepted (17_network_ports.md R528): the QP's event is incremented, if it names one. -/
def State.cqeEvent (s : State) (p e : Nat) (err : Bool) : State := if e = 0xFFFF then s else s.eventInc p e err

/-- A forwarded increment could not be delivered (R182): ERR on the local event; management hears of it.
[DEDUCED, log entry 203] -/
def State.forwardFailed (s : State) (e : Nat) : State :=
  let x := s.event e
  (s.setEvent e { x with err := true }).emit (.mgmtIrq (pg cFAB 0))

end Sys2Proof.Machine
end

