-- ==== Sys2Proof/Machine/EthLow.lean ====
section
/-! DEFINITION. Queue pairs: completions, errors, answers to the peer (17_network_ports.md R524-R530). -/
namespace Sys2Proof.Machine

def State.qp (s : State) (q : Nat) : QpSt := NMap.getD s.eth.qps {} q
def State.setQp (s : State) (q : Nat) (x : QpSt) : State := { s with eth := { s.eth with qps := NMap.put s.eth.qps {} q x } }
def State.mr (s : State) (m : Nat) : Option MrSt := NMap.getD s.eth.mrs none m
def State.ethPort (s : State) (e : Nat) : EthPortSt := NMap.getD s.eth.ports {} e
def State.setEthPort (s : State) (e : Nat) (x : EthPortSt) : State :=
  { s with eth := { s.eth with ports := NMap.put s.eth.ports {} e x } }

def State.ethUp (s : State) (e : Nat) : Bool := s.flag (pg cETH e) PgETH.STATUS_LINK_UP

/-- Counts frames in units of 1,024.
[DEDUCED, log entry 108] -/
def State.ethCount (s : State) (e : Nat) (tx : Bool) (k : Nat) : State :=
  let x := s.ethPort e
  let n := (if tx then x.tx else x.rx) + k
  let s1 := s.setEthPort e (if tx then { x with tx := n % 1024 } else { x with rx := n % 1024 })
  s1.count (pg cETH e) (if tx then PgETH.PERF0_TX_KFRAMES else PgETH.PERF0_RX_KFRAMES) (n / 1024)

/-- PSNs a request takes: a READ takes one per response packet. -/
def QpCtx.packets (c : QpCtx) (len : Nat) : Nat := max 1 ((len + 2 ^ (c.pmtu + 7) - 1) / 2 ^ (c.pmtu + 7))

/-- CQE STATUS codes of the ports (R530). -/
def csRETRY : Nat := 0x30
def csRNR : Nat := 0x31
def csREMOTE_ACCESS : Nat := 0x32
def csREMOTE_OP : Nat := 0x33
def csFLUSHED : Nat := 0x34
def csLENGTH : Nat := 0x35

/-- A completion is to be written. -/
def State.pushCqe (s : State) (q : Nat) (c : Cqe) : State :=
  let x := s.qp q
  s.setQp q { x with cqes := x.cqes ++ [c] }

/-- Receive entries posted and not consumed. -/
def QpSt.rqFree (x : QpSt) : Nat := (x.rqTail + 2 ^ 32 - x.rqHead) % 2 ^ 32
/-- Free entries of the completion ring: those neither written nor waiting to be. -/
def QpSt.cqFree (x : QpSt) : Nat := 2 ^ x.ctx.cqLog - ((x.cqTail + 2 ^ 32 - x.cqHead) % 2 ^ 32) - x.cqes.length

/-- Every later WQE and receive entry completes FLUSHED (R530): the ones issued, then every receive entry posted. Send entries not yet
fetched complete so when they are (WQE rows on a QP in ERROR).
[DEDUCED, log entry 165] -/
def State.qpFlush (s : State) (q : Nat) : State :=
  let x := s.qp q
  let fl (w : WqeRun) : Cqe := ⟨some w.wqe.wrId, w.op, csFLUSHED, 0, 0, false⟩
  s.setQp q { x with runs := [], inq := [], rqHead := x.rqTail
                     cqes := x.cqes ++ x.runs.map fl ++ List.replicate x.rqFree ⟨none, 0x80, csFLUSHED, 0, 0, false⟩ }

/-- A completion that is not OK puts the QP in ERROR (R530). -/
def State.qpError (s : State) (q : Nat) : State :=
  let x := s.qp q
  if x.st ≠ 1 then s
  else ((s.setQp q { x with st := 2 }).setInt (pg cETH x.ctx.port) 1).qpFlush q

/-- Some page lies in host memory. -/
def anyHost (ps : List Addr) : Bool := ps.any (fun a => match a with | .hpa _ => true | .hva _ _ => true | _ => false)

/-- A work request completes with a status: a failed one always reports (R528, R530). -/
def State.wqeDone (s : State) (q : Nat) (r : WqeRun) (status bytes : Nat) : State :=
  let x := s.qp q
  let s1 := s.setQp q { x with runs := x.runs.filter (fun w => w.idx ≠ r.idx) }
  let s2 := if status ≠ 0 || r.wqe.signaled then s1.pushCqe q ⟨some r.wqe.wrId, r.op, status, bytes, 0, 4 ≤ r.op && anyHost r.pages⟩ else s1
  if status = 0 then s2 else s2.qpError q

/-- An answer goes to the peer, while the link is up; the peer sends its request again otherwise (R531). -/
def State.rdmaReply (s : State) (q psn kind arg : Nat) (data : List Byte) : State :=
  let c := (s.qp q).ctx
  if !s.ethUp c.port then s
  else
    let s1 := (s.emit (.rdmaResp q psn kind arg data)).ethCount c.port true (if kind = 5 then c.packets data.length else 1)
    if kind = 2 then s1.count (pg cETH c.port) PgETH.PERF2_RNR_SENT 1 else s1

/-- A check failure (R527): NAK Remote Access Error, and the QP enters ERROR. -/
def State.rdmaRefuse (s : State) (q psn : Nat) : State := (s.rdmaReply q psn 3 0 []).qpError q

/-- A receive entry is consumed, and its completion waits (R527, R528). -/
def State.consumeRecv (s : State) (q op bytes imm : Nat) (entry : Option Wqe) (host : Bool) : State :=
  let x := s.qp q
  (s.setQp q { x with rqHead := (x.rqHead + 1) % 2 ^ 32, sendOff := 0 }).pushCqe q ⟨entry.map Wqe.wrId, op, 0, bytes, imm, host⟩

/-- Receive entries that packets taken in will consume as they end (R527). -/
def QpSt.owed (x : QpSt) : Nat := (x.inq.filter (fun i => i.req.last && (i.kind = 2 || i.req.imm ≠ none))).length

/-- An inbound SEND fails on its receive entry (R530): the entry is consumed with that status. -/
def State.failRecv (s : State) (q wrId status bytes : Nat) : State :=
  let x := s.qp q
  (s.setQp q { x with rqHead := (x.rqHead + 1) % 2 ^ 32, sendOff := 0 }).pushCqe q ⟨some wrId, 0x80, status, bytes, 0, false⟩

/-- The homes have answered an inbound packet (R527): `kind` 0 write, 1 read, 2 send, 3 atomic. -/
def State.rdmaAnswer (s : State) (q kind : Nat) (r : RdmaReq) (status : Nat) (data : List Byte) (pois : Bool) : State :=
  let x := s.qp q
  let s1 := s.setQp q { x with inq := x.inq.filter (fun i => i.req ≠ r) }
  if x.st ≠ 1 then s1
  else if status ≠ 0 then s1.rdmaRefuse q r.psn
  else if kind = 1 && pois then s1.rdmaReply q r.psn 4 0 []
  else if kind = 1 || kind = 3 then s1.rdmaReply q r.psn 5 0 data
  else
    let s2 :=
      if !r.last then s1
      else if kind = 2 then s1.consumeRecv q (if r.imm = none then 0x80 else 0x81) x.sendOff (r.imm.getD 0) r.entry (anyHost r.pages)
      else if r.imm ≠ none then
        let pages := match x.inq.find? (fun i => i.req = r) with | some i => (i.pages.getD []).map (fun e => e.2) | none => []
        s1.consumeRecv q 0x82 r.len (r.imm.getD 0) r.entry (anyHost pages)
      else s1
    s2.rdmaReply q r.psn 0 0 []

/-- The response of a READ or atomic has been stored (R529). -/
def State.wqeStored (s : State) (q idx status : Nat) : State :=
  match (s.qp q).runs.find? (fun w => w.idx = idx) with
  | none => s
  | some w => s.wqeDone q w status (if status = 0 then w.wqe.length else 0)

/-! ### Links (R531) -/

/-- A port's link goes up or down (R531): its QPs stay in RTS. -/
def State.ethLink (s : State) (e : Nat) (up : Bool) : State :=
  let p := pg cETH e
  if s.ethUp e = up then s
  else ((s.setFld p PgETH.STATUS_LINK_UP (b2n up)).setFld p PgETH.STATUS_FEC_LOCK (if up then 0xFF else 0)).setInt p 0

end Sys2Proof.Machine
end

