-- ==== Sys2Proof/Machine/MilLow.lean ====
section
/-! DEFINITION. Schedule engines as the answers of the homes reach them: occurrences, packets sent, bytes accepted
(15_milestone_schedule.md R467-R474). -/
namespace Sys2Proof.Machine

def State.milPort (s : State) (p : Nat) : MilPort := NMap.getD s.mil.ports {} p
def State.setMil (s : State) (p : Nat) (x : MilPort) : State :=
  { s with mil := { s.mil with ports := NMap.put s.mil.ports {} p x } }

/-- Stores an occurrence. -/
def MilPort.putRun (x : MilPort) (r : MilRun) : MilPort :=
  { x with runs := x.runs.map (fun y => if y.ent = r.ent && y.occ = r.occ then r else y) }
def MilPort.run? (x : MilPort) (ent occ : Nat) : Option MilRun := x.runs.find? (fun r => r.ent = ent && r.occ = occ)

/-- An entry of the active table. -/
def MilPort.ent? (x : MilPort) (e : Nat) : Option SchedEnt := match x.active with | some t => t.ents[e]? | none => none

/-- MIL STATE codes (R470). -/
def msIDLE : Nat := 0
def msARMED : Nat := 1
def msRUNNING : Nat := 2
def msFAILED : Nat := 3

def State.milState (s : State) (p : Nat) : Nat := s.fld (pg cMIL p) PgMIL.STATUS_STATE

/-- Counts a SCHED packet, in units of 1,024. -/
def State.milCount (s : State) (p : Nat) (tx : Bool) : State :=
  let x := s.milPort p
  let c := (if tx then x.tx else x.rx) + 1
  let s1 := s.setMil p (if tx then { x with tx := c % 1024 } else { x with rx := c % 1024 })
  if c = 1024 then s1.count (pg cMIL p) (if tx then PgMIL.PERF_SENT_KPKT else PgMIL.PERF_RECV_KPKT) 1 else s1

/-- A packet leaves by a port's strand (R468): the `k`-th, or the next live one. -/
def State.portSend (s : State) (port k : Nat) (p : FabPkt) : State :=
  match s.route p with
  | (none, q) => s.emit (.fabDeliver (port / 2) q)
  | (some _, q) =>
    match s.schedStrand (2 ^ port) k with
    | some g =>
      if q.job ≠ 0 && s.fabSecure (g / 4) && s.keySlotOf (s.portOf g) q.job = none then s.count (fabPg (g / 4)) PgFAB.PERF2_KEY_MISS 1
      else s.queueOn g ⟨q, none⟩
    | none => s.count (fabPg (port / 2)) PgFAB.PERF2_DROPPED 1
where fabPg (a : Nat) : Nat := pg cFAB a

/-- The strand index of packet `i` of an entry (R468). -/
def SchedEnt.strandOf (e : SchedEnt) (i : Nat) : Nat :=
  let ks := (List.range 4).filter (fun k => natBit e.strands k)
  (ks[i % max 1 ks.length]?).getD 0

/-- The partition bound to a job (R467). -/
def State.jobPart (s : State) (job : Nat) : Option Nat :=
  (List.range 16).find? (fun p => s.flag (pg cPRT p) PgPRT.JOB_VALID && s.fld (pg cPRT p) PgPRT.JOB_TAG = job)

/-- An occurrence is over: its bytes have all moved, and been accepted where they arrive here. Its task is DONE, unless a send awaits its
DACK (R472). A late send counts when it finishes (R470). -/
def State.runEnd (s : State) (p : Nat) (r : MilRun) (acked : Bool) : State :=
  let x := s.milPort p
  let s1 := s.setMil p (x.putRun { r with done := true })
  let s2 := if r.endTick ≠ none && (match x.ent? r.ent with | some e => e.kind = 1 || e.kind = 3 | none => false) then
      s1.count (pg cMIL p) PgMIL.PERF2_LATE_SENDS 1 else s1
  match r.task with
  | some t =>
    if acked then s2.taskDone t tsOK
    else match s2.task? t with
      | some k => s2.putTask { k with sent := true }
      | none => s2
  | none => s2

/-- The last packet of an occurrence asks for a DACK: ACK of its entry (R466), or of its XFER task (06_task_graphs.md R171). -/
def State.runAck (s : State) (e : SchedEnt) (r : MilRun) : Bool :=
  natBit e.flags 1 || (match r.task.bind s.task? with | some t => natBit (t.body.getD 1 0).toNat 0 | none => false)

/-- One packet of a SEND entry, its data read (R467): the last one of an entry with ACK asks for a DACK. -/
def State.schedPacket (s : State) (p : Nat) (e : SchedEnt) (r : MilRun) (off : Nat) (data : List Byte) (pois part job : Nat) : State :=
  let last := decide (r.need ≤ off + data.length)
  let ack := last && s.runAck e r
  let q : FabPkt := { ty := 4, sched := true, dl := false, ackReq := ack, win := natBit e.flags 0, dst := e.peer % 2 ^ 18, dpart := e.peer / 2 ^ 18
                      src := s.node, spart := part, job := job, offset := e.dst + off, e2e := off, arg16 := r.ent, poison := pois, hint := e.hint
                      arg32 := p, data := data }
  let s1 : State := if ack then
      { s with fab := { s.fab with nextE2e := s.fab.nextE2e + 1, e2e := s.fab.e2e ++ [{ id := s.fab.nextE2e, pkt := q, task := r.task }] } }
    else s
  (s1.portSend p (e.strandOf (off / 256)) q).milCount p true

/-- Poisoned 32-byte sectors of a packet whose data was read as parts at `src` (R278, R431): each part's line sectors that carry poison. -/
def readPois (src : Nat) (parts : NMap (List Byte × Nat)) : Nat :=
  let step (acc : Nat × Nat) (e : Nat × (List Byte × Nat)) : Nat × Nat :=
    let n := e.2.1.length
    let hit (i : Nat) : Bool := natBit e.2.2 (((src + acc.1 + i) % 64) / 32)
    (acc.1 + n, (List.range n).foldl (fun m i => if hit i then m ||| 2 ^ ((acc.1 + i) / 32) else m) acc.2)
  (parts.foldl step (0, 0)).2

/-- The data of one packet of a SEND has been read: it is sent; a read that failed ends the task, and the occurrence with it. -/
def State.schedRead (s : State) (p ent occ off status : Nat) (parts : NMap (List Byte × Nat)) (src part : Nat) : State :=
  let x := s.milPort p
  match x.ent? ent, x.run? ent occ, x.active with
  | some e, some r, some t =>
    if r.done then s
    else if status ≠ 0 then
      match r.task with
      | some k => (s.setMil p (x.putRun { r with done := true })).taskEnd k status
      | none => s.setMil p (x.putRun { r with done := true })
    else
      let data := (parts.map (fun e => e.2.1)).flatten
      let s1 := s.schedPacket p e r off data (readPois (src + off) parts) part t.job
      let r1 := { r with moved := r.moved + data.length }
      let s2 := s1.setMil p ((s1.milPort p).putRun r1)
      if r1.need ≤ r1.moved then s2.runEnd p r1 (!s2.runAck e r1) else s2
  | _, _, _ => s

/-- A serial difference of milestones (48 bits), signed. -/
def msDiff (a b : Nat) : Int := sgn 48 ((a + 2 ^ 48 - b % 2 ^ 48) % 2 ^ 48)

/-- Milestone counter. -/
def State.msNow (s : State) : Nat := s.fld pGLB PgGLB.MS_NOW_COUNT

/-- The `i`-th start of an entry after the counter (R467), for a table with a base and a cycle. -/
def State.occAfter (s : State) (base cycle off i : Nat) : Nat :=
  let r := msDiff s.msNow base
  let k : Nat := if r < (off : Int) then 0 else ((r - off) / cycle).toNat + 1
  (base + off + (k + i) * cycle) % 2 ^ 48

/-- The RECV entry that counts a packet (R467): of the attachment's ports, the one whose PEER, sender's entry and port match. -/
def State.recvEntry (s : State) (a : Nat) (q : FabPkt) : Option (Nat × Nat × SchedEnt) :=
  [2 * a, 2 * a + 1].findSome? (fun p =>
    match (s.milPort p).active with
    | none => none
    | some t => ((List.range t.ents.length).zip t.ents).findSome? (fun (x : Nat × SchedEnt) =>
        let e := x.2
        if e.kind = 2 && e.peer = q.src + q.spart * 2 ^ 18 && e.src % 2 ^ 13 = q.arg16 && natBits e.src 19 16 = q.arg32 % 16 then
          some (p, x.1, e) else none))

/-- The occurrence of an entry that is to count next: the earliest that is not over, else its next one. -/
def State.countRun (s : State) (p ent : Nat) (e : SchedEnt) : MilRun × State :=
  let x := s.milPort p
  match x.runs.find? (fun r => r.ent = ent && !r.done && decide (r.moved < r.need)) with
  | some r => (r, s)
  | none =>
    let cyc := match x.active with | some t => t.cycle | none => 1
    let busy := (x.runs.filter (fun r => r.ent = ent)).map MilRun.occ
    let occ := ((List.range (busy.length + 1)).map (fun i => s.occAfter x.base cyc e.off i)).find? (fun m => !busy.contains m)
    let r : MilRun := { ent := ent, occ := occ.getD 0, need := e.bytes }
    (r, s.setMil p { x with runs := x.runs ++ [r] })

/-- A SCHED packet arrives at its RECV entry: its bytes are counted (R467). -/
def State.recvCount (s : State) (a : Nat) (q : FabPkt) : State :=
  match s.recvEntry a q with
  | none => s
  | some (p, i, e) =>
    let r := s.countRun p i e
    (r.2.setMil p ((r.2.milPort p).putRun { r.1 with moved := r.1.moved + q.data.length })).milCount p false

/-- Its bytes have been accepted at their home slices (R472). -/
def State.recvAccept (s : State) (a : Nat) (q : FabPkt) : State :=
  match s.recvEntry a q with
  | none => s
  | some (p, i, _) =>
    let x := s.milPort p
    match x.runs.find? (fun r => r.ent = i && !r.done && decide (r.accepted < r.moved)) with
    | none => s
    | some r =>
      let r1 := { r with accepted := r.accepted + q.data.length }
      let s1 := s.setMil p (x.putRun r1)
      if r1.need ≤ r1.moved && r1.moved ≤ r1.accepted then s1.runEnd p r1 true else s1

/-- A SCHED packet is written, or could not be; its DACK follows where asked (R438, R439). -/
def State.schedDone (s : State) (a : Nat) (q : FabPkt) (status : Nat) : State :=
  let s1 := if q.ackReq then s.junction a none none (dackFor q status) else s
  if status = 0 && q.ty = 4 then s1.recvAccept a q else s1

/-! ### Collectives: answers of the homes -/

def State.coll? (s : State) (t : TaskId) : Option CollRun := s.mil.colls.find? (fun c => c.task = t)
def State.putColl (s : State) (c : CollRun) : State :=
  { s with mil := { s.mil with colls := s.mil.colls.map (fun y => if y.task = c.task then c else y) } }

/-- A COLL ends with a status (R484 PERF.DONE). -/
def State.collEnd (s : State) (t : TaskId) (status : Nat) : State :=
  let s1 : State := { s with mil := { s.mil with colls := s.mil.colls.filter (fun c => c.task ≠ t) } }
  let s2 := s1.workSet pCOL (s1.mil.colls ≠ [])
  if status = 0 then (s2.count pCOL PgCOL.PERF_DONE 1).taskDone t tsOK else s2.taskEnd t status

/-- Bytes of one element. -/
def CollRun.size (c : CollRun) : Nat := atomTypeSize (c.dtype % 16)

/-- The messages of a step that carry anything. -/
def CollRun.toSend (c : CollRun) (k : Nat) : List Nat :=
  match c.steps[k]? with
  | some u => (List.range u.sends.length).filter (fun j => match u.sends[j]? with | some m => m.idx ≠ [] | none => false)
  | none => []

/-- Values of consecutive elements. -/
def elemsOf (sz : Nat) : Nat → List Byte → List Nat
  | 0, _ => []
  | n + 1, bs => leNat (bs.take sz) :: elemsOf sz n (bs.drop sz)

/-- Elements whose bytes touch a poisoned sector of what was read at `src`. -/
def poisElems (sz src : Nat) (idx : List Nat) (parts : NMap (List Byte × Nat)) : List Nat :=
  let bad := (parts.foldl (fun (acc : Nat × List Nat) e =>
    (acc.1 + e.2.1.length, acc.2 ++ (List.range e.2.1.length).filterMap (fun i =>
      if natBit e.2.2 (((src + acc.1 + i) % 64) / 32) then some ((acc.1 + i) / sz) else none))) (0, [])).2.eraseDups
  bad.filterMap (fun k => idx[k]?)

/-- The input of a COLL has been read (R480); poison ends a reducing one (R482). -/
def State.collRead (s : State) (t : TaskId) (status : Nat) (parts : NMap (List Byte × Nat)) : State :=
  match s.coll? t with
  | none => s
  | some c =>
    if status ≠ 0 then s.collEnd t status
    else
      let data := (parts.map (fun e => e.2.1)).flatten
      let pois := poisElems c.size c.srcBase c.input parts
      if pois ≠ [] && c.op ≤ 1 then s.collEnd t tsPOISON
      else
        let vs := elemsOf c.size c.input.length data
        let vals := (c.input.zip vs).foldl (fun m e => NMap.put m 0 e.1 e.2) c.vals
        s.putColl { c with vals := vals, pois := pois, phase := 1, unsent := c.toSend 0 }

/-- The result of a COLL has been written. -/
def State.collWritten (s : State) (t : TaskId) (status : Nat) : State :=
  match s.coll? t with
  | none => s
  | some _ => s.collEnd t status

/-- A piece of an image has been read for a port: it is sent as DATA (R486). -/
def State.imageRead (s : State) (port img off status : Nat) (data : List Byte) : State :=
  if status ≠ 0 then s else s.emit (.imagePkt port 0 img off data)

/-! ### Ends and failures of schedules; commits (R470-R472, R477) -/

/-- The MIL page is BUSY while it runs (R470). -/
def State.milWork (s : State) (p : Nat) : State := s.workSet (pg cMIL p) (s.milState p = msRUNNING)

def State.setMilState (s : State) (p st cause : Nat) : State :=
  let q := pg cMIL p
  ((s.setFld q PgMIL.STATUS_STATE st).setFld q PgMIL.STATUS_FAIL_CAUSE cause).milWork p

/-- Tasks bound at a port, in the active and the staged table. -/
def MilPort.tasks (x : MilPort) : List TaskId := x.bound.map (fun b => b.task) ++ x.runs.filterMap (fun r => if r.done then none else r.task)

/-- Plies named by the entries of a table. -/
def SchedTab.plies (t : SchedTab) : List Nat := (t.ents.filter (fun e => 3 ≤ e.kind)).map (fun e => e.src % 1024)

/-- COLL tasks whose ply a port's tables name. -/
def State.portColls (s : State) (p : Nat) : List TaskId :=
  let x := s.milPort p
  let ps := (match x.active with | some t => t.plies | none => []) ++ (match x.staged with | some t => t.plies | none => [])
  (s.mil.colls.filter (fun c => ps.contains c.ply)).map (fun c => c.task)

/-- XFER and COLL tasks bound to a port (R470 BOUND). -/
def State.milBound (s : State) (p : Nat) : Nat := (s.milPort p).bound.length + (s.portColls p).length

/-- A MIL page enters FAILED (R471, R477): its bound tasks end, management is notified.
[DEDUCED, log entry 152] -/
def State.milFail (s : State) (p cause status : Nat) : State :=
  let ts := ((s.milPort p).tasks ++ s.portColls p).eraseDups
  let s1 := ts.foldl (fun s t => s.taskEnd t status) s
  let s2 := s1.setMil p { s1.milPort p with runs := [], bound := [] }
  let s3 := (s2.setMilState p msFAILED cause).setFld (pg cMIL p) PgMIL.STATUS_POS 0
  ((s3.setInt (pg cMIL p) 1).setInt pGLB 5).emit (.mgmtIrq (pg cMIL p))

/-- The commit of a page completes at a boundary (R471): staged bank, ENABLE and CYCLE_BASE become active together.
[DEDUCED, log entries 151, 152] -/
def State.milApply (s : State) (p : Nat) : State :=
  let q := pg cMIL p
  let x := s.milPort p
  let on := s.flag q PgMIL.SCHED_ENABLE
  let old := (x.bound.filter (fun b => !b.staged)).map (fun b => b.task) ++ x.runs.filterMap (fun r => if r.done then none else r.task)
  let s1 := old.foldl (fun s t => s.taskEnd t tsFABRIC_ERROR) s
  let x1 := s1.milPort p
  let s2 := s1.setMil p { x1 with active := x.staged, staged := none, base := s.fld q PgMIL.SCHED_CYCLE_BASE, runs := [], late := false
                                  bound := (x1.bound.filter (fun b => b.staged)).map (fun (b : MilBind) => { b with staged := false }) }
  let s3 := (s2.setActWord q 0x100 (s.word q 0x100)).commitDone q
  let s4 := (s3.setFld q PgMIL.STATUS_ACTIVE_ENTRIES (match x.staged with | some t => t.ents.length | none => 0)).setFld q PgMIL.STATUS_STAGED_ENTRIES 0
  if x.late then s4.milFail p 1 tsFABRIC_ERROR
  else if on && (match x.staged with | some t => s.jobPart t.job = none | none => true) then s4.milFail p 2 tsFABRIC_ERROR
  else s4.setMilState p (if on then msRUNNING else msIDLE) 0

end Sys2Proof.Machine
end

