-- ==== Sys2Proof/Machine/Join.lean ====
section
/-! DEFINITION. Answers of homes gathered for a requester that asked for several lines, and where they go. -/
namespace Sys2Proof.Machine

/-- Numbers of accesses whose answers are gathered: join × 2^40 + part, from here on. -/
def joinBase : Nat := 2 ^ 40
def joinAcc (j part : Nat) : Nat := joinBase + j * 2 ^ 40 + part

/-- A posted write of the host that came before a join is still on its way to its home. -/
def State.postedBefore (s : State) (k : Nat) : Bool :=
  s.joins.any (fun j => decide (j.id < k) && (match j.kind with | .host _ _ posted => posted | _ => false))

/-- An answer to the host leaves. -/
def State.hostAnswer (s : State) (c : HostCpl) : State :=
  match c.reg with
  | some a => s.txTlp.emit (.regValue .host a (leNat c.data))
  | none => s.txTlp.emit (.hostCpl c.status c.pois c.data)

/-- The endpoint has TLPs in flight (R518). -/
def State.hostBusy (s : State) : State :=
  s.workSet pHEP (!s.host.reads.isEmpty || !s.host.cpls.isEmpty || s.joins.any (fun j => match j.kind with | .host .. => true | _ => false))

/-- A read of the host is answered once every posted write before it has been accepted (R498). -/
def State.hostReply (s : State) (c : HostCpl) : State :=
  if s.postedBefore c.after then { s with host := { s.host with cpls := s.host.cpls ++ [c] } } else (s.hostAnswer c).hostBusy

/-- Answers whose posted writes have been accepted leave. -/
def State.hostReplies (s : State) : State :=
  let go := s.host.cpls.filter (fun c => !s.postedBefore c.after)
  (go.foldl State.hostAnswer { s with host := { s.host with cpls := s.host.cpls.filter (fun c => s.postedBefore c.after) } }).hostBusy

/-- A gather slot of a slice. -/
def State.gatherSt (s : State) (n slot : Nat) : GatherSt := NMap.getD s.mem.gather {} (4 * n + slot)
def State.setGather (s : State) (n slot : Nat) (g : GatherSt) : State :=
  { s with mem := { s.mem with gather := NMap.put s.mem.gather {} (4 * n + slot) g } }

/-- Bytes a gather engine asked for have come (07_skein_memory.md R218): an index line or row sector waits at the engine, a descriptor at its
load. -/
def State.gatherCome (s : State) (n slot : Nat) (f : GatherSt → GatherSt) : State := s.setGather n slot (f (s.gatherSt n slot))

/-- Window reads a slice has in flight (R223). -/
def State.gatherBusy (s : State) (n : Nat) : Bool :=
  (List.range 4).any (fun k =>
    let g := s.gatherSt n k
    decide (g.open_ ≠ []) || g.loads.any (fun l => decide (l.held ≠ [])))

/-- An answer is complete: it goes to whoever asked. -/
def State.joinDone (s : State) (j : Join) : State :=
  let data := (j.parts.map (fun e => e.2.1)).flatten
  let pois := j.parts.any (fun e => e.2.2 ≠ 0)
  match j.kind with
  | .dack att p => s.applyDack att p j.status
  | .host off rid posted =>
    let s1 := if j.status = 0 then s else s.closedLog 2 off rid posted
    if posted then s1.hostReplies
    else s1.hostReply (if j.status = 0 then ⟨j.id, none, 0, pois, data⟩ else ⟨j.id, none, 2, false, []⟩)
  | .asp x c tag op =>
    if j.status ≠ 0 then s.aspErr x c tag j.status
    else if op = 0x43 then
      s.aspReply x c { op := 0x43, tag := tag, len := j.parts.length, data := data
                       poison := j.parts.foldl (fun m e => m + e.2.2 <<< (2 * e.1)) 0 }
    else s.aspReply x c { op := op, tag := tag }
  | .cxl line => s.emit (if j.status = 0 then .grant 4 line .i data (if pois then 3 else 0) else .cohErr 4 line)
  | .rdma q kind r => s.rdmaAnswer q kind r j.status data pois
  | .wqe q idx => s.wqeStored q idx j.status
  | .record t => s.recordDone t j.status
  | .drain n spin unit mt ends => s.drained n spin unit mt ends j.status
  | .schedSend p ent occ off src part => s.schedRead p ent occ off j.status j.parts src part
  | .schedIn att p => s.schedDone att p j.status
  | .collIn t => s.collRead t j.status j.parts
  | .collOut t => s.collWritten t j.status
  | .image port img off => s.imageRead port img off j.status data
  | .staged => s
  | .cqe p e err => if j.status = 0 then s.cqeEvent p e err else s
  | .gatherDesc n slot k => s.gatherCome n slot (fun g =>
      { g with loads := g.loads.map (fun (l : GatherLoad) => if l.id = k then { l with raw := some (j.status, data, b2n pois) } else l) })
  | .copyIn k => s.copyBack k j.status (fun c =>
      if c.fill then c.advance 64 else { c with piece := some (data, j.parts.foldl (fun m e => m ||| e.2.2) 0) })
  | .copyOut k => s.copyBack k j.status (fun c => c.advance (match c.piece with | some d => d.1.length | none => 0))
  | .fill k => s.fillBack k j.status (j.parts.map (fun e => e.2))
  | .gatherIdx n slot k => s.gatherCome n slot (fun g => { g with arrived := g.arrived ++ [(k, none, j.status, data, b2n pois)] })
  | .gatherRow n slot k i => s.gatherCome n slot (fun g => { g with arrived := g.arrived ++ [(k, some i, j.status, data, b2n pois)] })

/-- An answer to one part arrives: the first status other than OK stands. -/
def State.joinAnswer (s : State) (id status : Nat) (data : List Byte) (pois : Nat) : State :=
  let k := (id - joinBase) / 2 ^ 40
  match s.joins.find? (fun j => j.id = k) with
  | none => s
  | some j =>
    let j1 := { j with left := j.left - 1, status := if j.status = 0 then status else j.status
                       parts := NMap.insert j.parts ((id - joinBase) % 2 ^ 40) (data, pois) }
    if j1.left = 0 then ({ s with joins := s.joins.filter (fun x => x.id ≠ k) } : State).joinDone j1
    else { s with joins := s.joins.map (fun x => if x.id = k then j1 else x) }

/-- Opens a gathering of `n` answers. -/
def State.joinOpen (s : State) (kind : JoinKind) (n : Nat) : State :=
  { s with joins := s.joins ++ [{ id := s.nextJoin, kind := kind, left := n }], nextJoin := s.nextJoin + 1 }

/-- An initiator hears the answer to a transaction: gathered where several make one answer (a late one is only counted,
11_mesh_and_regulation.md R349), else sent; a status other than OK is reported against its task. -/
def State.answer (s : State) (src id : Nat) (task : Option TaskId) (status : Nat) (data : List Byte) (pois : Nat) : State :=
  let s1 :=
    if id < joinBase then s.emit (.memResp src id status data pois)
    else if s.mesh.late.contains (src, id) then
      ({ s with mesh := { s.mesh with late := s.mesh.late.erase (src, id) } } : State).count (pg cTOL src) PgTOL.PERF2_LATE 1
    else
      ({ s with mesh := { s.mesh with outs := s.mesh.outs.filter (fun o => !(o.tol = src && o.id = id)) } } : State).joinAnswer id status data pois
  if status = 0 then s1 else s1.taskErr task status

end Sys2Proof.Machine
end

