-- ==== Sys2Proof/Machine/Plru.lean ====
section
/-! DEFINITION. Tree pseudo-LRU over a subset of the ways of a set (07_skein_memory.md R202, 10_address_translation.md R315,
12_coherence.md R372). Bit `i` of the tree is node `i`, whose children are 2i+1 and 2i+2; a 1 points right. -/
namespace Sys2Proof.Machine

/-- Walks from a node that covers ways lo .. lo + 2^k - 1 toward the pseudo-least-recently-used allowed way; a half with no
allowed way is passed over. -/
def plruWalk (bits : Nat) (ok : List Nat) : Nat → Nat → Nat → Nat
  | 0, _, lo => lo
  | k + 1, node, lo =>
    let mid := lo + 2 ^ k
    let l := ok.any (fun w => decide (lo ≤ w) && decide (w < mid))
    let r := ok.any (fun w => decide (mid ≤ w) && decide (w < mid + 2 ^ k))
    if (if natBit bits node then r else !l) then plruWalk bits ok k (2 * node + 2) mid
    else plruWalk bits ok k (2 * node + 1) lo

/-- Makes a way the most recently used: every node on its path points away. -/
def plruTouch (w : Nat) : Nat → Nat → Nat → Nat → Nat
  | 0, _, _, bits => bits
  | k + 1, node, lo, bits =>
    let mid := lo + 2 ^ k
    if w < mid then plruTouch w k (2 * node + 1) lo (natSetBits bits node node 1)
    else plruTouch w k (2 * node + 2) mid (natSetBits bits node node 0)

end Sys2Proof.Machine
end

