-- ==== Sys2Proof/Machine/SectorCode.lean ====
section
/-! DEFINITION. The code of an HBM sector, the lanes that carry it, and what the decoder makes of a damaged burst
(09_memory_integrity.md R270-R272). -/
namespace Sys2Proof.Machine

/-- x times an element of GF(2^16), field polynomial x^16 + x^12 + x^3 + x + 1 (R270). -/
def gfShift (a : Nat) : Nat := if a < 2 ^ 15 then 2 * a else (2 * a) ^^^ 0x1100B

/-- Adds a times the low `k` bits of b, as polynomials, to a sum. -/
def gfMulRun : Nat → Nat → Nat → Nat → Nat
  | 0, _, _, acc => acc
  | k + 1, a, b, acc => gfMulRun k (gfShift a) (b / 2) (if b % 2 = 1 then acc ^^^ a else acc)

/-- Product in GF(2^16). -/
def gfMul (a b : Nat) : Nat := gfMulRun 16 a b 0

/-- Powers of the primitive element α = x. -/
def gfAlpha : Nat → Nat
  | 0 => 1
  | k + 1 => gfShift (gfAlpha k)

/-- Check symbols 17 to 19 of 17 symbols: the remainder by the generator (x - 1)(x - α)(x - α²) = x³ + 7x² + 14x + 8, symbol 0 the highest
coefficient (R270). -/
def rsCheck : List Nat → Nat × Nat × Nat → List Nat
  | [], r => [r.1, r.2.1, r.2.2]
  | m :: ms, r =>
    let f := m ^^^ r.1
    rsCheck ms (r.2.1 ^^^ gfMul f 7, r.2.2 ^^^ gfMul f 14, gfMul f 8)

/-- Symbols 0 to 15 of a sector's 32 bytes (R270). -/
def dataSymbols (bs : List Byte) : List Nat := (List.range 16).map (fun i => leNat ((bs.drop (2 * i)).take 2))

/-- The 20 symbols of a sector: stored data, metadata symbol, check symbols (R270).
[DESIGN CHOICE, log entry 223] -/
def sectorWord (stored : List Byte) (md : Nat) : List Nat :=
  let m := dataSymbols stored ++ [md]
  m ++ rsCheck m (0, 0, 0)

/-- The symbol a lane carries, and the bit of it in a beat (R271): data lanes 2s and 2s+1 carry symbol s, check-bit lanes (32 on) symbols
16 to 19. -/
def laneSymbol (lane : Nat) : Nat := lane / 2
def laneBit (lane beat : Nat) : Nat := 2 * beat + lane % 2

/-- Bits of a symbol that a disturbed lane flips. -/
def laneError (h : LaneHit) : Nat :=
  (List.range 8).foldl (fun x b => if natBit h.beats b then x ^^^ 2 ^ laneBit h.lane b else x) 0

/-- The error each of the 20 symbols of a sector carries. -/
def symbolErrors (d : List LaneHit) : List Nat :=
  (List.range 20).map (fun i => d.foldl (fun x h => if laneSymbol h.lane = i then x ^^^ laneError h else x) 0)

/-- The syndrome of 20 symbols at α^j. -/
def syndrome (j : Nat) (w : List Nat) : Nat := w.foldl (fun s e => gfMul s (gfAlpha j) ^^^ e) 0

/-- What the decoder makes of a sector, and the error it leaves in it. The code is linear, so the syndromes of what arrives are those of the
error alone. One symbol is corrected, two are detected; more may pass as one (R270). A 1 left in a reserved metadata bit makes the sector
uncorrectable (R272). -/
def decodeSector (d : List LaneHit) : SecErr × List Nat :=
  let e := symbolErrors d
  let s0 := syndrome 0 e
  let s1 := syndrome 1 e
  let s2 := syndrome 2 e
  let r : SecErr × List Nat :=
    if s0 = 0 && s1 = 0 && s2 = 0 then (.good, e)
    else match (List.range 20).find? (fun i => s0 ≠ 0 && gfMul s0 (gfAlpha (19 - i)) = s1 && gfMul s1 (gfAlpha (19 - i)) = s2) with
      | some i => (.corrected i, e.modify i (fun x => x ^^^ s0))
      | none => (.bad, e)
  if r.2.getD 16 0 / 8 ≠ 0 then (.bad, e) else r

end Sys2Proof.Machine
end

