-- ==== Sys2Proof/Machine/SkeinOps.lean ====
section
/-! DEFINITION. Slices (07_skein_memory.md): way map, banks, cache lines, homes, wipe; the error log and poison
(09_memory_integrity.md R274-R281); requests to HBM (08_memory_tiers.md R233-R237). -/
namespace Sys2Proof.Machine

/-! ### Sparse ranges -/

/-- The entries of a table with keys in lo .. hi-1. -/
def NMap.slice {α : Type} (m : NMap α) (lo hi : Nat) : NMap α := m.filter (fun e => decide (lo ≤ e.1) && decide (e.1 < hi))

/-- The table without the entries in lo .. hi-1. -/
def NMap.cut {α : Type} (m : NMap α) (lo hi : Nat) : NMap α := m.filter (fun e => !(decide (lo ≤ e.1) && decide (e.1 < hi)))

/-- The entries of `src` in lo .. hi-1 copied to keys from `dst` on, which they replace. -/
def NMap.copyRange {α : Type} [DecidableEq α] (m : NMap α) (d : α) (lo hi dst : Nat) : NMap α :=
  (NMap.slice m lo hi).foldl (fun m e => NMap.put m d (e.1 - lo + dst) e.2) (NMap.cut m dst (dst + (hi - lo)))

/-- `k` bytes of a sparse memory from an address on.
[DESIGN CHOICE, log entry 3] -/
def readBytes (m : NMap Byte) (a : Nat) : Nat → List Byte
  | 0 => []
  | k + 1 => NMap.getD m 0 a :: readBytes m (a + 1) k

/-! ### Way map (R196) -/

/-- USE of way `w` of slice `n` in force: 0 unassigned, 1 cache, 2 scratchpad. -/
def State.wayUse (s : State) (n w : Nat) : Nat := natBits (s.actWord (pg cSKN n) 0x108).toNat (2 * w + 1) (2 * w)
/-- OWNER of way `w` of slice `n` in force. -/
def State.wayOwner (s : State) (n w : Nat) : Nat := natBits (s.actWord (pg cSKN n) 0x100).toNat (4 * w + 3) (4 * w)

/-- The ways of a slice that partition `p` owns under a use, ascending. -/
def State.waysOf (s : State) (n use p : Nat) : List Nat :=
  (List.range 16).filter (fun w => s.wayUse n w = use && s.wayOwner n w = p)

/-- Byte address of a word of a bank. -/
def bankAddr (n w word : Nat) : Nat := n * 0x40000 + w * 0x4000 + word * 64

/-- The 64 bytes and the poison of a word of a bank. -/
def State.bankLine (s : State) (n w word : Nat) : List Byte × Nat :=
  let a := bankAddr n w word
  (readBytes s.mem.banks a 64,
   b2n (NMap.getD s.mem.bankPois false (a / 32)) + 2 * b2n (NMap.getD s.mem.bankPois false (a / 32 + 1)))

/-- Writes the 64 bytes and poison of a word of a bank. -/
def State.setBankLine (s : State) (n w word : Nat) (bs : List Byte) (pois : Nat) : State :=
  let a := bankAddr n w word
  { s with mem := { s.mem with
      banks := NMap.putRun s.mem.banks 0 a bs
      bankPois := NMap.put (NMap.put s.mem.bankPois false (a / 32) (natBit pois 0)) false (a / 32 + 1) (natBit pois 1) } }

/-- Zeroes a way of a slice (R222, R226). -/
def State.zeroWay (s : State) (n w : Nat) : State :=
  let a := bankAddr n w 0
  { s with mem := { s.mem with
      banks := NMap.cut s.mem.banks a (a + 0x4000)
      bankPois := NMap.cut s.mem.bankPois (a / 32) (a / 32 + 0x200) } }

/-! ### Cache lines (R196, R202) -/

/-- Key of a T3 line: host physical line number above every DPA line number. -/
def t3Key (hpaLine : Nat) : Nat := 2 ^ 58 + hpaLine
/-- A line key names a T3 line. -/
def isT3 (line : Nat) : Bool := decide (2 ^ 58 ≤ line)

/-- The 32-bit fold of a line number (R200). -/
def l32 (line : Nat) : Nat :=
  let l := line % 2 ^ 58
  (l ^^^ (l >>> 32)) % 2 ^ 32

/-- home_index (R200). -/
def homeIndex (line hsize : Nat) : Nat := ((((l32 line * 0x9E3779B1) % 2 ^ 32) >>> 16) * hsize) >>> 16
/-- home_set (R200). -/
def homeSet (line : Nat) : Nat := ((l32 line * 0x85EBCA77) % 2 ^ 32) >>> 24
/-- The snoop-filter set of a line (12_coherence.md R359). -/
def filterSet (line : Nat) : Nat := ((l32 line * 0x85EBCA77) % 2 ^ 32) >>> 20

def tagKey (n w set : Nat) : Nat := (n * 16 + w) * 256 + set
def State.tag (s : State) (n w set : Nat) : LineTag := NMap.getD s.mem.tags {} (tagKey n w set)
def State.setTag (s : State) (n w set : Nat) (t : LineTag) : State :=
  { s with mem := { s.mem with tags := NMap.put s.mem.tags {} (tagKey n w set) t } }

/-- The way of a slice that holds a line. -/
def State.findLine (s : State) (n line : Nat) : Option Nat :=
  (List.range 16).find? (fun w => let t := s.tag n w (homeSet line); t.valid ≠ 0 && t.line = line)

/-- Marks a way as the most recently used of its set. -/
def State.touchWay (s : State) (n set w : Nat) : State :=
  let k := n * 256 + set
  { s with mem := { s.mem with plru := NMap.put s.mem.plru 0 k (plruTouch w 4 0 0 (NMap.getD s.mem.plru 0 k)) } }

/-- Dirty lines of a slice (SKN.STATUS.DIRTY_LINES). -/
def State.dirtyLines (s : State) (n : Nat) : Nat :=
  ((NMap.slice s.mem.tags (n * 4096) (n * 4096 + 4096)).filter (fun e => e.2.dirty ≠ 0)).length

/-- Cached lines of a slice: way, set, tag. -/
def State.linesOf (s : State) (n : Nat) : List (Nat × Nat × LineTag) :=
  (NMap.slice s.mem.tags (n * 4096) (n * 4096 + 4096)).map (fun e => ((e.1 / 256) % 16, e.1 % 256, e.2))

/-! ### HBM layout (08_memory_tiers.md R234, R235) -/

/-- Granules of the layout. -/
def State.granuleCount (s : State) : Nat := (s.mem.layout.map AttLayout.ng).foldl (· + ·) 0

/-- granule_place (R234): attachment and local granule, walking the levels. -/
def granulePlace (ls : List AttLayout) : Nat → Nat → Nat → Option (AttLayout × Nat)
  | 0, _, _ => none
  | fuel + 1, base, g =>
    let up := ls.filter (fun l => decide (base < l.ng))
    match up with
    | [] => none
    | l0 :: rest =>
      let lvl := rest.foldl (fun m l => min m l.ng) l0.ng
      let span := up.length * (lvl - base)
      if g < span then (up[g % up.length]?).map (fun l => (l, base + g / up.length))
      else granulePlace ls fuel lvl (g - span)

/-- The channel (attachment × 32 + channel) and chunk that hold a DPA (R235). -/
def State.hbmPlace (s : State) (dpa : Nat) : Option (Nat × Nat) :=
  match granulePlace s.mem.layout (s.mem.layout.length + 1) 0 (dpa / 0x200000) with
  | none => none
  | some (l, j) =>
    let q := j * 8192 + (dpa % 0x200000) / 256
    let n := l.chans.length
    (l.chans[q % n]?).map (fun c => (l.att * 32 + c, q / n))

/-- The attachment of a granule. -/
def State.granuleAtt (s : State) (g : Nat) : Option Nat :=
  (granulePlace s.mem.layout (s.mem.layout.length + 1) 0 g).map (fun x => x.1.att)

/-- Forms the layout from the live floor plan (R234, R236). -/
def State.formLayout (s : State) : State :=
  let atts := (List.range 8).filter (fun a => s.live (.hbmAtt a))
  { s with mem := { s.mem with layout := atts.map (fun a =>
      let cs := (List.range 32).filter (fun c => s.live (.hbmCh a c))
      ⟨a, cs, cs.length * s.capMib / 2⟩) } }

/-! ### Granule map (08_memory_tiers.md R245) -/

/-- A granule map entry; ZEROING until the first zero-fill (R295). -/
def State.granule (s : State) (g : Nat) : Nat := NMap.getD s.mem.granules (2 ^ 32) g
def State.setGranule (s : State) (g v : Nat) : State :=
  { s with mem := { s.mem with granules := NMap.put s.mem.granules (2 ^ 32) g v } }

def gReaders (e : Nat) : Nat := natBits e 63 48
def gZeroing (e : Nat) : Bool := natBit e 32
def gValid (e : Nat) : Bool := natBit e 31
def gOwner (e : Nat) : Nat := natBits e 30 27
def gGroup (e : Nat) : Nat := natBits e 26 25
/-- POOL and REPL speak of an owned granule (R245). -/
def gPool (e : Nat) : Bool := gValid e && natBit e 24
def gRepl (e : Nat) : Nat := if gValid e then natBits e 23 22 else 0
def gLink (e : Nat) : Nat := natBits e 17 0

/-- Owned by a partition. -/
def State.gOwned (s : State) (g p : Nat) : Bool := gValid (s.granule g) && gOwner (s.granule g) = p

/-! ### Homes (R199, R200) -/

/-- Forms H(p, 0..3) from the slices in the live floor plan (R199), and p's T0 space (R197). -/
def State.formHomes (s : State) (p : Nat) : State :=
  let liveS := (List.range 400).filter (fun n => s.live (.slice n))
  let pick (g : Nat) := liveS.filter (fun n => natBit (natBits (s.word (pg cSKN n) 0x110).toNat (4 * p + 3) (4 * p)) g)
  let h0 := if pick 0 = [] then liveS else pick 0
  let h (g : Nat) := if g = 0 then h0 else if pick g = [] then h0 else pick g
  let dead := (List.range 400).filter (fun n => !s.live (.slice n))
  { s with mem := { s.mem with
      homes := (List.range 4).foldl (fun m g => NMap.put m [] (4 * p + g) (h g)) s.mem.homes
      t0dead := NMap.put s.mem.t0dead [] p dead } }

/-- H(p, g). -/
def State.homeList (s : State) (p g : Nat) : List Nat := NMap.getD s.mem.homes [] (4 * p + g)

/-- The home of a line in a home group (R200). -/
def State.homeOf (s : State) (p g line : Nat) : Option Nat :=
  let h := s.homeList p g
  h[homeIndex line h.length]?

/-! ### Error log (09_memory_integrity.md R274-R276) -/

/-- Outcomes of a log entry (R275). -/
def ceCORRECTED : Nat := 0
def ceTRANSIENT : Nat := 1
def ceREPAIRED : Nat := 2
def cePOISONED : Nat := 3

/-- Offset of entry `i` of class `c`. -/
def ceOff (c i : Nat) : Nat := 0x800 + 0x100 * c + 8 * i

/-- Entry `i` of class `c`. -/
def State.ceEnt (s : State) (c i : Nat) : Nat := (s.word pSAF (ceOff c i)).toNat

/-- The entry that an event repeats: the same outcome at the same location. -/
def State.ceFind (s : State) (c outcome loc : Nat) : Option Nat :=
  (List.range 32).find? (fun i => natBit (s.ceEnt c i) 48 && natBits (s.ceEnt c i) 63 62 = outcome && natBits (s.ceEnt c i) 33 0 = loc % 2 ^ 34)

/-- The location has an entry, of whatever outcome. -/
def State.ceKnown (s : State) (c loc : Nat) : Bool :=
  (List.range 32).any (fun i => natBit (s.ceEnt c i) 48 && natBits (s.ceEnt c i) 33 0 = loc % 2 ^ 34)

/-- An entry's word (R275). -/
def ceWord (outcome part symbol source loc : Nat) : Nat :=
  outcome <<< 62 + part <<< 57 + symbol <<< 52 + source <<< 49 + 1 <<< 48 + loc % 2 ^ 34

/-- Writes an entry at the head; what it overwrites is counted. -/
def State.cePut (s : State) (c e : Nat) : State :=
  let head := s.fld pSAF (PgSAF.CE_HEAD_HEAD c)
  let s1 := if natBit (s.ceEnt c head) 48 then s.count pSAF (PgSAF.CE_HEAD_OVERFLOW c) 1 else s
  (s1.setWord pSAF (ceOff c head) (BitVec.ofNat 64 e)).setFld pSAF (PgSAF.CE_HEAD_HEAD c) ((head + 1) % 32)

/-- Logs an error event (R276); the Bool: it is the first at its location, whatever the outcome of an earlier one. -/
def State.ceLog (s : State) (c outcome part symbol source loc : Nat) : Bool × State :=
  match s.ceFind c outcome loc with
  | some i =>
    let e := s.ceEnt c i
    (false, s.setWord pSAF (ceOff c i) (BitVec.ofNat 64 (natSetBits e 47 34 (satAdd 0x3FFF (natBits e 47 34) 1))))
  | none =>
    let known := s.ceKnown c loc
    let s1 := s.cePut c (ceWord outcome part symbol source loc)
    (!known, if c = 3 then s1.setInt pSAF 4 else if known then s1 else s1.setInt pSAF 3)

/-- A corrected or transient error of an array of a page's unit (R268, R269): counted, logged, reported. -/
def State.arrayErr (s : State) (p c part source loc : Nat) (outcome symbol : Nat) : State :=
  let f := if outcome = ceTRANSIENT then PgHDR.ERR_COUNT_TRANSIENT else PgHDR.ERR_COUNT_CORRECTED
  let r := (s.count p f 1).ceLog c outcome part symbol source loc
  r.2.report r.1 (r.2.ev .corrected (if outcome = ceTRANSIENT then evTRANSIENT else evECC) 0 p part 0 0)

/-- A store of the device itself fails for good (R268): logged in class 2 and a FATAL fault. -/
def State.storeFatal (s : State) (p part loc : Nat) : State :=
  let r := (s.count p PgHDR.ERR_COUNT_LASTING 1).ceLog 2 cePOISONED part 31 5 loc
  r.2.report r.1 (r.2.ev .fatal evLASTING 0 p part 0 0)

/-- LOC of a bank error: slice, bank, word, 8-byte unit (R275). -/
def locBank (n bank word unit : Nat) : Nat := n <<< 16 + bank <<< 12 + word <<< 4 + unit

/-- Poison of an HBM sector: marked, logged in class 3, DEFERRED; notified where the granule has readers (R277, R281). -/
def State.poisonHbm (s : State) (sector : Nat) (source : Nat) (log : Bool := true) : State :=
  let m := NMap.getD s.mem.hbmMeta {} sector
  let s1 := { s with mem := { s.mem with hbmMeta := NMap.put s.mem.hbmMeta {} sector { m with poison := true, clear := false } } }
  let g := sector / 65536
  let e := s.granule g
  let part := if gValid e then gOwner e else 31
  let s2 := if log then (s1.ceLog 3 cePOISONED part 31 source sector).2 else s1
  let ch := match s.hbmPlace (sector * 32) with | some (c, _) => c | none => 0
  if m.poison then s2
  else
    let s3 := s2.report true (s2.ev .deferred evPOISON 0 (pg cHCH ch) part 0 sector)
    s3

/-- Poison of a Skein sector: DEFERRED, logged in class 1 with the source of the read that met it (R277, R274, R275). -/
def State.poisonSkein (s : State) (n bank word unit part : Nat) (source : Nat := 0) : State :=
  let r := s.ceLog 1 cePOISONED part 31 source (locBank n bank word unit)
  r.2.report r.1 (r.2.ev .deferred evPOISON 0 (pg cSKN n) part 0 0)

/-! ### Requests to HBM (08_memory_tiers.md R233, R237; 09_memory_integrity.md R283) -/

/-- The 32 bytes and poison of an HBM sector as the code and the key give them: CLEAR reads as zeros (R272, R287). -/
def State.hbmSector (s : State) (sector : Nat) : List Byte × Bool :=
  let m := NMap.getD s.mem.hbmMeta {} sector
  (if m.clear then List.replicate 32 0 else readBytes s.mem.hbm (sector * 32) 32, m.poison)

/-- The generation whose key a sector of a GEN bit is under (R286, R287): its owner's G where the bits agree, else G - 1. -/
def State.sectorGen (s : State) (sector gen : Nat) : Nat :=
  let g := s.fld pKEY (PgKEY.MEMKEY_GEN (gOwner (s.granule (sector / 65536))))
  if gen = g % 2 then g else g - 1

/-- The 20 symbols a sector of HBM holds (R270, R284, R287): its bytes under its owner's key with the sector number as the tweak, its metadata
symbol (R272), check symbols. The model's memory holds the bytes as plaintext, and this is what lies in the stack.
[DESIGN CHOICE, log entry 223] -/
def State.storedWord (s : State) (sector : Nat) (plain : List Byte) (m : SecMeta) : List Nat :=
  let own := gOwner (s.granule (sector / 65536))
  sectorWord (Config.xtsEncrypt s.mem.nonce own (s.sectorGen sector m.gen) sector plain) (m.gen % 2 + 2 * b2n m.poison + 4 * b2n m.clear)

/-- What a read of a sector gives after the decoder (R270, R272, R287): bytes and poison. An error that the code took for another is left in
the data and decrypts to whatever the cipher makes of it. -/
def State.decodedSector (s : State) (sector : Nat) (plain : List Byte) (pois : Bool) (left : List Nat) : List Byte × Bool :=
  if left.all (fun e => e = 0) then (plain, pois)
  else
    let m := NMap.getD s.mem.hbmMeta {} sector
    let w := (List.zipWith (fun a e => a ^^^ e) (s.storedWord sector plain { m with poison := pois }) left)
    let md := w.getD 16 0
    if natBit md 1 then (plain, true)
    else if natBit md 2 then (List.replicate 32 0, false)
    else
      (Config.xtsDecrypt s.mem.nonce (gOwner (s.granule (sector / 65536))) (s.sectorGen sector (md % 2)) sector
        ((w.take 16).flatMap (natLe 2)), false)

/-- Current generation bit of the owner of a sector's granule (R286, R287). -/
def State.genBit (s : State) (sector : Nat) : Nat :=
  s.fld pKEY (PgKEY.MEMKEY_GEN (gOwner (s.granule (sector / 65536)))) % 2

/-- Writes an HBM sector under the current generation of its owner; poison marks it without data (R280, R287). -/
def State.setHbmSector (s : State) (sector : Nat) (bs : List Byte) (pois : Bool) : State :=
  if pois then
    if (NMap.getD s.mem.hbmMeta {} sector).poison then s else s.poisonHbm sector 0
  else
    { s with mem := { s.mem with
        hbm := NMap.putRun s.mem.hbm 0 (sector * 32) bs
        hbmMeta := NMap.put s.mem.hbmMeta {} sector { clear := false, poison := false, gen := s.genBit sector } } }

/-- The channel of a line is in service. -/
def State.chLive (s : State) (ch : Nat) : Bool := s.live (.hbmCh (ch / 32) (ch % 32)) && s.live (.hbmAtt (ch / 32))

/-- The DPA line a request for a line uses: the primary's, or where its channel is out of service the replica's (R283). -/
def State.pairLine (s : State) (line : Nat) : Option Nat :=
  let e := s.granule (line / 32768)
  if gRepl e = 1 then some (gLink e * 32768 + line % 32768) else none

/-- The arbitration level of a transaction (11_mesh_and_regulation.md R345): its class's base and the raise of its initiator's
tollgate. -/
def State.levelOf (s : State) (src cls : Nat) : Nat :=
  let base := if cls = 0 then 2 else if cls = 1 then 1 else 0
  let t := pg cTOL src
  min 3 (base + max (s.fld t PgTOL.STATUS_URGENCY) (s.fld t PgTOL.STATUS_STEP))

/-- The other copy of a line: a primary's replica, a replica's primary (R249, R282). -/
def State.otherLine (s : State) (line : Nat) : Option Nat :=
  let e := s.granule (line / 32768)
  if gRepl e = 1 || gRepl e = 2 then some (gLink e * 32768 + line % 32768) else none

/-- The channel of a line, where it is in service. -/
def State.liveChan (s : State) (line : Nat) : Option Nat :=
  match s.hbmPlace (line * 64) with
  | some (ch, _) => if s.chLive ch then some ch else none
  | none => none

/-- The other copy of a line and its channel, where that is in service (R283). -/
def State.otherLive (s : State) (line : Nat) : Option (Nat × Nat) :=
  match s.otherLine line with
  | some l => (s.liveChan l).map (fun ch => (l, ch))
  | none => none

/-- Sectors in a mask of two. -/
def secCount (secs : Nat) : Nat := secs % 2 + (secs / 2) % 2

/-- Adds a request at a channel. -/
def State.hbmPush (s : State) (r : HbmReq) : State :=
  { s with mem := { s.mem with reqs := s.mem.reqs ++ [{ r with id := s.mem.nextHbm, left := r.secs }]
                               nextHbm := s.mem.nextHbm + 1 } }

/-- Writes sectors of a line to HBM: to its channel and, for a primary, to its replica too (R249), or to whichever is in service
(R283). A write no channel in service takes is dropped and counted (R92). -/
def State.hbmWrite (s : State) (n line secs : Nat) (bs : List Byte) (pois part cls : Nat) (narrow : Bool) : State :=
  let push (s : State) (l ch : Nat) : State :=
    s.hbmPush { id := 0, ch := ch, line := l, secs := secs, narrow := narrow, wr := some (bs, pois), part := part,
                cls := cls, level := s.levelOf n cls, txn := none }
  let second (s : State) : State := match s.pairLine line with
    | some l2 => (match s.liveChan l2 with | some ch => push s l2 ch | none => s)
    | none => s
  match s.liveChan line, s.otherLive line with
  | some ch, _ => second (push s line ch)
  | none, some (l2, ch) => push s l2 ch
  | none, none => match s.hbmPlace (line * 64) with
    | some (ch, _) => s.count (pg cHCH ch) PgHCH.DROPPED_WRITES 1
    | none => s

/-- Sends a line back to its tier: dirty sectors of a T2 line to HBM; a T3 line in M to the host (R202, R377). -/
def State.writeBackLine (s : State) (n w set : Nat) (t : LineTag) : State :=
  if t.dirty = 0 then s
  else
    let l := s.bankLine n w set
    if isT3 t.line then s.emit (.d2h 4 (t.line % 2 ^ 58) l.1 l.2)
    else s.hbmWrite n t.line t.dirty l.1 (l.2 &&& t.dirty) t.part 2 false

/-- Writes a line back if asked, and invalidates it. -/
def State.dropLine (s : State) (n w set : Nat) (wb : Bool) : State :=
  let t := s.tag n w set
  let s1 := if wb then s.writeBackLine n w set t else s
  let s2 := if wb && isT3 t.line && t.dirty = 0 && t.hst ≠ 0 then s1.emit (.d2h 5 (t.line % 2 ^ 58) []) else s1
  s2.setTag n w set {}

/-- Writes back and invalidates the lines of a slice that satisfy a test. -/
def State.dropLines (s : State) (n : Nat) (wb : Bool) (f : Nat → LineTag → Bool) : State :=
  (s.linesOf n).foldl (fun s x => if f x.1 x.2.2 then s.dropLine n x.1 x.2.1 wb else s) s

/-- The way a new line of a partition takes in its home (R202, R344): an invalid way, else the tree pseudo-LRU victim;
`none` where no way may be used. -/
def State.pickWay (s : State) (n line p : Nat) (stream : Bool) : Option Nat :=
  let set := homeSet line
  let ways := s.waysOf n 1 p
  let lim := s.fld (pg cTOL (496 + p)) PgTSH.CACHE_SHARE_STREAM_WAYS
  let mine := ways.filter (fun w => let t := s.tag n w set; t.valid ≠ 0 && t.stream)
  let ok := if stream && decide (lim < 16) && decide (lim ≤ mine.length) then mine else ways
  if ok = [] then none
  else
    match (if stream && decide (lim < 16) && decide (lim ≤ mine.length) then none
           else ok.find? (fun w => (s.tag n w set).valid = 0)) with
    | some w => some w
    | none => some (plruWalk (NMap.getD s.mem.plru 0 (n * 256 + set)) ok 4 0 0)

/-- Puts a line into a way of its home, writing back what was there. -/
def State.allocLine (s : State) (n line p valid dirty : Nat) (bs : List Byte) (pois : Nat) (stream : Bool) (hst : Nat) : State :=
  match s.pickWay n line p stream with
  | none => s
  | some w =>
    let set := homeSet line
    let s1 := s.dropLine n w set true
    let s2 := s1.setBankLine n w set bs pois
    (s2.setTag n w set ⟨line, p, valid, dirty, stream, hst⟩).touchWay n set w

/-! ### Wipe (R225) -/

/-- Window reads of a slice's gather slots made for a partition the test names end with a status (R226, R230, 21_bring_up_and_reset.md R607):
those under way, and those that wait for a descriptor.
[DEDUCED, log entry 239] -/
def State.gatherDrop (s : State) (n : Nat) (f : Nat → Bool) (status : Nat) : State :=
  (NMap.slice s.mem.gather (4 * n) (4 * n + 4)).foldl (fun s e =>
    let g := e.2
    let gone := (g.open_.filter (fun o => f o.part)).map (fun o => o.acc) ++
      (g.loads.filter (fun l => f l.part)).flatMap (fun l => l.held.map Prod.fst)
    gone.foldl (fun s a => s.answer a.src a.id a.task status [] 0)
      (s.setGather n (e.1 - 4 * n) { g with open_ := g.open_.filter (fun o => !f o.part), loads := g.loads.filter (fun l => !f l.part) })) s

/-- The stores of a slice are zeroed: banks, tags, sector state, gather slots. -/
def State.zeroStores (s : State) (n : Nat) : State :=
  let a := n * 0x40000
  { s with mem := { s.mem with
      banks := NMap.cut s.mem.banks a (a + 0x40000)
      bankPois := NMap.cut s.mem.bankPois (a / 32) (a / 32 + 0x2000)
      tags := NMap.cut s.mem.tags (n * 4096) (n * 4096 + 4096)
      plru := NMap.cut s.mem.plru (n * 256) (n * 256 + 256)
      gather := NMap.cut s.mem.gather (4 * n) (4 * n + 4) } }

/-- Zeroes a slice whole: its stores, apertures, gather slots, whose window reads end in an error.
[DEDUCED, log entry 239] -/
def State.zeroSlice (s : State) (n : Nat) : State :=
  let p := pg cSKN n
  let s1 := (s.gatherDrop n (fun _ => true) tsACCESS).zeroStores n
  let s2 := (List.range 16).foldl (fun s i => s.setWord p (0x138 + 8 * i) 0) s1
  (List.range 4).foldl (fun s i => s.setWord p (0x1B8 + 8 * i) 0) s2

/-- A wipe of a slice begins: contents go at once and accesses are held until it ends. -/
def State.wipeStart (s : State) (n : Nat) : State := (s.zeroSlice n).setFld (pg cSKN n) PgSKN.STATUS_WIPE_BUSY 1

end Sys2Proof.Machine
end

