-- ==== Sys2Proof/Machine/Home.lean ====
section
/-! DEFINITION. The ordering point of a home (07_skein_memory.md R197-R213, 12_coherence.md R354-R378): where an access
lands, who is snooped, what the line becomes, and who is answered. -/
namespace Sys2Proof.Machine

/-! ### Where an access lands -/

/-- Where an access lands: a word of a scratchpad way; a line at its home for the partition whose ways cache it; a lower tier
reached over the host link (T3 by HPA, or the backing of a range granule); a slice that left service; a refusal. The tier-table
key of a range granule goes with it (R253). -/
inductive Place where
  | scratch (n w word : Nat)
  | home (n line part : Nat) (unc : Bool) (tier : Option Nat)
  | far (pasid addr : Nat) (untr : Bool)
  | backing (pasid hva key : Nat)
  | lost (n part : Nat)
  /-- A gather window (R198, R215): slice, slot, window offset. -/
  | window (n slot x : Nat)
  | refuse
  deriving DecidableEq, Repr

/-- The CXL.cache mode of the host link (R204). -/
def State.cxlOn (s : State) : Bool := s.flag pHEP PgHEP.LINK_STATUS_CXL && s.dlUp

/-- Tier-table key of granule `i` of range `r` of partition `p`.
[DEDUCED, log entry 176] -/
def tierKey (p r i : Nat) : Nat := (p * 8 + r) * 2 ^ 18 + i

/-- A T0 address of partition `p` (R197, R198). -/
def State.locateT0 (s : State) (p a : Nat) : Place :=
  let n := a / 0x40000
  let o := a % 0x40000
  let ws := s.waysOf n 2 p
  let j := o / 64
  let g := a - 0x100000000
  if 0x100000000 ≤ a && g < 1600 * 0x1000000 then
    if s.live (.slice (g / 0x4000000)) then .window (g / 0x4000000) (g / 0x1000000 % 4) (g % 0x1000000) else .lost (g / 0x4000000) p
  else if 0x06400000 ≤ a then .refuse
  else if (NMap.getD s.mem.t0dead [] p).contains n then .refuse
  else if ws.length * 0x4000 ≤ o then .refuse
  else if !s.live (.slice n) then .lost n p
  else match ws[j % ws.length]? with
    | some w => .scratch n w (j / ws.length)
    | none => .refuse

/-- A line of an HBM granule for partition `part`, which caches it (R200, R201). -/
def State.locateLine (s : State) (part g dpa : Nat) (unc : Bool) (tier : Option Nat) : Place :=
  match s.homeOf part g (dpa / 64) with
  | none => .refuse
  | some n => if s.live (.slice n) then .home n (dpa / 64) part unc tier else .lost n part

/-- A DPA (R200, R246, R252). -/
def State.locateDpa (s : State) (a : Access) (wr : Bool) (dpa : Nat) : Place :=
  if dpa < 2 ^ 47 then
    let g := dpa / 0x200000
    let e := s.granule g
    if s.granuleCount ≤ g || !gValid e || gPool e || gRepl e = 2 then .refuse
    else if gOwner e = a.part || (natBit (gReaders e) a.part && !wr) then
      s.locateLine (gOwner e) (gGroup e) dpa a.unc none
    else .refuse
  else
    let x := dpa - 2 ^ 47
    let p := x / 2 ^ 42
    let r := (x / 2 ^ 39) % 8
    let y := x % 2 ^ 39
    let i := y / 0x200000
    let t := pg cTIR p
    if p ≠ a.part || 16 ≤ p || !s.actFlag t (PgTIR.TR_CFG_ENABLE r) || s.actFld t (PgTIR.TR_CFG_LEN r) ≤ i then .refuse
    else
      let k := tierKey p r i
      let pool := NMap.getD s.mem.tierPool 0 k
      let moving := s.mem.migs.any (fun m => m.part = p && m.range = r && m.index = i)
      if pool ≠ 0 then
        s.locateLine p (gGroup (s.granule (pool - 1))) ((pool - 1) * 0x200000 + y % 0x200000) (a.unc || moving) (some k)
      else
        match (if s.cxlOn then a.backing else none) with
        | some hpa =>
          (match s.homeOf p 0 (t3Key (hpa / 64)) with
           | some n => if s.live (.slice n) then .home n (t3Key (hpa / 64)) p (a.unc || moving) (some k) else .lost n p
           | none => .refuse)
        | none => .backing (s.actFld t (PgTIR.TR_CFG_PASID r)) (s.actFld t (PgTIR.TR_T3_BASE r) + y) k

/-- Where an access lands (R197-R204, R231). -/
def State.locate (s : State) (a : Access) (wr : Bool) : Place :=
  match a.addr with
  | .t0 x => s.locateT0 a.part x
  | .dpa x => s.locateDpa a wr x
  | .hpa x =>
    if s.cxlOn then
      match s.homeOf a.part 0 (t3Key (x / 64)) with
      | some n => if s.live (.slice n) then .home n (t3Key (x / 64)) a.part a.unc none else .lost n a.part
      | none => .refuse
    else .far 0 x false
  | .hva q x => .far q x true

/-- Byte offset of an access in its line. -/
def addrOff : Addr → Nat
  | .t0 a => a % 64 | .dpa a => a % 64 | .hpa a => a % 64 | .hva _ a => a % 64

/-- An access changes memory. -/
def opWrites : AccOp → Bool
  | .read => false | _ => true

/-- An access computes what it writes from what is there. -/
def opMerges : AccOp → Bool
  | .bits .. => true | .atomic .. => true | _ => false

/-- An access writes the whole line: an atomic, which needs the old data, does not (R210, R365). -/
def opWhole (off len : Nat) : AccOp → Bool
  | .write .. => secsWhole off len = 3 | _ => false

/-- Sectors an access needs to have before it can be applied: those it reads, or covers in part. -/
def opNeeds (off len : Nat) : AccOp → Nat
  | .read => secsOf off len
  | .write .. => secsOf off len &&& (3 - secsWhole off len)
  | .bits .. => secsOf off len
  | .atomic o _ _ operand => secsOf off (atomLen o operand)

/-! ### Answers -/

/-- The home answers an initiator; a status other than OK is reported against its task. -/
def State.respond (s : State) (a : Access) (status : Nat) (data : List Byte) (pois : Nat) : State :=
  s.answer a.src a.id a.task status data pois

/-- Counts an access that reached the tier of a range granule (R253). -/
def State.tierHit (s : State) (k : Option Nat) : State :=
  match k with
  | none => s
  | some k => { s with mem := { s.mem with tierCount := NMap.modify s.mem.tierCount 0 k (satAdd 0xFFFF · 1) } }

/-- An access misses in the Skein and reaches its tier (R203, R253). -/
def State.tierMiss (s : State) (n : Nat) (r : HomeReq) : State := (s.count (pg cSKN n) PgSKN.PERF_CACHE_MISSES 1).tierHit r.tier

/-- Remembers the host page that backs a range granule, as an access to it found it (R252). -/
def State.noteBacking (s : State) (k : Option Nat) (line : Nat) : State :=
  match k with
  | some k => if isT3 line then { s with mem := { s.mem with tierHpa := NMap.put s.mem.tierHpa 0 k (line % 2 ^ 58 / 32768 + 1) } } else s
  | none => s

/-- What an access's own tollgate class makes of a fill (R344). -/
def isStream (a : Access) : Bool := decide (2 ≤ a.cls) && decide (a.hint / 0x2000 ≠ 1)

/-! ### Transactions (R358) -/

def State.txn? (s : State) (id : Nat) : Option Txn := s.mem.txns.find? (fun t => t.id = id)
def State.txnOfLine (s : State) (line : Nat) : Option Txn := s.mem.txns.find? (fun t => t.line = line)
/-- Stores a transaction under its number. -/
def State.putTxn (s : State) (t : Txn) : State :=
  if s.mem.txns.any (fun u => u.id = t.id) then
    { s with mem := { s.mem with txns := s.mem.txns.map (fun u => if u.id = t.id then t else u) } }
  else { s with mem := { s.mem with txns := s.mem.txns ++ [t] } }
/-- Closes a transaction. -/
def State.closeTxn (s : State) (id : Nat) : State :=
  { s with mem := { s.mem with txns := s.mem.txns.filter (fun t => t.id ≠ id) } }
def State.openTxns (s : State) (n : Nat) : Nat := (s.mem.txns.filter (fun t => t.slice = n)).length

/-! ### Snoop filter (R359) -/

def filterKey (n set w : Nat) : Nat := (n * 4096 + set) * 8 + w
def State.filterAt (s : State) (n line w : Nat) : Option FilterEnt :=
  NMap.getD s.mem.filter none (filterKey n (filterSet line) w)
/-- The way that holds a line's entry. -/
def State.filterWay (s : State) (n line : Nat) : Option Nat :=
  (List.range 8).find? (fun w => match s.filterAt n line w with | some e => e.line = line | none => false)
/-- A line's entry; `none` is state N. -/
def State.filterOf (s : State) (n line : Nat) : Option FilterEnt :=
  match s.filterWay n line with | some w => s.filterAt n line w | none => none
def State.isLost (s : State) (n line w : Nat) : Bool := s.mem.lost.contains (filterKey n (filterSet line) w)
/-- Some way of the line's set is LOST (R373). -/
def State.setLost (s : State) (n line : Nat) : Bool := (List.range 8).any (s.isLost n line)
/-- A free way of the line's set. -/
def State.filterFree (s : State) (n line : Nat) : Option Nat :=
  (List.range 8).find? (fun w => s.filterAt n line w = none && !s.isLost n line w)
/-- A request may leave a new entry for its line (R362, R367, R375). -/
def HomeReq.wantsEntry (r : HomeReq) : Bool :=
  r.coh = .rdShared || r.coh = .rdOwn || r.coh = .upgrade ||
    (opWrites r.op && ((r.agent = 4 && r.mv ≠ 0) || r.acc.hint / 0x2000 = 2))
/-- Free ways of the line's set that open transactions without an entry yet will take. -/
def State.filterSpoken (s : State) (n line : Nat) : Nat :=
  (s.mem.txns.filter (fun t => t.slice = n && filterSet t.line = filterSet line && t.req.any HomeReq.wantsEntry && s.filterWay n t.line = none &&
    (match t.phase with | .victim v => !s.mem.txns.any (fun u => u.id = v) | _ => true))).length
/-- No way of the line's set is left for a new entry (R372). -/
def State.filterFull (s : State) (n line : Nat) : Bool :=
  ((List.range 8).filter (fun w => s.filterAt n line w = none && !s.isLost n line w)).length ≤ s.filterSpoken n line
/-- Writes a line's entry, in its way or a free one; an entry with no sharer is removed. -/
def State.setFilter (s : State) (n line : Nat) (e : Option FilterEnt) : State :=
  match (match s.filterWay n line with | some w => some w | none => if e = none then none else s.filterFree n line) with
  | none => s
  | some w =>
    let k := filterKey n (filterSet line) w
    let set := n * 4096 + filterSet line
    { s with mem := { s.mem with
        filter := NMap.put s.mem.filter none k e
        fplru := if e = none then s.mem.fplru
                 else NMap.put s.mem.fplru 0 set (plruTouch w 3 0 0 (NMap.getD s.mem.fplru 0 set)) } }

/-- A site runs CXL 3.1 (13_chiplet_sites.md R387, R411). -/
def State.cxlSite (s : State) (x : Nat) : Bool := decide (x < 4) && s.fld (pg cSIT x) PgSIT.LINK_PROTO = 2

/-- An agent takes S, never E, from a RdShared that finds N: the host (R372), and a site that runs CXL 3.1 (13_chiplet_sites.md R411). -/
def State.takesS (s : State) (x : Nat) : Bool := x = 4 || s.cxlSite x

/-- An agent may be given F (R356). -/
def State.mayF (s : State) (n x : Nat) : Bool :=
  decide (x < 4) && s.flag (pg cCOH n) PgCOH.CFG_F_ENABLE && s.mem.fCapSites.contains x

/-- The agents of a sharer vector but one. -/
def agentsOf (mask exclude : Nat) : List Nat := (List.range 5).filter (fun a => natBit mask a && a ≠ exclude)

/-- A mask with a bit set, cleared. -/
def withBit (m i : Nat) : Nat := natSetBits m i i 1
def withoutBit (m i : Nat) : Nat := natSetBits m i i 0

/-- The snoops a request needs (R362, R365). -/
def snoopPlan (e : Option FilterEnt) (coh : CohKind) (x : Nat) (mayF wr whole : Bool) : List SnpWait :=
  match e with
  | none => []
  | some e =>
    match coh with
    | .rdShared =>
      (match e.st with
       | .s => []
       | .sf f => if f = x then [] else [⟨f, if mayF then .fwdShared else .fwdCur, false⟩]
       | .o o => if o = x then [] else [⟨o, .fwdShared, false⟩])
    | .rdOwn =>
      (match e.st with
       | .s => (agentsOf e.mask x).map (fun a => ⟨a, .inv, false⟩)
       | .sf f => (agentsOf e.mask x).map (fun a => ⟨a, if a = f then .fwdInv else .inv, false⟩)
       | .o o => if o = x then [] else [⟨o, if o = 4 then .invData else .fwdInv, false⟩])
    | .upgrade => (agentsOf e.mask x).map (fun a => ⟨a, .inv, false⟩)
    | .rdCur =>
      (match e.st with
       | .s => []
       | .sf f => if f = x then [] else [⟨f, .fwdCur, false⟩]
       | .o o => if o = x then [] else [⟨o, .fwdCur, false⟩])
    | .plain =>
      if !wr then
        (match e.st with
         | .s => []
         | .sf f => [⟨f, .fwdCur, false⟩]
         | .o o => [⟨o, .fwdCur, false⟩])
      else
        (match e.st with
         | .o o => [⟨o, if whole && o < 4 then .inv else .invData, false⟩]
         | _ => (agentsOf e.mask x).map (fun a => ⟨a, if a = 4 then .invData else .inv, false⟩))

/-- What the requester receives and the entry after a coherent request (R362). -/
def filterAfter (e : Option FilterEnt) (coh : CohKind) (line part x : Nat) (mayF sOnly : Bool) : CohSt × Option FilterEnt :=
  let own : CohSt × Option FilterEnt := (.e, some ⟨line, part, .o x, withBit 0 x⟩)
  match coh with
  | .rdShared =>
    (match e with
     | none => if sOnly then (.s, some ⟨line, part, .s, withBit 0 x⟩) else own
     | some e =>
       let m := withBit e.mask x
       if mayF then (.f, some { e with st := .sf x, mask := m })
       else (.s, some { e with st := match e.st with | .o _ => .s | z => z, mask := m }))
  | .rdOwn => own
  | .upgrade => own
  | _ => (.i, e)

/-- The channel and TAG of a site's coherent request, as its access carries them (13_chiplet_sites.md R401). -/
def aspId (ch tag : Nat) : Nat := ch * 65536 + tag
def idChan (id : Nat) : Nat := id / 65536
def idTag (id : Nat) : Nat := id % 65536

/-- A line as ASP addresses it (R407): DPA, or a host physical address with bit 63 set. -/
def aspAddr (line : Nat) : Nat := if isT3 line then 2 ^ 63 + (line % 2 ^ 58) * 64 else line * 64

/-- OPCODE of a snoop (R398). -/
def snpOp : SnpKind → Nat
  | .fwdShared => 0x20 | .fwdInv => 0x21 | .fwdCur => 0x22 | .inv => 0x23 | .invData => 0x24

/-- ARG8 code of a state (R399). -/
def cohCode : CohSt → Nat
  | .i => 0 | .s => 1 | .f => 2 | .e => 3 | .m => 4

/-- A message of a home to a site goes on the nearest live channel (R402). -/
def State.homeSend (s : State) (x n : Nat) (m : AspMsg) : State :=
  match s.nearChan x n with
  | some c => s.aspSend x c m
  | none => s

/-- Sends one snoop: to a site with the requester a forward goes to (R397, R404), or to the host. A RdCur's data and data for requesters
inside the hub return to the home, which relays them, as does all data of a site that runs CXL 3.1 (R411). -/
def State.sendSnoop (s : State) (t : Txn) (w : SnpWait) (fwdTo : Nat) : State :=
  if w.agent < 4 then
    let base : AspMsg := { op := snpOp w.kind, tag := snoopTag t.slice t.idx, addr := aspAddr t.line, fwdTo := 0x80 }
    let m := match t.req with
      | some r => if r.agent < 4 && r.coh ≠ CohKind.rdCur && !s.cxlSite w.agent then
          { base with fwdTag := idTag r.acc.id, fwdTo := idChan r.acc.id, fwdSite := r.agent } else base
      | none => base
    s.homeSend w.agent t.slice m
  else s.emit (.snoop w.agent w.kind t.line t.id fwdTo)

/-- Sends the snoops of a transaction (PERF0.SNOOPS). -/
def State.sendSnoops (s : State) (t : Txn) (fwdTo : Nat) : State :=
  (t.snoops.foldl (fun s w => s.sendSnoop t w fwdTo) s).count (pg cCOH t.slice) PgCOH.PERF0_SNOOPS t.snoops.length

/-- A coherent request fails (R361 Err): a site hears Err with a status code on its channel, the host an error. -/
def State.cohFail (s : State) (r : HomeReq) (status : Nat) : State :=
  if r.agent < 4 then s.aspErr r.agent (idChan r.acc.id) (idTag r.acc.id) status
  else s.emit (.cohErr r.agent r.acc.id)

/-! ### Data at the home -/

/-- The newest data of an HBM sector: a write on its way in the queues, else the DRAM.
[DEDUCED, log entry 205] -/
def State.hbmNow (s : State) (sector : Nat) : List Byte × Bool :=
  match (s.mem.reqs.filter (fun r => r.line = sector / 2 && natBit r.left (sector % 2) && r.wr ≠ none)).getLast? with
  | some r =>
    (match r.wr with
     | some (bs, p) => ((bs.drop (32 * (sector % 2))).take 32, natBit p (sector % 2))
     | none => s.hbmSector sector)
  | none => s.hbmSector sector

/-- The current bytes and poison of a line at its home: valid sectors of its cached copy, else HBM. -/
def State.peekLine (s : State) (n line : Nat) : List Byte × Nat :=
  let a := s.hbmNow (2 * line)
  let b := s.hbmNow (2 * line + 1)
  match s.findLine n line with
  | none => (a.1 ++ b.1, b2n a.2 + 2 * b2n b.2)
  | some w =>
    let t := s.tag n w (homeSet line)
    let l := s.bankLine n w (homeSet line)
    (keepSectors (a.1 ++ b.1) l.1 (natBit t.valid 0) (natBit t.valid 1),
     b2n (if natBit t.valid 0 then natBit l.2 0 else a.2) + 2 * b2n (if natBit t.valid 1 then natBit l.2 1 else b.2))

/-- Writes sectors of a line at its home: into its cached copy, or a new one where the partition has ways, else to its tier
(R202, R203). -/
def State.homeStore (s : State) (n line part secs : Nat) (bs : List Byte) (pois : Nat) (cache stream : Bool) : State :=
  match s.findLine n line with
  | some w =>
    let set := homeSet line
    let t := s.tag n w set
    let old := s.bankLine n w set
    let s1 := s.setBankLine n w set (keepSectors old.1 bs (natBit secs 0) (natBit secs 1))
      ((old.2 &&& (3 - secs)) ||| (pois &&& secs))
    (s1.setTag n w set { t with valid := t.valid ||| secs, dirty := t.dirty ||| secs, hst := if isT3 line then 3 else 0 }).touchWay
      n set w
  | none =>
    if cache && s.pickWay n line part stream ≠ none then
      s.allocLine n line part secs secs bs pois stream (if isT3 line then 3 else 0)
    else if isT3 line then s.emit (.d2h 4 (line % 2 ^ 58) bs pois)
    else s.hbmWrite n line secs bs (pois &&& secs) part 2 false

/-- The partition has cache ways that a line may take at its home (R203). -/
def State.cacheable (s : State) (n part : Nat) (unc : Bool) : Bool := !unc && decide (s.waysOf n 1 part ≠ [])

/-- Asks a line's channel for sectors on behalf of a transaction (R213, R235). A channel out of service answers poison, or its
replica answers for it (R92, R283). -/
def State.hbmRead (s : State) (t : Txn) (a : Access) (secs : Nat) (narrow : Bool) : State :=
  let ask (s : State) (l ch : Nat) : State :=
    s.hbmPush { id := 0, ch := ch, line := l, secs := secs, narrow := narrow, wr := none, part := a.part, cls := a.cls,
                level := s.levelOf a.src a.cls, txn := some t.id }
  let dead (s : State) (ch : Nat) : State :=
    (s.count (pg cHCH ch) PgHCH.DROPPED_POISON_READS 1).putTxn
      { t with gotMask := t.gotMask ||| secs, gotPois := t.gotPois ||| secs }
  match s.hbmPlace (t.line * 64) with
  | none => s.putTxn { t with gotMask := t.gotMask ||| secs, gotPois := t.gotPois ||| secs }
  | some (ch, _) =>
    if s.chLive ch then ask s t.line ch
    else match s.pairLine t.line with
      | none => dead s ch
      | some l2 =>
        (match s.hbmPlace (l2 * 64) with
         | some (c2, _) =>
           if s.chLive c2 then (ask s l2 c2).count (pg cSCR (ch / 32)) PgSCR.PERF2_REPAIRED (secCount secs) else dead s ch
         | none => dead s ch)

/-! ### Write hints (R366-R368) -/

/-- Site `x` is present, live and bound to a partition. -/
def State.siteBound (s : State) (x p : Nat) : Bool :=
  s.live (.site x) && (List.range 8).any (fun i =>
    s.actFlag (pg cSIT x) (PgSIT.FUNC_ENABLE i) && s.actFld (pg cSIT x) (PgSIT.FUNC_PART i) = p)

/-- After a write has been accepted, its hint is acted on (R367): the transaction stays open while a site is asked. -/
def State.hintAfter (s : State) (t : Txn) (a : Access) : State :=
  let c := pg cCOH t.slice
  let target := a.hint / 0x2000
  let done (s : State) := s.closeTxn t.id
  if target = 0 then done s
  else if target = 1 then
    if s.findLine t.slice t.line ≠ none then done (s.count c PgCOH.PERF2_HINT_PLACED 1)
    else done (s.count c PgCOH.PERF2_HINT_DECLINED 1)
  else if target = 3 && isT3 t.line then done s
  else if target = 2 && a.hint % 4 < 4 && s.siteBound (a.hint % 4) t.part && !s.cxlSite (a.hint % 4) then
    let l := s.peekLine t.slice t.line
    if (List.range 8).any (fun f => natBit (s.siteFuncs (a.hint % 4)) f && natBit (s.caps (a.hint % 4) f) 10) then
      (s.putTxn { t with phase := .place, snoops := [⟨a.hint % 4, .inv, false⟩] }).homeSend (a.hint % 4) t.slice
        { op := 0x25, tag := snoopTag t.slice t.idx, addr := aspAddr t.line, arg8 := 3, data := l.1, poison := l.2 }
    else done (s.count c PgCOH.PERF2_HINT_DECLINED 1)
  else done (s.count c PgCOH.PERF2_HINT_DECLINED 1)

/-! ### Serving an access once its snoops are in -/

/-- Applies an access to the data its transaction has, stores what it changes, answers, and acts on its hint. -/
def State.finish (s : State) (t : Txn) (r : HomeReq) (bytes : List Byte) (pois : Nat) (cache : Bool) : State :=
  let a := r.acc
  let res := lineApply bytes pois (addrOff a.addr) a.len r.op
  let s1 := if res.mismatch then s.setInt (pg cSKN t.slice) 2 else s
  let secs := res.changed ||| t.gotMask
  let set := homeSet t.line
  let through (s : State) : State :=
    if res.changed = 0 then s
    else if isT3 t.line then s.emit (.d2h 4 (t.line % 2 ^ 58) res.bytes res.pois)
    else s.hbmWrite t.slice t.line res.changed res.bytes (res.pois &&& res.changed) t.part a.cls r.sector
  let hst (old : Nat) : Nat := if isT3 t.line then (if res.changed ≠ 0 then 3 else max old t.hst) else 0
  let s2 :=
    if secs = 0 || !cache then through s1
    else match s1.findLine t.slice t.line with
      | some w =>
        let g := s1.tag t.slice w set
        let old := s1.bankLine t.slice w set
        ((s1.setBankLine t.slice w set (keepSectors old.1 res.bytes (natBit secs 0) (natBit secs 1))
            ((old.2 &&& (3 - secs)) ||| (res.pois &&& secs))).setTag t.slice w set
          { g with valid := g.valid ||| secs, dirty := g.dirty ||| res.changed, hst := hst g.hst }).touchWay t.slice set w
      | none =>
        if s1.pickWay t.slice t.line t.part (isStream a) = none then through s1
        else s1.allocLine t.slice t.line t.part secs res.changed res.bytes res.pois (isStream a) (hst 0)
  let s4 := s2.respond a res.status res.rdata res.rpois
  let s5 := if opWrites r.op && r.agent = 4 && r.mv ≠ 0 then
      s4.setFilter t.slice t.line (some ⟨t.line, t.part, if r.mv = 3 then .s else .o 4, 16⟩)
    else s4
  if opWrites r.op && res.status = 0 then s5.hintAfter t a else s5.closeTxn t.id

/-- A whole line written to host memory with TARGET 3 goes to the host as an ItoMWr, which decides placement (R367); the slice keeps no copy. -/
def State.itoMWr (s : State) (t : Txn) (r : HomeReq) : State :=
  let res := lineApply (List.replicate 64 0) 0 (addrOff r.acc.addr) r.acc.len r.op
  let s1 := match s.findLine t.slice t.line with
    | some w => s.setTag t.slice w (homeSet t.line) {}
    | none => s
  ((s1.emit (.d2h 3 (t.line % 2 ^ 58) res.bytes res.pois)).respond r.acc res.status res.rdata res.rpois).closeTxn t.id

/-- Serves an access at a line's home after the snoops (R202, R203, R213): in place where its sectors are cached, directly where
it needs none, else a fill. -/
def State.performAccess (s : State) (t : Txn) (r : HomeReq) : State :=
  let a := r.acc
  let n := t.slice
  let off := (addrOff a.addr)
  let hinted := decide (a.hint / 0x2000 = 1)
  let cache := s.cacheable n t.part t.unc && (!r.sector || hinted) && !(isT3 t.line && decide (a.hint / 0x2000 = 3) && opWrites r.op)
  let need := opNeeds off a.len r.op
  let touched := match r.op with | .atomic o _ _ d => secsOf off (atomLen o d) | _ => secsOf off a.len
  let pk := pg cSKN n
  let s0 := if r.sector then s.count pk PgSKN.PERF_NARROW_SECTORS 1 else s
  let s1 := match r.op with | .atomic .. => s0.count pk PgSKN.PERF_NARROW_ATOMICS 1 | _ => s0
  if isT3 t.line && decide (a.hint / 0x2000 = 3) && opWhole off a.len r.op then s1.itoMWr t r else
  match s1.findLine n t.line with
  | some w =>
    let g := s1.tag n w (homeSet t.line)
    let l := s1.peekLine n t.line
    let okHst := !isT3 t.line || !opWrites r.op || decide (2 ≤ g.hst)
    if need &&& g.valid = need && okHst && (!r.sector || touched &&& g.valid = touched) then
      ((s1.count pk PgSKN.PERF_CACHE_HITS 1).touchWay n (homeSet t.line) w).finish t r l.1 l.2 true
    else
      let s2 := s1.tierMiss n r
      let want := if cache then 3 - g.valid % 4 else need &&& (3 - g.valid % 4)
      if isT3 t.line then
        (s2.putTxn { t with phase := .fill, need := 3, alloc := cache }).emit
          (.d2h (if opWrites r.op then 2 else 1) (t.line % 2 ^ 58) [])
      else if want = 0 then s2.finish t r l.1 l.2 cache
      else
        let t2 := { t with phase := .fill, need := want, alloc := cache }
        (s2.putTxn t2).hbmRead t2 a want r.sector
  | none =>
    let s2 := s1.tierMiss n r
    if isT3 t.line then
      if cache || opMerges r.op then
        (s2.putTxn { t with phase := .fill, need := 3, alloc := cache }).emit
          (.d2h (if opWrites r.op then 2 else 1) (t.line % 2 ^ 58) [])
      else
        let hpa := (t.line % 2 ^ 58) * 64 + off
        let d := match r.op with | .write d p => (d, p) | _ => ([], 0)
        let s3 := if opWrites r.op then s2.hostWrite a.part a.task 0 hpa false true d.1 (some (a.src, a.id)) d.2
          else s2.hostIssue .read a.task 0 hpa false true [] (some (a.src, a.id))
        (if opWrites r.op then s3.respond a 0 [] 0 else s3).closeTxn t.id
    else if need = 0 && (!cache || secsWhole off a.len = 3) then
      s2.finish t r (List.replicate 64 0) 0 cache
    else
      let want := if cache then 3 else need
      let t2 := { t with phase := .fill, need := want, alloc := cache }
      (s2.putTxn t2).hbmRead t2 a want r.sector

/-- Poisons a line that its owner lost (R371, R277): in memory and in a cached copy; a T3 line at the host. -/
def State.poisonLine (s : State) (n line : Nat) : State :=
  let s1 := if isT3 line then s.emit (.d2h 4 (line % 2 ^ 58) (s.peekLine n line).1 3) else (s.poisonHbm (2 * line) 5).poisonHbm (2 * line + 1) 5
  match s1.findLine n line with
  | some w => s1.setBankLine n w (homeSet line) (s1.bankLine n w (homeSet line)).1 3
  | none => s1

/-- A request whose site has gone closes without a Grant: a line forwarded to it as M is lost, and what its snoops took back stays taken.
[DESIGN CHOICE, log entry 242] -/
def State.grantNone (s : State) (t : Txn) (r : HomeReq) : State :=
  let s1 := if t.fwd && t.fwdM && t.relay = none then s.poisonLine t.slice t.line else s
  let e := s.filterOf t.slice t.line
  let s2 := if r.coh = .rdShared then
      (match e with | some f => s1.setFilter t.slice t.line (some { f with st := .s }) | none => s1)
    else s1.setFilter t.slice t.line none
  s2.closeTxn t.id

/-- Grants a line to an agent (R362): data from the home where no agent forwarded it straight to the requester; a site's transaction stays
open for its CmpAck, the host's closes. -/
def State.grantTo (s : State) (t : Txn) (r : HomeReq) (l : List Byte × Nat) : State :=
  let x := r.agent
  let e := s.filterOf t.slice t.line
  let listed := match e with | some e => natBit e.mask x | none => false
  let coh := if r.coh = .upgrade && !listed then CohKind.rdOwn else r.coh
  let mf := s.mayF t.slice x
  let fa := filterAfter e coh t.line t.part x mf (s.takesS x)
  let st := if coh = .rdOwn && t.fwdM then CohSt.m else fa.1
  let after (s : State) : State :=
    let s1 := s.setFilter t.slice t.line fa.2
    if x = 4 then s1.closeTxn t.id else s1.putTxn { t with phase := .ack, snoops := [] }
  let say (s : State) (m : AspMsg) (o : Out) : State :=
    if x < 4 then s.aspReply x (idChan r.acc.id) { m with tag := idTag r.acc.id, addr := aspAddr t.line } else s.emit o
  if x < 4 && !s.siteUp x then s.grantNone t r
  else if coh = .upgrade then after (say s { op := 0x3B } (.grantNoData x t.line))
  else if t.fwd && x < 4 && t.relay = none then after (s.count (pg cCOH t.slice) PgCOH.PERF0_FORWARDS 1)
  else
    let s1 := if t.fwd then s.count (pg cCOH t.slice) PgCOH.PERF0_FORWARDS 1 else s
    let d := match t.relay with | some d => d | none => l
    after (say s1 { op := 0x42, arg8 := cohCode st, data := d.1, poison := d.2 } (.grant x t.line st d.1 d.2))

/-- The home has every snoop answer: returned data is stored (or dropped by a recall that discards), then the request is served. -/
def State.afterSnoops (s : State) (t : Txn) : State :=
  let s1 := match t.dirty with
    | some (bs, p) => if t.discard then s else s.homeStore t.slice t.line t.part 3 bs p (s.cacheable t.slice t.part t.unc) false
    | none => s
  match t.req with
  | none =>
    let f := s1.filterOf t.slice t.line
    let s2 := match t.h2d with
      | some .fwdShared => (match f with
        | some e => s1.setFilter t.slice t.line (some { e with st := .s })
        | none => s1)
      | some .fwdCur => s1
      | _ => s1.setFilter t.slice t.line none
    let held := match s2.findLine t.slice t.line with
      | some w => some (w, s2.tag t.slice w (homeSet t.line))
      | none => none
    let data : List Byte × Nat := match t.relay, held with
      | some d, _ => d
      | none, some (_, g) => if g.dirty ≠ 0 then s2.peekLine t.slice t.line else ([], 0)
      | none, none => match t.dirty with | some d => d | none => ([], 0)
    let s3 := match t.h2d with
      | none => s2
      | some k =>
        let s4 := if t.tell then s2.emit (.d2h 8 (t.line % 2 ^ 58) data.1 data.2) else s2
        match held with
        | none => s4
        | some (w, g) =>
          if k = SnpKind.inv then s4.setTag t.slice w (homeSet t.line) {}
          else if k = SnpKind.fwdShared then s4.setTag t.slice w (homeSet t.line) { g with dirty := 0, hst := 1 }
          else s4
    s3.closeTxn t.id
  | some r =>
    if r.coh ≠ CohKind.plain && r.coh ≠ CohKind.rdCur then
      let tag := match s1.findLine t.slice t.line with
        | some w => s1.tag t.slice w (homeSet t.line)
        | none => {}
      let cached := tag.valid
      let owned := !isT3 t.line || decide ((if r.coh = .rdShared then 1 else 2) ≤ tag.hst)
      if owned && (t.fwd || r.coh = .upgrade) then s1.grantTo t r (s1.peekLine t.slice t.line)
      else
        if owned && cached % 4 = 3 then s1.grantTo t r (s1.peekLine t.slice t.line)
        else if isT3 t.line then
          ((s1.tierHit r.tier).putTxn { t with phase := .fill, need := 3, alloc := true }).emit
            (.d2h (if r.coh = .rdShared then 1 else 2) (t.line % 2 ^ 58) [])
        else
          let want := 3 - cached % 4
          let t2 := { t with phase := .fill, need := want, alloc := s1.cacheable t.slice t.part t.unc }
          ((s1.tierMiss t.slice r).putTxn t2).hbmRead t2 r.acc want false
    else if !opWrites r.op && t.fwd && t.relay ≠ none then
      let l := match t.relay with | some d => d | none => ([], 0)
      let res := lineApply l.1 l.2 (addrOff r.acc.addr) r.acc.len r.op
      ((s1.count (pg cCOH t.slice) PgCOH.PERF0_FORWARDS 1).respond r.acc res.status res.rdata res.rpois).closeTxn t.id
    else
      let s2 := if opWrites r.op then s1.setFilter t.slice t.line none else s1
      s2.performAccess t r

/-- Opens a transaction with its snoops, or goes straight on where none is needed. -/
def State.openTxn (s : State) (t : Txn) (fwdTo : Nat) : State :=
  let used := (s.mem.txns.filter (fun u => u.slice = t.slice)).map Txn.idx
  let t1 := { t with id := s.mem.nextTxn, idx := ((List.range (used.length + 1)).find? (fun i => !used.contains i)).getD 0 }
  let s1 := { s with mem := { s.mem with nextTxn := s.mem.nextTxn + 1 } }
  if t1.snoops = [] then (s1.putTxn t1).afterSnoops t1
  else (s1.putTxn t1).sendSnoops t1 fwdTo

/-- The agents that might hold a line whose filter set has a LOST way (R373). -/
def State.allAgents (s : State) : List SnpWait :=
  ((List.range 4).filter (fun x => s.live (.site x))).map (fun x => ⟨x, .invData, false⟩) ++
    (if s.cxlOn then [⟨4, .invData, false⟩] else [])

/-- The recall of a filter entry (R372, R378). -/
def recallSnoops (e : FilterEnt) : List SnpWait :=
  match e.st with
  | .o o => [⟨o, .invData, false⟩]
  | _ => (agentsOf e.mask 5).map (fun a => ⟨a, if a = 4 then .invData else .inv, false⟩)

/-- Admits a request at its ordering point (R358): snoops by R362 and R365; a victim is recalled where the request needs an
entry and its set is full (R372). `none`: every way of the set is busy, so it waits. The recall of a victim for a line that a write's hint
will hand to a site comes before the write too.
[DESIGN CHOICE, log entry 243] -/
def State.enterHome (s : State) (n line part : Nat) (unc : Bool) (r : HomeReq) : Option State :=
  let e := s.filterOf n line
  let wr := opWrites r.op
  let x := r.agent
  let listed := match e with | some e => natBit e.mask x | none => false
  let coh := if r.coh = .upgrade && !listed then CohKind.rdOwn else r.coh
  let plan :=
    if e = none && s.setLost n line then s.allAgents.filter (fun w => w.agent ≠ x)
    else snoopPlan e coh x (s.mayF n x) wr (opWhole (addrOff r.acc.addr) r.acc.len r.op)
  let t : Txn := { id := 0, slice := n, line := line, part := part, req := some r, unc := unc, snoops := plan }
  if r.wantsEntry && e = none && s.filterFull n line then
    let busy (w : Nat) : Bool := match s.filterAt n line w with
      | some v => s.mem.txns.any (fun u => u.line = v.line)
      | none => true
    let ok := (List.range 8).filter (fun w => !busy w)
    if ok = [] then none
    else
      let w := plruWalk (NMap.getD s.mem.fplru 0 (n * 4096 + filterSet line)) ok 3 0 0
      match s.filterAt n line w with
      | none => none
      | some v =>
        let own := s.mem.nextTxn
        let s1 := (s.count (pg cCOH n) PgCOH.PERF1_BACK_INV 1).openTxn
          { id := 0, slice := n, line := v.line, part := v.part, req := none, snoops := recallSnoops v } 5
        let s2 := { s1 with mem := { s1.mem with nextTxn := s1.mem.nextTxn + 1 } }
        let used := (s2.mem.txns.filter (fun u => u.slice = n)).map Txn.idx
        some (s2.putTxn { t with id := s1.mem.nextTxn, phase := .victim own
                                 idx := ((List.range (used.length + 1)).find? (fun i => !used.contains i)).getD 0 })
  else some (s.openTxn t (if x < 5 then x else r.acc.src))

/-- A line of granules first .. first+count-1. -/
def granuleLine (first count line : Nat) : Bool :=
  decide (first * 32768 ≤ line) && decide (line < (first + count) * 32768)

/-- A SET_GROUP in progress holds new accesses to its granules (R247). -/
def State.regroupHolds (s : State) (line : Nat) : Bool :=
  s.mem.regroup.any (fun x => granuleLine x.2.1 x.2.2.1 line)

/-- A request of the waiting list may be admitted now: its line is not busy, none before it wants the line, fewer than 128
transactions are open. -/
def State.admissible (s : State) (before : List (Nat × Nat × Nat × Bool × HomeReq)) (q : Nat × Nat × Nat × Bool × HomeReq) : Bool :=
  !s.regroupHolds q.2.1 && !s.mem.txns.any (fun t => t.line = q.2.1) && !before.any (fun b => b.2.1 = q.2.1) && decide (s.openTxns q.1 < 128)

/-- Admits waiting requests in order of arrival as far as possible (R358). -/
def State.drainHomes : Nat → List (Nat × Nat × Nat × Bool × HomeReq) → State → State
  | 0, _, s => s
  | fuel + 1, before, s =>
    match s.mem.waitQ.drop before.length with
    | [] => s
    | q :: rest =>
      if s.admissible before q then
        match s.enterHome q.1 q.2.1 q.2.2.1 q.2.2.2.1 q.2.2.2.2 with
        | some s1 => State.drainHomes fuel before { s1 with mem := { s1.mem with waitQ := before ++ rest } }
        | none => State.drainHomes fuel (before ++ [q]) s
      else State.drainHomes fuel (before ++ [q]) s

/-- Requests whose victim recall has closed go on (R372). -/
def State.resumeVictims (s : State) : State :=
  s.mem.txns.foldl (fun s t =>
    match t.phase with
    | .victim v =>
      if s.mem.txns.any (fun u => u.id = v) then s
      else
        match t.req with
        | none => s
        | some r =>
          let plan := if s.setLost t.slice t.line then s.allAgents.filter (fun w => w.agent ≠ r.agent) else []
          let t1 := { t with phase := .snoop, snoops := plan }
          if plan = [] then (s.putTxn t1).afterSnoops t1 else (s.putTxn t1).sendSnoops t1 r.agent
    | _ => s) s

/-- IDLE or BUSY of a page as its block has work; other states stay. -/
def State.busyIf (s : State) (p : Nat) (b : Bool) : State :=
  if b then s.workStart p else if s.pageState p = stBUSY then s.setState p stIDLE else s

/-- A SET_GROUP goes on (R247, R378): agent copies of its granules are recalled; once no open transaction and no filter entry touches them,
their cached lines are written back and invalidated, HGROUP changes, requests that waited move to the new homes, and the command is done. -/
def State.regroupOne (s : State) (x : Nat × Nat × Nat × Nat) : State :=
  let p := x.1
  let first := x.2.1
  let count := x.2.2.1
  let ents := s.mem.filter.filterMap (fun e => match e.2 with
    | some f => if granuleLine first count f.line then some (e.1 / 32768, f) else none
    | none => none)
  if s.mem.txns.any (fun t => granuleLine first count t.line) || ents ≠ [] then
    ents.foldl (fun s e =>
      if s.mem.txns.any (fun t => t.line = e.2.line) then s
      else (s.count (pg cCOH e.1) PgCOH.PERF1_BACK_INV 1).openTxn
        { id := 0, slice := e.1, line := e.2.line, part := e.2.part, req := none, snoops := recallSnoops e.2 } 5) s
  else
    let homes := ((s.mem.tags.filter (fun e => granuleLine first count e.2.line)).map (fun e => e.1 / 4096)).eraseDups
    let s1 := homes.foldl (fun s n => s.dropLines n true (fun _ t => granuleLine first count t.line)) s
    let s2 := (List.range count).foldl (fun s i =>
      s.setGranule (first + i) (natSetBits (s.granule (first + i)) 26 25 x.2.2.2)) s1
    let t := pg cTIR p
    let s3 := ((s2.setFld t PgTIR.GCMD_BUSY 0).setFld t PgTIR.GCMD_RESULT 0).setInt t 0
    let wait := s3.mem.waitQ.map (fun q =>
      if granuleLine first count q.2.1 then ((s3.homeOf q.2.2.1 x.2.2.2 q.2.1).getD q.1, q.2) else q)
    ({ s3 with mem := { s3.mem with regroup := s3.mem.regroup.filter (fun y => y ≠ x), waitQ := wait } } : State).busyIf t
      (s3.mem.migs.any (fun m => m.part = p))

def State.regroupStep (s : State) : State := s.mem.regroup.foldl State.regroupOne s

/-- The snoops of a host snoop to a slice's listed sites (R377). -/
def h2dSnoops (e : Option FilterEnt) (k : SnpKind) : List SnpWait :=
  match e with
  | none => []
  | some e =>
    if k = SnpKind.inv then recallSnoops e
    else match e.st with
      | .s => []
      | .sf f => [⟨f, k, false⟩]
      | .o o => [⟨o, k, false⟩]

/-- A host snoop is applied at a slice that holds the line (R377). -/
def State.h2dOpen (s : State) (x : Nat × Nat × SnpKind × Bool) : State :=
  let e := s.filterOf x.1 x.2.1
  let part := match e with | some f => f.part | none => 0
  s.openTxn { id := 0, slice := x.1, line := x.2.1, part := part, req := none, snoops := h2dSnoops e x.2.2.1, h2d := some x.2.2.1
              tell := x.2.2.2 } 5

/-- Host snoops whose line is free go on; one that finds its line waiting for the host's answer does not wait for it.
[DEDUCED, log entry 180] -/
def State.h2dStep (s : State) : State :=
  s.mem.h2dWait.foldl (fun s x =>
    if s.mem.txns.any (fun t => t.line = x.2.1 && t.slice = x.1 && t.phase ≠ .fill) then s
    else ({ s with mem := { s.mem with h2dWait := s.mem.h2dWait.filter (fun y => y ≠ x) } } : State).h2dOpen x) s

/-- Recalls that met an open transaction of their line go on once it has closed (R378, 13_chiplet_sites.md R415). -/
def State.recallStep (s : State) : State :=
  s.mem.recallQ.foldl (fun s x =>
    if s.mem.txns.any (fun t => t.line = x.line) then s
    else
      let s1 : State := { s with mem := { s.mem with recallQ := s.mem.recallQ.filter (fun y => y ≠ x) } }
      match s1.filterOf x.home x.line with
      | some e => if x.agent < 5 && !natBit e.mask x.agent then s1
        else (s1.count (pg cCOH x.home) PgCOH.PERF1_BACK_INV 1).openTxn
          { id := 0, slice := x.home, line := x.line, part := e.part, req := none, snoops := recallSnoops e, discard := x.discard } 5
      | none => s1) s

/-- What follows any happening at a home: victims resume, waiting requests are admitted, and the pages read BUSY while
transactions are open (R223, R380). -/
def State.settle (s : State) (n : Nat) : State :=
  let s1 := s.resumeVictims.recallStep.regroupStep.h2dStep
  let s2 := State.drainHomes (2 * s1.mem.waitQ.length + 1) [] s1
  (n :: s2.mem.txns.map Txn.slice).eraseDups.foldl (fun s n =>
    (s.busyIf (pg cCOH n) (decide (0 < s.openTxns n))).busyIf (pg cSKN n) (decide (0 < s.openTxns n) || s.gatherBusy n)) s2

/-! ### Arrival of a request -/

/-- The slice holds new accesses: wiping, quiescing, resetting or powered down (R224, R225, R581).
[DEDUCED, log entry 110] -/
def State.sliceHolds (s : State) (n : Nat) : Bool :=
  let st := s.pageState (pg cSKN n)
  s.flag (pg cSKN n) PgSKN.STATUS_WIPE_BUSY || st = stQUIESCING || st = stRESET || st = stOFF ||
    s.flag (pg cSKN n) PgHDR.PAGE_CTRL_QUIESCE_REQ || !s.flag (pg cSKN n) PgHDR.PAGE_CTRL_ENABLE || !s.domSteady (pg cSKN n) ||
    s.haltedPage (pg cSKN n) || s.stopped (pg cSKN n) ||
    (NMap.getD s.dom {} (400 + n)).st ≠ 0

/-- A way-map commit in progress changes a way of a partition (R222). -/
def State.commitHolds (s : State) (n p : Nat) : Bool :=
  s.flag (pg cSKN n) PgHDR.PAGE_STATE_COMMIT_BUSY &&
  (List.range 16).any (fun w =>
    let ou := s.wayUse n w
    let oo := s.wayOwner n w
    let nu := natBits (s.word (pg cSKN n) 0x108).toNat (2 * w + 1) (2 * w)
    let no := natBits (s.word (pg cSKN n) 0x100).toNat (4 * w + 3) (4 * w)
    (ou ≠ nu || oo ≠ no) && (oo = p || no = p))

/-- Holds a request at a slice. -/
def State.hold (s : State) (n : Nat) (r : HomeReq) : State :=
  { s with mem := { s.mem with held := s.mem.held ++ [(n, r)] } }

/-- The aperture of partition `p` in slice `n` that covers a line of its portion, if active (R211): operation and type. -/
def State.aperture (s : State) (n p line : Nat) : Option (Nat × Nat) :=
  let k := pg cSKN n
  let op := s.fld k (PgSKN.APERTURE_OP p)
  let ty := s.fld k (PgSKN.APERTURE_TYPE p)
  let start := s.fld k (PgSKN.APERTURE_START_LINE p)
  if s.flag k (PgSKN.APERTURE_ENABLE p) && (op ≤ 3 || op = 6) && atomAccepts op ty && start ≤ line
      && line < start + s.fld k (PgSKN.APERTURE_LINES p) then some (op, ty) else none

/-- An access to a scratchpad line (R197, R205, R211). -/
def State.serveScratch (s : State) (n w word : Nat) (r : HomeReq) : State :=
  let a := r.acc
  let off := (addrOff a.addr)
  let l := s.bankLine n w word
  let line := match a.addr with | .t0 x => (x % 0x40000) / 64 | _ => 0
  let res := match r.op, s.aperture n a.part line with
    | .write d wp, some (op, ty) => apertureApply l.1 l.2 off a.len d wp op ty
    | .bits b _, some (op, ty) => apertureApply l.1 l.2 off a.len [b] 0 op ty
    | op, _ => lineApply l.1 l.2 off a.len op
  let atomic := match r.op, s.aperture n a.part line with
    | .write .., some _ => true
    | .bits .., some _ => true
    | .atomic .., _ => true
    | _, _ => false
  let pk := pg cSKN n
  let s0 := if r.sector then s.count pk PgSKN.PERF_NARROW_SECTORS 1 else s
  let s1 := if atomic then s0.count pk PgSKN.PERF_NARROW_ATOMICS 1 else s0
  let s2 := if res.changed = 0 then s1 else s1.setBankLine n w word res.bytes res.pois
  let s3 := if res.mismatch then s2.setInt pk 2 else s2
  let s4 := (List.range 2).foldl (fun s k =>
    if atomic && natBit res.newPois k then s.poisonSkein n w word (4 * k) a.part 5 else s) s3
  s4.respond a res.status res.rdata res.rpois

/-- A descriptor in force takes a window read (R215): a bad read fails with ACCESS, one past the end reads as zero, any other waits for its
index and its row. -/
def State.gatherTake (s : State) (n slot part : Nat) (d : GatherDesc) (a : Access) (x : Nat) : State :=
  let g := s.gatherSt n slot
  if a.len % 32 ≠ 0 || x % 32 ≠ 0 || a.len = 0 || x / d.rowBytes ≠ (x + a.len - 1) / d.rowBytes then s.respond a tsACCESS [] 0
  else if d.count * d.rowBytes ≤ x then s.respond a 0 (List.replicate a.len 0) 0
  else s.setGather n slot { g with next := g.next + 1, open_ := g.open_ ++ [{ id := g.next, acc := a, off := x, part := part, desc := d }] }

/-- A read of a gather window (R215, R217): refused for a write, another partition, a slot that is disabled or faulted; held while the
descriptor loads. -/
def State.gatherServe (s : State) (n slot x : Nat) (r : HomeReq) : State :=
  let p := pg cSKN n
  let g := s.gatherSt n slot
  let a := r.acc
  if r.op ≠ .read || g.faulted || !s.flag p (PgSKN.GATHER_ENABLE slot) || s.fld p (PgSKN.GATHER_PART slot) ≠ a.part then
    s.respond a tsACCESS [] 0
  else match g.desc with
    | some d => (s.gatherTake n slot a.part d a x).workStart p
    | none =>
      if g.loading then
        (s.setGather n slot { g with loads := g.loads.map (fun (l : GatherLoad) => if l.current then { l with held := l.held ++ [(a, x)] } else l) }).workStart p
      else s.respond a tsACCESS [] 0

/-- A request reaches the place it names (R197-R205).
[DESIGN CHOICE, log entry 245] -/
def State.serve (s : State) (r : HomeReq) : State :=
  let a := r.acc
  let atomBad := match r.op with
    | .atomic o ty f d => !atomOk o ty f (addrOff a.addr) d
    | _ => false
  if atomBad then s.respond a tsACCESS [] 0
  else
    match s.locate a (opWrites r.op || r.coh = CohKind.rdOwn || r.coh = CohKind.upgrade) with
    | .refuse => if r.coh = CohKind.plain || r.coh = CohKind.rdCur then s.respond a tsACCESS [] 0 else s.cohFail r tsACCESS
    | .lost _ _ => if r.coh = CohKind.plain || r.coh = CohKind.rdCur then s.respond a tsSLICE_LOST [] 0 else s.cohFail r tsSLICE_LOST
    | .window n slot x => if s.sliceHolds n then s.hold n r else s.gatherServe n slot x r
    | .scratch n w word =>
      if s.sliceHolds n || s.commitHolds n a.part then s.hold n r
      else (if a.conflict then s.count (pg cSKN n) PgSKN.PERF_HOLD_BANK_CONFLICT 1 else s).serveScratch n w word r
    | .home n line part unc tier =>
      if s.sliceHolds n || s.commitHolds n part then s.hold n r
      else
        let s0 := if a.conflict then s.count (pg cSKN n) PgSKN.PERF_HOLD_BANK_CONFLICT 1 else s
        let s1 := s0.noteBacking tier line
        let s2 := { s1 with mem := { s1.mem with waitQ := s1.mem.waitQ ++ [(n, line, part, unc, { r with tier := tier })] } }
        s2.settle n
    | .far pasid x untr =>
      if r.coh ≠ CohKind.plain && r.coh ≠ CohKind.rdCur then s.cohFail r tsACCESS else
      match r.op with
      | .read => s.hostIssue .read a.task pasid x untr true [] (some (a.src, a.id))
      | .write d wp => (s.hostWrite a.part a.task pasid x untr true d none wp).respond a 0 [] 0
      | .bits b _ => (s.hostWrite a.part a.task pasid x untr true [b] none).respond a 0 [] 0
      | .atomic .. => s.respond a tsACCESS [] 0
    | .backing pasid hva k =>
      if r.coh ≠ CohKind.plain && r.coh ≠ CohKind.rdCur then s.cohFail r tsACCESS else
      let s1 := s.tierHit (some k)
      match r.op with
      | .read => s1.hostIssue .read a.task pasid hva true true [] (some (a.src, a.id))
      | .write d wp => (s1.hostWrite a.part a.task pasid hva true true d none wp).respond a 0 [] 0
      | .bits b _ => (s1.hostWrite a.part a.task pasid hva true true [b] none).respond a 0 [] 0
      | .atomic .. => s1.respond a tsACCESS [] 0

/-- The requests a slice held are served, in order. -/
def State.releaseHeld (s : State) (n : Nat) : State :=
  let mine := s.mem.held.filter (fun h => h.1 = n)
  let s1 := { s with mem := { s.mem with held := s.mem.held.filter (fun h => h.1 ≠ n) } }
  mine.foldl (fun s h => s.serve h.2) s1

/-! ### Snoop answers (R363, R370, R371) -/

/-- An agent's answer to a snoop of a line: whether it forwarded, dirty data it returned, whether a WrBack is on its way. -/
def State.snoopAnswer (s : State) (line agent : Nat) (fwd : Bool) (dirty : Option (List Byte × Nat)) (wbIssued : Bool) : State :=
  match s.mem.txns.find? (fun t => t.line = line && t.snoops.any (fun w => w.agent = agent)) with
  | none => s
  | some t =>
    let s0 := if wbIssued then s.count (pg cCOH t.slice) PgCOH.PERF1_CROSSED_WB 1 else s
    let keepDirty := match t.snoops.find? (fun w => w.agent = agent) with | some w => w.kind ≠ .inv | none => false
    let t1 := { t with
      fwd := t.fwd || fwd
      dirty := if dirty ≠ none && keepDirty then dirty else t.dirty
      snoops := if wbIssued && t.dirty = none
        then t.snoops.map (fun w => if w.agent = agent then { w with wb := true } else w)
        else t.snoops.filter (fun w => w.agent ≠ agent) }
    let s1 := s0.putTxn t1
    (if t1.snoops = [] && t1.phase = .snoop then s1.afterSnoops t1 else s1).settle t.slice

/-- A WrBack reaches its home (R362, R370): it ends ownership, or serves as the data of the snoop it crossed; from an agent that is
not the owner it is dropped, with AGENT_ERROR and Err. -/
def State.wrBack (s : State) (n line part agent id : Nat) (bs : List Byte) (pois : Nat) : State :=
  match s.mem.txns.find? (fun t => t.line = line && t.snoops.any (fun w => w.agent = agent)) with
  | some t =>
    let answered := t.snoops.any (fun w => w.agent = agent && w.wb)
    let t1 := { t with dirty := some (bs, pois)
                       snoops := if answered then t.snoops.filter (fun w => w.agent ≠ agent) else t.snoops }
    let s1 := s.putTxn t1
    (if t1.snoops = [] && t1.phase = .snoop then s1.afterSnoops t1 else s1).settle t.slice
  | none =>
    let s1 := s.setInt (pg cCOH n) 1
    match s.filterOf n line with
    | some e =>
      if e.st = .o agent then
        ((s.setFilter n line none).homeStore n line part 3 bs pois (s.cacheable n part false) false).settle n
      else s1.cohFail ⟨⟨id, 400 + agent, part, none, .dpa 0, 64, 0, 0, false, none, false⟩, .read, .plain, agent, false, 0, none⟩ tsACCESS
    | none => s1.cohFail ⟨⟨id, 400 + agent, part, none, .dpa 0, 64, 0, 0, false, none, false⟩, .read, .plain, agent, false, 0, none⟩ tsACCESS

/-- A CleanEvict (R362): the agent is removed; F is cleared if it held it; the entry goes with its last sharer. -/
def State.cleanEvict (s : State) (n line agent : Nat) : State :=
  match s.filterOf n line with
  | none => s
  | some e =>
    if !natBit e.mask agent then s
    else
      let m := withoutBit e.mask agent
      if m = 0 then s.setFilter n line none
      else s.setFilter n line (some { e with mask := m, st := match e.st with | .sf f => if f = agent then .s else .sf f | z => z })

/-- A CmpAck closes the transaction of a line that awaits it (R358). -/
def State.cmpAck (s : State) (line agent : Nat) : State :=
  match s.mem.txns.find? (fun t => t.line = line && t.phase = .ack && (match t.req with | some r => r.agent = agent | none => false)) with
  | none => s
  | some t => (s.closeTxn t.id).settle t.slice

/-- Recalls the entries of a home that satisfy a test (R378): each by a transaction, or after the one its line has. -/
def State.recall (s : State) (n : Nat) (discard : Bool) (f : FilterEnt → Bool) (agent : Nat := 5) : State :=
  ((NMap.slice s.mem.filter (n * 32768) (n * 32768 + 32768)).foldl (fun s x =>
    match x.2 with
    | some e =>
      if !f e then s
      else if s.mem.txns.any (fun t => t.line = e.line) then
        { s with mem := { s.mem with recallQ := s.mem.recallQ ++ [⟨n, e.line, agent, discard⟩] } }
      else (s.count (pg cCOH n) PgCOH.PERF1_BACK_INV 1).openTxn
          { id := 0, slice := n, line := e.line, part := e.part, req := none, snoops := recallSnoops e, discard := discard } 5
    | none => s) s).settle n

/-! ### Way-map commits (07_skein_memory.md R222) -/

/-- Ways of a slice whose owner or use a commit changes. -/
def State.waysChanged (s : State) (n : Nat) : List Nat :=
  let w100 := (s.word (pg cSKN n) 0x100).toNat
  let w108 := (s.word (pg cSKN n) 0x108).toNat
  (List.range 16).filter (fun w =>
    s.wayUse n w ≠ natBits w108 (2 * w + 1) (2 * w) || s.wayOwner n w ≠ natBits w100 (4 * w + 3) (4 * w))

/-- Ways partition `p` would have in all slices under a use, were the shadow of slice `n` in force (R251). -/
def State.waysWanted (s : State) (n use p : Nat) : Nat :=
  let here := ((List.range 16).filter (fun w =>
    natBits (s.word (pg cSKN n) 0x108).toNat (2 * w + 1) (2 * w) = use && natBits (s.word (pg cSKN n) 0x100).toNat (4 * w + 3) (4 * w) = p)).length
  ((List.range 400).map (fun m => if m = n then here else (s.waysOf m use p).length)).foldl (· + ·) 0

/-- A way-map commit is refused (R222, R251): code 3, or more ways than a quota allows a partition it gives ways to.
[DEDUCED, log entry 204] -/
def State.wayCommitBad (s : State) (n : Nat) : Bool :=
  (List.range 16).any (fun w => natBits (s.word (pg cSKN n) 0x108).toNat (2 * w + 1) (2 * w) = 3) ||
  (List.range 16).any (fun p =>
    let q := pg cPRT p
    let exceeds (use lim : Nat) : Bool := decide (128 * lim < s.waysWanted n use p)
    exceeds 2 (s.fld q PgPRT.WAY_QUOTA_T0_LIMIT) || exceeds 1 (s.fld q PgPRT.WAY_QUOTA_T1_LIMIT))

/-- The new way map comes into force (R222): lines of changed cache ways are written back and dropped; ways that leave scratchpad and all
scratchpad ways of a partition whose set changes are zeroed; what waited goes on.
[DEDUCED, log entry 204] -/
def State.wayMapCommit (s : State) (n : Nat) : State :=
  let k := pg cSKN n
  let ch := s.waysChanged n
  let s1 := s.dropLines n true (fun w _ => ch.contains w && s.wayUse n w = 1)
  let leave := ch.filter (fun w => s.wayUse n w = 2)
  let s2 := leave.foldl (fun s w => s.zeroWay n w) s1
  let before (p : Nat) : List Nat := s.waysOf n 2 p
  let s3 := (s2.setActWord k 0x100 (s2.word k 0x100)).setActWord k 0x108 (s2.word k 0x108)
  let s4 := (List.range 16).foldl (fun s p =>
    if before p = s.waysOf n 2 p then s else (s.waysOf n 2 p).foldl (fun s w => s.zeroWay n w) s) s3
  (s4.commitDone k).releaseHeld n

end Sys2Proof.Machine
end

