-- ==== Sys2Proof/Machine/PlanChange.lean ====
section
/-! DEFINITION. Changes of the live floor plan (03_floor_plan.md R88-R95, R652, R654) and what they do to the blocks. -/
namespace Sys2Proof.Machine

/-! ### What a unit's leaving does (R92, R336) -/

/-- Severity CONTAINED, cause SLICE_LOST, for each partition that owns a way of the slice or a granule homed on it (R92). -/
def State.reportSliceLost (s : State) (n : Nat) : State :=
  (List.range 16).foldl (fun s p =>
    let ways := decide (s.waysOf n 1 p ≠ []) || decide (s.waysOf n 2 p ≠ [])
    let homed := (List.range 4).any (fun g => (s.homeList p g).contains n) &&
      s.mem.granules.any (fun e => gValid e.2 && gOwner e.2 = p)
    if ways || homed then s.report true (s.ev .contained evSLICE_LOST 0 (pg cSKN n) p 0 0) else s) s

/-- An error to whoever sent a request that its home can no longer serve (R92, R378). -/
def State.failReq (s : State) (r : HomeReq) : State :=
  if r.coh = CohKind.plain || r.coh = CohKind.rdCur then s.respond r.acc tsSLICE_LOST [] 0 else s.cohFail r tsSLICE_LOST

/-- A slice leaves service (R92, R378): dirty sectors it held are poisoned in HBM, its lines and filter go, requests at it end in
error, and the owners are told. -/
def State.sliceLeft (s : State) (n : Nat) : State :=
  let s1 := (s.linesOf n).foldl (fun s x =>
    let t := x.2.2
    let s := if isT3 t.line then s else
      (List.range 2).foldl (fun s k => if natBit t.dirty k then s.poisonHbm (2 * t.line + k) 5 else s) s
    s.setTag n x.1 x.2.1 {}) s
  let reqs := (s1.mem.txns.filter (fun t => t.slice = n)).filterMap Txn.req
    ++ (s1.mem.waitQ.filter (fun q => q.1 = n)).map (fun q => q.2.2.2.2)
    ++ (s1.mem.held.filter (fun h => h.1 = n)).map Prod.snd
  let s2 := { s1 with mem := { s1.mem with
      txns := s1.mem.txns.filter (fun t => t.slice ≠ n)
      waitQ := s1.mem.waitQ.filter (fun q => q.1 ≠ n)
      held := s1.mem.held.filter (fun h => h.1 ≠ n)
      filter := NMap.cut s1.mem.filter (n * 32768) (n * 32768 + 32768) } }
  ((reqs.foldl (fun s r => s.failReq r) s2).gatherDrop n (fun _ => true) tsSLICE_LOST).reportSliceLost n

/-- An HBM channel leaves service (R92, R283): a write it holds is dropped, and counted unless the other copy takes it; a read it holds is
served from the other copy, else answered with poison and counted. -/
def State.channelLeft (s : State) (ch : Nat) : State :=
  let mine := s.mem.reqs.filter (fun r => r.ch = ch)
  let s1 := { s with mem := { s.mem with reqs := s.mem.reqs.filter (fun r => r.ch ≠ ch) } }
  mine.foldl (fun s r =>
    match r.wr with
    | some _ => if s.otherLive r.line ≠ none then s else s.count (pg cHCH ch) PgHCH.DROPPED_WRITES 1
    | none =>
      if r.txn = none then s
      else match s.otherLive r.line with
      | some (l2, c2) =>
        (s.hbmPush { r with ch := c2, line := l2, place := .waiting, got := List.replicate 64 0, gotPois := 0, failed := 0, passed0 := 0, passed1 := 0 }).count
          (pg cSCR (ch / 32)) PgSCR.PERF2_REPAIRED (secCount r.secs)
      | none =>
      let s := s.count (pg cHCH ch) PgHCH.DROPPED_POISON_READS 1
      match r.txn with
      | some t => (match s.txn? t with
        | some t => s.putTxn { t with gotMask := t.gotMask ||| r.secs, gotPois := t.gotPois ||| r.secs }
        | none => s)
      | none => s) s1

/-- The grid neighbours of a grid router: east, west, south, north. -/
def gridNbrs (n : Nat) : List (Option Nat) :=
  [if tileCol n < 19 then some (n + 1) else none, if 0 < tileCol n then some (n - 1) else none,
   if tileRow n < 19 then some (n + 20) else none, if 0 < tileRow n then some (n - 20) else none]

/-- LINK_CHANGE at the neighbours of a router that leaves or rejoins (11_mesh_and_regulation.md R350). -/
def State.linkChange (s : State) (r : Nat) : State :=
  let nb := if r < 400 then (gridNbrs r).filterMap id ++ (List.range 48).filterMap (fun k =>
      if edgeAttach (400 + k) = r then some (400 + k) else none)
    else [edgeAttach r]
  nb.foldl (fun s m => if s.live (.router m) then s.setInt (pg cMSH m) 0 else s) s

/-! ### A site's leaving (12_coherence.md R371, R372, R378; 13_chiplet_sites.md R406, R415, R419) -/

/-- SITE tasks that run on a chiplet end with a status; what it still sends of them is discarded (R409, R415). -/
def State.siteTasksEnd (s : State) (x code : Nat) : State :=
  let st := s.siteSt x
  let run := st.tasks.filter (fun t => !t.late)
  let s1 := s.setSite x { st with tasks := st.tasks.map (fun t => { t with late := true }) }
  run.foldl (fun s t => s.taskEnd t.task code) s1

/-- Every line an agent holds is recalled (R372). -/
def State.recallAgent (s : State) (x : Nat) : State :=
  let homes := (s.mem.filter.filterMap (fun e => match e.2 with
    | some f => if natBit f.mask x then some (e.1 / 32768) else none
    | none => none)).eraseDups
  homes.foldl (fun s n => s.recall n false (fun f => natBit f.mask x) x) s

/-- An agent that is gone holds no line (R371): lines it owned are poisoned in memory, it leaves every entry, and snoops that await it
are taken as answered RspI; a hint it was offered is declined, and a line it was granted closes without its CmpAck.
[DEDUCED, log entry 244] -/
def State.agentGone (s : State) (x : Nat) : State :=
  let mine := s.mem.filter.filterMap (fun e => match e.2 with
    | some f => if natBit f.mask x then some (e.1 / 32768, f) else none
    | none => none)
  let s1 := mine.foldl (fun s e =>
    let f := e.2
    let m := withoutBit f.mask x
    let own := decide (f.st = .o x)
    let s := if own then s.poisonLine e.1 f.line else s
    s.setFilter e.1 f.line (if m = 0 then none
      else some { f with mask := m, st := match f.st with | .sf y => if y = x then .s else .sf y | .o y => if y = x then .s else .o y | z => z })) s
  let hints := s1.mem.txns.filter (fun t => t.phase = .place && t.snoops.any (fun w => w.agent = x))
  let acks := s1.mem.txns.filter (fun t => t.phase = .ack && t.req.any (fun r => r.agent = x))
  let s2 := hints.foldl (fun s t => ((s.count (pg cCOH t.slice) PgCOH.PERF2_HINT_DECLINED 1).closeTxn t.id).settle t.slice) s1
  let s3 := acks.foldl (fun s t => (s.closeTxn t.id).settle t.slice) s2
  let waits := (s3.mem.txns.filter (fun t => t.snoops.any (fun w => w.agent = x))).map Txn.line
  waits.foldl (fun s l => s.snoopAnswer l x false none false) s3

/-- A site leaves the live floor plan: fenced, its lines are recalled while its link stays up (R415); else its protocol state is void and
its lines are gone. -/
def State.siteLeft (s : State) (x : Nat) (c : Cause) : State :=
  let s1 := s.siteTasksEnd x tsSITE_ERROR
  match c with
  | .fenced => (s1.recallAgent x).siteWork x
  | _ => (((s1.siteVoid x).agentGone x).setFld (pg cSIT x) PgSIT.FUNCS_PRESENT 0).setSiteLink x (if c = .faulted then slFAULTED else slDOWN)

/-- A strand leaves service: packets queued on it go on by the other strands of their direction, or are handled as ones without a live strand
(14_fabric_links.md R434, R448). -/
def State.strandLeft (s : State) (g : Nat) : State :=
  let x := s.strand g
  x.queue.foldl (fun s o => s.junction (g / 4) o.inp (if pktS o.pkt then some (g % 4) else none) o.pkt) (s.setStrand g { x with queue := [] })

/-- DL_Down (16_host_endpoint.md R513): the `acked` oldest posted writes had been acknowledged; the grace timer starts with GRACE_MS as it
stands.
[DEDUCED, log entries 126, 132] -/
def State.hostDown (s : State) (acked : Nat) : State :=
  let s1 := (((s.setFld pHEP PgHEP.LINK_STATUS_DL_UP 0).setFld pHEP PgHEP.LINK_STATUS_SPEED 0).setFld pHEP PgHEP.LINK_STATUS_WIDTH 0).setFld pHEP
    PgHEP.LINK_STATUS_PM 0
  let h := s1.host
  ({ s1 with host := { h with grace := true, graceMs := s1.fld pHEP PgHEP.LINK_CFG_GRACE_MS, posted := h.posted.drop acked, turnOff := false } } :
    State).setInt pHEP 0

/-- Rekey laps of an attachment end (09_memory_integrity.md R289, R293): with the last lap of a partition, PENDING clears. -/
def State.dropLaps (s : State) (a : Nat) (f : RekeyLap → Bool) : State :=
  let done := s.mem.laps.filter (fun l => l.att = a && f l)
  let s1 := { s with mem := { s.mem with laps := s.mem.laps.filter (fun l => !(l.att = a && f l)) } }
  done.foldl (fun s l =>
    let s2 := s.setFld (pg cSCR a) PgSCR.REKEY_PENDING (withoutBit (s.fld (pg cSCR a) PgSCR.REKEY_PENDING) l.part)
    if s2.mem.laps.any (fun k => k.part = l.part) then s2 else s2.setFld pKEY (PgKEY.MEMKEY_PENDING l.part) 0) s1

/-- What leaving the live floor plan does to the blocks behind a unit; the laps that others still owe do not wait for an attachment that is
gone (09_memory_integrity.md R289). -/
def State.unitLeft (s : State) (u : UnitId) (c : Cause) : State :=
  match u with
  | .hank n => s.hankGone n
  | .slice n => s.sliceLeft n
  | .hbmCh a c => s.channelLeft (a * 32 + c)
  | .hbmAtt a => s.dropLaps a (fun _ => true)
  | .router r =>
    let s1 := s.linkChange r
    { s1 with mesh := { s1.mesh with flits := s1.mesh.flits.filter (fun (f : Flit) => f.here ≠ r) } }
  | .site x => s.siteLeft x c
  | .eth e =>
    let s1 := s.ethLink e false
    if c = .fenced then s1
    else (NMap.keys s1.eth.qps).foldl (fun s q => if (s.qp q).ctx.port = e then s.qpError q else s) s1
  | .optAtt a => (List.range 4).foldl (fun s k => s.strandLeft (4 * a + k)) s
  | .strand a k => s.strandLeft (4 * a + k)
  | .host => if s.dlUp then s.hostDown 0 else s
  | _ => s

/-! ### Commits of a block that stops (02_register_pages.md R70) -/

/-- The windows in the shadow break R497: two enabled ones overlap, one has no length or names no partition. -/
def winsBad (s : State) : Bool :=
  let ws := (List.range 32).filter (fun w => s.flag pHEP (PgHEP.WIN_MAP_ENABLE w))
  let lo (w : Nat) : Nat := s.fld pHEP (PgHEP.WIN_MAP_BAR_BASE w)
  let len (w : Nat) : Nat := s.fld pHEP (PgHEP.WIN_MAP_LEN w)
  ws.any (fun w => len w = 0 || decide (16 ≤ s.fld pHEP (PgHEP.WIN_MAP_PART w))) ||
  ws.any (fun w => ws.any (fun v => decide (w < v) && decide (lo w < lo v + len v) && decide (lo v < lo w + len w)))

/-- The functions whose binding a FUNC commit changes (13_chiplet_sites.md R414). -/
def State.funcsChanged (s : State) (x : Nat) : List Nat :=
  (List.range 8).filter (fun f => s.word (pg cSIT x) (0x158 + 8 * f) ≠ s.actWord (pg cSIT x) (0x158 + 8 * f))

/-- A commit in progress completes as its block enters FENCED or FAULTED (R70).
[DEDUCED, log entry 135] -/
def State.commitStop (s : State) (p : Nat) : State :=
  let i := pgInst p
  let c := pgCls p
  if !s.flag p PgHDR.PAGE_STATE_COMMIT_BUSY || (s.pageState p ≠ stFENCED && s.pageState p ≠ stFAULTED) then s
  else if c = cSKN then (if s.wayCommitBad i then (s.commitRefuse p).releaseHeld i else s.wayMapCommit i)
  else if c = cSIT then
    if (s.siteSt i).binding then (s.setSite i { s.siteSt i with binding := false }).commitDone p
    else let ch := s.funcsChanged i; (s.copyStaged p).siteBind i ch
  else if c = cHEP then (if winsBad s then s.commitRefuse p else (s.copyStaged p).commitDone p)
  else if c = cMIL then s.milApply i
  else (s.copyStaged p).commitDone p

/-! ### Records and log -/

/-- Writes an entry of the change log (R93); optical attachments and the host endpoint have no KIND. -/
def State.logChange (s : State) (u : UnitId) (c : Cause) (sub gen : Nat) : State :=
  if 11 ≤ unitKind u then s
  else
    let p := pg cFPD 8
    let h := s.fld p PgFPD8.LOG_HEAD_HEAD % 64
    let w := gen <<< 32 + unitKind u <<< 28 + unitInst u <<< 13 + causeCode c <<< 9 + sub <<< 1 + 1
    (s.setWord p (0x100 + 8 * h) (BitVec.ofNat 64 w)).setFld p PgFPD8.LOG_HEAD_HEAD ((h + 1) % 64)

/-- The live cause a unit has by what it still holds (R81, R86, R652).
[DEDUCED, log entry 220] -/
def State.natural (s : State) (u : UnitId) : Cause :=
  match u with
  | .hank n => s.hankCause n
  | .hbmAtt a => if s.liveHbmCh a = 32 then .good else .degraded
  | .site st => if s.liveSiteChs st = 64 then .good else .degraded
  | .optAtt a =>
    if (List.range 4).all (fun k => s.live (.strand a k)) && (NMap.getD s.plan.opt {} a).laneOk = 0x1FFFF then .good else .degraded
  | _ => .good

/-- The cause a unit comes back with (R81, R89): a hank that is no longer fit is removed whole; a unit whose page software fenced meanwhile
is FENCED. -/
def State.backCause (s : State) (u : UnitId) : Cause × Nat :=
  if (unitPages u).any (fun p => hasCap p capFence && s.flag p PgHDR.PAGE_CTRL_FENCE) then (.fenced, scNONE)
  else match u with
    | .hank n => if s.hankFit n then (s.hankCause n, scNONE) else (.faulted, if s.checkOk n then scSPINDLE_COUNT else scCHECK)
    | u => (s.natural u, scNONE)

/-- Sites and attachments whose live cause follows from their channels, strands and lanes (R79, R86, R652), with what it becomes.
[DEDUCED, log entry 220] -/
def State.derived (s : State) : List (UnitId × Cause) :=
  let site (st : Nat) : Option (UnitId × Cause) :=
    let u := UnitId.site st
    let c := s.natural u
    if s.live u && 0 < s.liveSiteChs st && (s.unit u).live ≠ c then some (u, c) else none
  let att (a : Nat) : Option (UnitId × Cause) :=
    let u := UnitId.hbmAtt a
    let c := if s.liveHbmCh a = 0 then Cause.dependent else s.natural u
    if (s.live u || (s.unit u).live = .dependent) && (s.unit u).live ≠ c then some (u, c) else none
  let opt (a : Nat) : Option (UnitId × Cause) :=
    let u := UnitId.optAtt a
    let c := s.natural u
    if s.live u && (s.unit u).live ≠ c then some (u, c) else none
  (List.range 4).filterMap site ++ (List.range 8).filterMap att ++ (List.range 6).filterMap opt

/-- The state of a page whose unit leaves with a cause (R50, 02_register_pages.md R63): FENCED or FAULTED, a dependent unit's as that of the
unit it left with (`head`); a page that is OFF or in RESET takes its state when it comes out, and one already stopped by a fence is left
only for FAULTED.
[DEDUCED, log entry 222] -/
def State.causePage (s : State) (p : Nat) (c head : Cause) : State :=
  let st := s.pageState p
  let run := decide (st = stIDLE) || decide (st = stBUSY) || decide (st = stQUIESCING)
  match c with
  | .fenced => if run then s.setState p stFENCED else s
  | .faulted => if run || st = stFENCED then s.setState p stFAULTED else s
  | .dependent => if run then s.setState p (if head = .fenced then stFENCED else stFAULTED) else s
  | _ => s

/-- The pages of a unit that leaves. -/
def State.causePages (s : State) (u : UnitId) (c head : Cause) : State := (unitPages u).foldl (fun s p => s.causePage p c head) s

/-- The pages of units that come back with another leave FENCED, or FAULTED by way of RESET (02_register_pages.md R63). -/
def State.backPages (s : State) (us : List UnitId) : State :=
  us.foldl (fun s d => if !s.live d then s else (unitPages d).foldl (fun s p =>
    if s.pageState p = stFENCED && !s.flag p PgHDR.PAGE_CTRL_FENCE then s.setState p stIDLE
    else if s.pageState p = stFAULTED then ((s.setState p stRESET).setFld p PgHDR.PAGE_CTRL_FENCE 0).setState p stIDLE else s) s) s

/-- BELOW_MIN and MESH_FATAL follow the live floor plan (R91, R95). -/
def State.planLimits (s : State) (u : UnitId) : State :=
  let was := s.flag pFPD PgFPD0.FPD_STATUS_BELOW_MIN
  let now := s.belowMin
  let s1 := s.setFld pFPD PgFPD0.FPD_STATUS_BELOW_MIN (b2n now)
  let s2 := if now && !was then (s1.setInt pFPD 1).report true (s1.ev .corrected evBELOW_MIN 0 pFPD 31 (s1.fld pFPD PgFPD0.FPD_GEN_GEN) 0)
            else s1
  if s2.meshBroken && !s2.flag pFPD PgFPD0.FPD_STATUS_MESH_FATAL then
    let p := match unitPages u with | q :: _ => q | [] => pFPD
    (s2.setFld pFPD PgFPD0.FPD_STATUS_MESH_FATAL 1).report true
      (s2.ev .fatal evMESH_FATAL 0 p 31 (s2.fld pFPD PgFPD0.FPD_GEN_GEN) 0)
  else s2

/-- Writes a unit's live cause and its log entry; a live unit reports no sub-cause (R80). -/
def State.putCause (s : State) (gen : Nat) (x : UnitId × Cause × Nat) : State :=
  (s.setUnit x.1 { s.unit x.1 with live := x.2.1, sub := if causeLive x.2.1 then scNONE else x.2.2 }).logChange x.1 x.2.1 x.2.2 gen

/-- One unit's leaving or return, once the records are written: `was`, the state before the change. A site that was out already takes its
new cause too. -/
def State.moved (s was : State) (x : UnitId × Cause × Nat) : State :=
  if causeLive x.2.1 then (match x.1 with | .router r => s.linkChange r | _ => s)
  else if was.live x.1 || (match x.1 with | .site _ => true | _ => false) then
    (unitPages x.1).foldl State.commitStop (s.unitLeft x.1 x.2.1)
  else s

/-- One change of the live floor plan (R88): the units listed take their causes, sites and attachments follow, one log entry each,
GEN goes on by two, CHANGE is raised.
[DEDUCED, log entry 80] -/
def State.planChange (s : State) (us : List (UnitId × Cause × Nat)) : State :=
  let gen := (s.fld pFPD PgFPD0.FPD_GEN_GEN + 2) % 2 ^ 32
  let head := match us with | x :: _ => x.2.1 | [] => Cause.good
  let s1 := us.foldl (fun s x => s.putCause gen x) s
  let more := s1.derived.map (fun x => (x.1, x.2, scNONE))
  let s2 := more.foldl (fun s x => s.putCause gen x) s1
  let s3 := (us ++ more).foldl (fun s x => s.causePages x.1 x.2.1 head) s2
  let s4 := (us ++ more).foldl (fun t x => t.moved s x) s3
  let s5 := s4.backPages ((more.filter (fun x => causeLive x.2.1 && !s.live x.1)).map Prod.fst)
  let s6 := (s5.setFld pFPD PgFPD0.FPD_GEN_GEN gen).setInt pFPD 0
  match us with
  | x :: _ => s6.planLimits x.1
  | [] => s6

/-- Removes a unit with its dependents (R88, R90); a unit already out only takes the new cause. -/
def State.removeUnit (s : State) (u : UnitId) (c : Cause) (sub : Nat) : State :=
  let deps := (unitDependents u).filter s.live
  s.planChange ((u, c, sub) :: deps.map (fun d => (d, Cause.dependent, scNONE)))

/-- Marks a unit as returned, with every unit that was DEPENDENT on it and whose other needs are live (R89); the units that return, each with
the cause it would have. -/
def State.returning (s : State) (u : UnitId) : State × List UnitId :=
  let back (x : State × List UnitId) (d : UnitId) : State × List UnitId :=
    if (x.1.unit d).live = .dependent && x.1.needsMet d then
      (x.1.setUnit d { x.1.unit d with live := .good, sub := scNONE }, x.2 ++ [d])
    else x
  (unitDependents u).foldl back (s.setUnit u { s.unit u with live := .good, sub := scNONE }, [u])

/-- Returns a unit with its dependents, in one change (R89); one whose needs are not all live becomes DEPENDENT and waits for them. -/
def State.returnUnit (s : State) (u : UnitId) : State :=
  if !s.needsMet u then s.planChange [(u, .dependent, scNONE)]
  else
    let r := s.returning u
    let s1 := (s.planChange (r.2.map (fun d => (d, r.1.backCause d)))).backPages (r.2.filter (· ≠ u))
    r.2.foldl (fun s d => match d with | .hank n => if s.live d then s.leadBack n else s | _ => s) s1

/-- The page that counts a unit's errors. -/
def unitPage (u : UnitId) : Nat :=
  match u with
  | .spindle n _ => pg cHNK n
  | .siteCh st _ => pg cSIT st
  | .lane a _ => pg cFAB a
  | .strand a _ => pg cFAB a
  | u => match unitPages u with | p :: _ => p | [] => pFPD

/-- The removal of a unit loses work or data (R621).
[DEDUCED, log entry 197] -/
def lossy : UnitId → Bool
  | .slice _ => true | .router _ => true | .hbmCh .. => true | .hbmAtt _ => true | .site _ => true | .eth _ => true
  | _ => false

/-- A lasting fault in service (R620): the unit becomes FAULTED, ERR_COUNT.LASTING counts it, and a LASTING event reports it.
[DEDUCED, log entry 197] -/
def State.faultUnit (s : State) (u : UnitId) (sub : Nat) : State :=
  let p := unitPage u
  let s1 := (s.removeUnit u .faulted sub).count p PgHDR.ERR_COUNT_LASTING 1
  s1.report true (s1.ev (if lossy u then .contained else .corrected) evLASTING sub p (s1.ownerPart p)
    (s1.fld pFPD PgFPD0.FPD_GEN_GEN) 0)

/-- A start-up stage removes a unit (R77, R78): its boot cause is the first that removed it, its dependents go with it (R90). -/
def State.bootRemove (s : State) (u : UnitId) (c : Cause) (sub : Nat) : State :=
  let one (s : State) (x : UnitId × Cause × Nat) : State :=
    if s.live x.1 then s.setUnit x.1 ⟨x.2.1, x.2.1, x.2.2⟩ else s
  ((u, c, sub) :: (unitDependents u).map (fun d =>
    (d, Cause.dependent, scNONE))).foldl one s

/-- A spindle leaves or rejoins a hank in service (R81, 04_spindle_array.md R116, R124): the bitmap is rewritten, and the hank is
GOOD, DEGRADED, or removed when fewer than 48 are left. -/
def State.setSpindle (s : State) (n j : Nat) (good : Bool) (c : Cause) : State :=
  let s1 := s.setSpindles n (natSetBits (s.spindles n) j j (b2n good))
  let r := s1.unit (.spindle n j)
  let s2 := s1.setUnit (.spindle n j) { r with live := c, sub := if good then scNONE else scSPINDLE }
  let hank : UnitId × Cause × Nat :=
    if s2.live (.hank n) then (.hank n, s2.backCause (.hank n)) else (.hank n, (s2.unit (.hank n)).live, (s2.unit (.hank n)).sub)
  s2.planChange ((.spindle n j, c, if good then scNONE else scSPINDLE) ::
    (if hank.2.1 = (s2.unit (.hank n)).live then [] else [hank]))

end Sys2Proof.Machine
end

