-- ==== Sys2Proof/Machine/Gate.lean ====
section
/-! DEFINITION. Who reaches a page, and when its registers take a write (02_register_pages.md R47, R49, R55, R66, R67, R73-R75;
24_limits.md R651). -/
namespace Sys2Proof.Machine

/-- The page of a class and instance. -/
def pageOf (cls inst : Nat) : Nat := pg cls inst

/-- A requester sees a page of an access class (R73). -/
def sees (r : Requester) (accessClass : Nat) : Bool :=
  match r with
  | .host => accessClass = 0
  | .mgmt => decide (accessClass ≤ 1)
  | .rot => true
  | .hub => true

/-- An access of a requester to a page of class `cls`, instance `inst` at an offset: while the BARs are closed to the
host its write is dropped (16_host_endpoint.md R494); an absent page ignores it (R49), an invisible one records ACCESS (R74), else it goes on. -/
def State.gateHdr (s : State) (r : Requester) (cls inst off : Nat) (k : Nat → State → State) : State :=
  let p := pg cls inst
  let go (s : State) : State :=
    if 2048 ≤ inst || s.pageAbsent p then s
    else if !sees r (s.accessClass p) then s.pageErr p .access r off
    else k p s
  match r with
  | .host => s.hostIn go
  | _ => go s

/-- A component by its MR (19_trust_and_tenancy.md R553). -/
def State.comp (s : State) (m : Nat) : CompSt := NMap.getD s.rot.comps {} m

/-- The firmware component that drives the block of a page: the Dispatcher, hanks, schedule engines, site controllers (R553). -/
def pageComp (p : Nat) : Option Nat :=
  if pgCls p = cDSP then some 4 else if pgCls p = cHNK then some 5 else if pgCls p = cMIL then some 6
  else if pgCls p = cSIT then some 7 else none

/-- The block stays in reset because no copy of its component could be loaded; its page reads FAULTED (R554). -/
def State.compDown (s : State) (p : Nat) : Bool := match pageComp p with | some m => (s.comp m).down | none => false

/-- The block's registers read 0 and ignore writes with ORDER (R56, R66): OFF and RESET, and a block left in reset. -/
def State.shut (s : State) (p : Nat) : Bool := s.pageState p = stOFF || s.pageState p = stRESET || s.compDown p

/-- A write of a block register: also refused in OFF and RESET, with ORDER (R66).
[DEDUCED, log entry 39] -/
def State.gateBlk (s : State) (r : Requester) (cls inst off : Nat) (k : Nat → State → State) : State :=
  s.gateHdr r cls inst off (fun p s =>
    if s.shut p then s.order p r off else k p s)

/-- The page takes writes to QUIESCE fields: IDLE, FENCED or FAULTED (R68). -/
def State.quiet (s : State) (p : Nat) : Bool :=
  s.pageState p = stIDLE || s.pageState p = stFENCED || s.pageState p = stFAULTED

/-- A write of a register of QUIESCE fields (R68): in any other state it is ignored whole, with QWRITE. -/
def State.gateQui (s : State) (r : Requester) (cls inst off : Nat) (k : Nat → State → State) : State :=
  s.gateBlk r cls inst off (fun p s => if s.quiet p then k p s else s.pageErr p .qwrite r off)

/-! ### Synthesised errors (11_mesh_and_regulation.md R348; 21_bring_up_and_reset.md R607) -/

/-- A transaction's task fails with TIMEOUT, or TIER_FAIL for an access to a lower tier (R348, 08_memory_tiers.md R255); the initiator
synthesises the error. -/
def State.synthError (s : State) (o : TolOut) : State :=
  let p := pg cTOL o.tol
  (((s.count p PgTOL.PERF_TIMEOUTS 1).setInt p 1).emit (.timeoutError o.tol o.id)).taskErr o.task
    (if o.lower then tsTIER_FAIL else tsTIMEOUT)

/-- Takes an outstanding transaction off, if it is there. -/
def State.dropOut (s : State) (tol id : Nat) : State :=
  { s with mesh := { s.mesh with outs := s.mesh.outs.filter (fun o => !(o.tol = tol && o.id = id)) } }
def State.outTxn? (s : State) (tol id : Nat) : Option TolOut := s.mesh.outs.find? (fun o => o.tol = tol && o.id = id)

/-- A transaction ends in the synthesised error; its response, should it come, is late (R348, R349). An engine of the hub hears the error as the
answer to its access. -/
def State.timeoutTxn (s : State) (o : TolOut) : State :=
  let s0 := (s.dropOut o.tol o.id).synthError o
  let s1 := if joinBase ≤ o.id then s0.joinAnswer o.id (if o.lower then tsTIER_FAIL else tsTIMEOUT) [] 0 else s0
  { s1 with mesh := { s1.mesh with late := s1.mesh.late ++ [(o.tol, o.id)] } }

/-- The tollgate of the initiator behind a page (R339). -/
def pageTol (p : Nat) : Option Nat :=
  let i := pgInst p
  match pgCls p with
  | 8 => some i | 22 => some (400 + i) | 27 => some (468 + i) | 23 => some (470 + i) | _ => none

/-- A block's reset is over, so its drain limit has passed (R60, R607): what its initiator still had outstanding has got its error. -/
def State.drainBlock (s : State) (p : Nat) : State :=
  match pageTol p with
  | some t => (s.mesh.outs.filter (fun o => o.tol = t)).foldl (fun s o => s.timeoutTxn o) s
  | none => s

/-- A page leaves RESET when its reset completes (R55, R64, R65, R654): FENCE set, FENCED; its unit live, or fenced and no longer, IDLE;
its unit outside the live floor plan, FAULTED. ENABLE becomes 1 where the unit is live. -/
def State.pageResetDone (s : State) (p : Nat) : State :=
  let s1 := (s.drainBlock p).setFld p PgHDR.RST_CTRL_BLOCK_RST 0
  let fence := s1.flag p PgHDR.PAGE_CTRL_FENCE
  match pageUnit p with
  | none => (s1.setFld p PgHDR.PAGE_CTRL_ENABLE 1).setState p (if fence then stFENCED else stIDLE)
  | some u =>
    let s2 := if (s1.unit u).live = .fenced && !fence then s1.returnUnit u else s1
    if s2.live u then
      let s3 := s2.setFld p PgHDR.PAGE_CTRL_ENABLE 1
      if fence then (if hasCap p capFence then s3.removeUnit u .fenced scNONE else s3).setState p stFENCED else s3.setState p stIDLE
    else if (s2.unit u).live = .fenced then s2.setState p stFENCED
    else s2.setState p stFAULTED

end Sys2Proof.Machine
end

