-- ==== Sys2Proof/Machine/Mesh.lean ====
section
/-! DEFINITION. Routes, tollgates, timeouts (11_mesh_and_regulation.md), mesh packet errors (22_fault_detection.md R616), lay-by
(21_bring_up_and_reset.md R607). -/
namespace Sys2Proof.Machine
open Host

/-! ### Distances and routes (R335, R350) -/

/-- The live grid neighbours of a grid router, in the order east, west, south, north. -/
def State.liveNbrs (s : State) (n : Nat) : List Nat := (gridNbrs n).filterMap (fun o => match o with
  | some m => if s.live (.router m) then some m else none
  | none => none)

/-- One ring of a breadth-first walk from a destination: routers reached so far with their distances. -/
def State.distStep (s : State) : Nat → Nat → List Nat → NMap Nat → NMap Nat
  | 0, _, _, m => m
  | fuel + 1, d, front, m =>
    let x := front.foldl (fun (acc : List Nat × NMap Nat) n =>
      (s.liveNbrs n).foldl (fun (acc : List Nat × NMap Nat) k =>
        if (NMap.getD acc.2 0 k) = 0 then (acc.1 ++ [k], NMap.insert acc.2 k (d + 1)) else acc) acc) ([], m)
    if x.1 = [] then x.2 else s.distStep fuel (d + 1) x.1 x.2

/-- dist(d) of every router that reaches grid router `d` over live routers, plus 1 (0: unreachable). -/
def State.distTo (s : State) (d : Nat) : NMap Nat :=
  if d < 400 && s.live (.router d) then s.distStep 400 1 [d] [(d, 1)] else []

/-- Candidate steps of a flit at router `n` bound for grid router `d` (R335). -/
def routeCands (n d : Nat) : List Nat :=
  let weft := if tileCol n < tileCol d then [n + 1] else if tileCol d < tileCol n then [n - 1] else []
  let warp := if tileRow n < tileRow d then [n + 20] else if tileRow d < tileRow n then [n - 20] else []
  weft ++ warp ++ (gridNbrs n).filterMap id

/-- The step the weft-then-warp route of R22 takes. -/
def plainStep (n d : Nat) : Nat :=
  if tileCol n < tileCol d then n + 1 else if tileCol d < tileCol n then n - 1
  else if tileRow n < tileRow d then n + 20 else n - 20

/-- Traffic may be routed to an edge router: it is in the live floor plan and the block it serves is not absent (01_anatomy.md R19). -/
def State.edgeOpen (s : State) (d : Nat) : Bool :=
  s.live (.router d) && !(match edgeUnit d with | some u => s.absent u | none => false)

/-- The next router of a flit at `n` bound for router `d`: itself, an edge router, a grid router; `none`: unreachable. -/
def State.nextHop (s : State) (n d : Nat) : Option Nat :=
  if n = d then some n
  else if 400 ≤ n then (if s.live (.router (edgeAttach n)) then some (edgeAttach n) else none)
  else
    let g := if 400 ≤ d then edgeAttach d else d
    if n = g then (if s.edgeOpen d then some d else none)
    else
      let m := s.distTo g
      let here := NMap.getD m 0 n
      (routeCands n g).find? (fun k => s.live (.router k) && NMap.getD m 0 k + 1 = here && here ≠ 0)

/-- NEXT and DIST of ROUTE_Q (R350). -/
def State.routeQ (s : State) (n d : Nat) : Nat × Nat :=
  if 400 ≤ d || !s.live (.router d) then (7, 0)
  else
    let m := s.distTo d
    if 400 ≤ n then
      let g := NMap.getD m 0 (edgeAttach n)
      if g = 0 then (7, 0) else (if n < 416 then 2 else if n < 432 then 3 else if n < 440 then 0 else 1, g)
    else
      let g := NMap.getD m 0 n
      if g = 0 then (7, 0)
      else if g = 1 then (4, 0)
      else match s.nextHop n d with
        | none => (7, 0)
        | some k => (if k = n + 1 then 0 else if k + 1 = n then 1 else if k = n + 20 then 2 else 3, g - 1)

/-- LINK_DOWN of a router (R350). -/
def State.linkDown (s : State) (n : Nat) : Nat :=
  if 400 ≤ n then
    let dir := if n < 416 then 2 else if n < 432 then 3 else if n < 440 then 0 else 1
    if s.live (.router (edgeAttach n)) then 15 - 2 ^ dir else 15
  else maskOf 4 (fun k => match (gridNbrs n)[k]? with
    | some (some m) => !s.live (.router m)
    | _ => true)

/-! ### Flits (R335, R616) -/

/-- Counts a flit or message at a router, in units of 1,024 (R350 PERF). -/
def State.flitCount (s : State) (n k : Nat) : State :=
  let key := n * 4 + k
  let c := NMap.getD s.mesh.counts 0 key + 1
  let s1 : State := { s with mesh := { s.mesh with counts := NMap.put s.mesh.counts 0 key (c % 1024) } }
  if c = 1024 then
    s1.count (pg cMSH n) (match k with
      | 0 => PgMSH.PERF0_DATA0_KFLITS | 1 => PgMSH.PERF0_DATA1_KFLITS | 2 => PgMSH.PERF1_REQ_KMSG | _ => PgMSH.PERF1_DETOUR_KFLITS) 1
  else s1

/-- A packet fails its CRC at its destination (R616): the first time a retry is asked for, the second time the initiator synthesises
the error. -/
def State.crcFail (s : State) (f : Flit) : State :=
  let key := f.tol * 2 ^ 32 + f.txn
  if s.mesh.retry.contains key then
    let s1 : State := { s with mesh := { s.mesh with retry := s.mesh.retry.filter (fun x => x ≠ key) } }
    match s1.outTxn? f.tol f.txn with
    | some o => s1.timeoutTxn o
    | none => s1
  else ({ s with mesh := { s.mesh with retry := s.mesh.retry ++ [key] } } : State).emit (.meshRetry f.tol f.txn)

/-- The copy of a packet that was retried arrives whole: a transient fault of the destination router (R616, R620). -/
def State.crcPass (s : State) (f : Flit) (n : Nat) : State :=
  let key := f.tol * 2 ^ 32 + f.txn
  if s.mesh.retry.contains key then
    ({ s with mesh := { s.mesh with retry := s.mesh.retry.filter (fun x => x ≠ key) } } : State).transient (pg cMSH n) scROUTER 0
  else s

/-- A flit's parity fails in a router (R616): a second packet within 1 s is a lasting fault of the router. Ticks are 10 ns. -/
def State.parityFail (s : State) (n : Nat) : State :=
  let now := s.clock
  match NMap.find? s.saf.flitFail n with
  | some t =>
    if now - t ≤ 100000000 then s.faultUnit (.router n) scROUTER
    else { s with saf := { s.saf with flitFail := NMap.insert s.saf.flitFail n now } }
  | none => { s with saf := { s.saf with flitFail := NMap.insert s.saf.flitFail n now } }

/-- The region behind a router absorbs what reaches it: the pages of its unit are in RESET (R607). -/
def State.absorbs (s : State) (n : Nat) : Bool :=
  let ps := if n < 400 then [pg cHNK n, pg cSKN n] else match edgeUnit n with | some u => unitPages u | none => []
  ps.any (fun p => s.pageState p = stRESET)

/-- Lay-by at a boundary (R607): a request without data is refused, a write dropped; read data is a response and is sunk. -/
def State.layby (s : State) (f : Flit) (n : Nat) : State :=
  if f.plane = 2 then
    let s1 := s.count pGLB PgGLB.LAYBY_READS_REFUSED 1
    match s1.outTxn? f.tol f.txn with
    | some o =>
      let own := s1.ownerPart (pg cHNK n)
      let code := match o.task with
        | some t => (match s1.dsp.tasks.find? (fun x => x.id = t) with
          | some x => if x.part = own && n < 400 then tsCANCELLED else tsACCESS
          | none => tsACCESS)
        | none => tsACCESS
      ((s1.dropOut f.tol f.txn).emit (.timeoutError f.tol f.txn)).taskErr o.task code
    | none => s1
  else if f.plane = 0 then s.count pGLB PgGLB.LAYBY_WRITES_DROPPED 1
  else s

/-- A flit takes one hop (R335): it stays while its way is closed; at its destination it is delivered, absorbed, or fails its CRC. -/
def State.flitHop (s : State) (f : Flit) (parityOk crcOk : Bool) : State :=
  match s.nextHop f.here f.dest with
  | none => s
  | some k =>
    let rest := s.mesh.flits.filter (fun g => g.id ≠ f.id)
    let off := f.detour || (f.here < 400 && k < 400 && f.here ≠ (if 400 ≤ f.dest then edgeAttach f.dest else f.dest)
      && k ≠ plainStep f.here (if 400 ≤ f.dest then edgeAttach f.dest else f.dest))
    let s1 := s.flitCount f.here (if f.plane = 0 then 0 else if f.plane = 1 then 1 else 2)
    let s2 := if off && f.plane ≠ 2 then s1.flitCount f.here 3 else s1
    let s3 := if parityOk then s2 else s2.parityFail f.here
    if k = f.dest then
      let s4 : State := { s3 with mesh := { s3.mesh with flits := rest } }
      if !parityOk || !crcOk then s4.crcFail f
      else if s4.absorbs k then s4.layby f k
      else (s4.crcPass f k).emit (.flitOut f.id k)
    else { s3 with mesh := { s3.mesh with flits := rest ++ [{ f with here := k, detour := off }] } }

/-- A new flit of a transaction enters only once the transaction has passed its initiator's tollgate (01_anatomy.md R22): it is out, or was given up. -/
def State.flitPassed (s : State) (f : Flit) : Bool :=
  decide (490 < f.tol) || (s.outTxn? f.tol f.txn).isSome || s.mesh.late.contains (f.tol, f.txn)

/-- A flit in transit goes on from where it is; a new one enters at its router. -/
def execFlitHop (f : Flit) (parityOk crcOk : Bool) (s : State) : Outcome State Fault Refusal :=
  let known := s.mesh.flits.find? (fun g => g.id = f.id)
  let g := match known with | some g => g | none => f
  if known = none && !s.flitPassed f then .next s
  else if 448 ≤ g.here || 448 ≤ g.dest || !s.live (.router g.here) || s.stopped (pg cMSH g.here) then .next s else .next (s.flitHop g parityOk crcOk)

/-! ### Classes (R340) -/

/-- The class R339 fixes for traffic of a kind. -/
def fixedClass (tol kind : Nat) : Option Nat :=
  if tol = 468 || tol = 469 then (if kind = 1 then some 1 else none)
  else if 470 ≤ tol && tol ≤ 475 then (if kind = 1 then some 0 else if kind = 2 then some 1 else none)
  else if tol = 476 then (if kind = 1 then some 1 else none)
  else if tol = 479 then (if kind = 1 then some 0 else none)
  else if 480 ≤ tol && tol ≤ 488 then some 2
  else none

/-- PRIO of a task. -/
def State.taskPrio (s : State) (t : Option TaskId) : Option Nat :=
  match t with
  | none => none
  | some t => (s.dsp.tasks.find? (fun x => x.id = t)).map (fun (x : TaskSt) => x.prio)

/-- A transaction's class: the first rule of R340 that applies.
[DESIGN CHOICE, log entry 9] -/
def State.tolClass (s : State) (r : TolReq) : Nat :=
  match fixedClass r.tol r.kind with
  | some c => c
  | none =>
    let rt := match s.taskPrio r.task with
      | some q => decide (r.part < 16) && decide (q < s.fld (pg cTOL (496 + r.part)) PgTSH.DSP_SHARE_RT_LEVELS)
      | none => false
    if rt then 1
    else match (if 400 ≤ r.tol && r.tol ≤ 403 then r.siteCls else none) with
      | some c => c % 4
      | none => s.fld (pg cTOL r.tol) PgTOL.CLASS_CFG_DEFAULT_CLASS

/-! ### Token buckets (R341, R346) -/

/-- Tokens a transaction costs. -/
def tolCost (r : TolReq) : Nat := max 1 ((r.bytes + 63) / 64)

/-- TOKENS as a signed number. -/
def State.tokens (s : State) (tol c : Nat) : Int :=
  let t := s.fld (pg cTOL tol) (PgTOL.BUCKET_TOKENS c)
  if t < 2 ^ 31 then (t : Int) else (t : Int) - 2 ^ 32
def State.setTokens (s : State) (tol c : Nat) (t : Int) : State :=
  s.setFld (pg cTOL tol) (PgTOL.BUCKET_TOKENS c) (t % 2 ^ 32).toNat

def State.unregulated (s : State) (tol c : Nat) : Bool := s.fld (pg cTOL tol) (PgTOL.BUCKET_RATE c) = 0xFFFF

/-- A real-time master at urgency 3 passes REALTIME whatever TOKENS holds, down to −BURST (R346). -/
def State.urgentPass (s : State) (r : TolReq) (c : Nat) : Bool :=
  let p := pg cTOL r.tol
  c = 1 && 468 ≤ r.tol && r.tol ≤ 476 && s.fld p PgTOL.STATUS_URGENCY = 3 &&
    decide (-(s.fld p (PgTOL.BUCKET_BURST 1) : Int) ≤ s.tokens r.tol 1 - (tolCost r : Int))

/-- The bucket a transaction passes with: its own, or BEST_EFFORT's when it may borrow. -/
def State.passAs (s : State) (t : TolTxn) : Option Nat :=
  let has (c : Nat) : Bool := s.unregulated t.req.tol c || decide ((tolCost t.req : Int) ≤ s.tokens t.req.tol c)
  if has t.cls || s.urgentPass t.req t.cls then some t.cls
  else if s.flag (pg cTOL t.req.tol) PgTOL.CLASS_CFG_BORROW && has 3 then some 3
  else none

/-- The first transaction of a tollgate that can leave: none of its class and none of its line waits before it (within a class they
leave in issue order, R341); then classes in order. -/
def State.tolPick (s : State) (tol : Nat) : Option (TolTxn × Nat) :=
  let mine := s.mesh.waiting.filter (fun t => t.req.tol = tol)
  let free := (List.range mine.length).filterMap (fun i => match mine[i]? with
    | none => none
    | some t => if (mine.take i).any (fun u => u.req.line = t.req.line || u.cls = t.cls) then none else
        match s.passAs t with | some c => some (t, c) | none => none)
  (List.range 4).findSome? (fun c => free.find? (fun x => x.2 = c))

/-- Transactions leave a tollgate while they can. -/
def State.tolDrain (s : State) (tol : Nat) : Nat → State
  | 0 => s
  | fuel + 1 =>
    match s.tolPick tol with
    | none => s
    | some (t, c) =>
      let lvl := s.levelOf tol c
      let s1 : State := if s.unregulated tol c then s else s.setTokens tol c (s.tokens tol c - (tolCost t.req : Int))
      let s2 : State := { s1 with mesh := { s1.mesh with
          waiting := s1.mesh.waiting.erase t
          outs := if t.acc.isNone || joinBase ≤ t.req.id then s1.mesh.outs ++ [⟨tol, t.req.id, t.req.task, t.req.lower, lvl⟩] else s1.mesh.outs } }
      let s3 := s2.emit (.inject tol t.req.id c lvl)
      (match t.acc with | some r => s3.serve r | none => s3).tolDrain tol fuel

/-- Every transaction of a tollgate that can pass does. -/
def State.tolTry (s : State) (tol : Nat) : State :=
  let s1 := s.tolDrain tol (s.mesh.waiting.length + 1)
  if s1.mesh.waiting.any (fun t => t.req.tol = tol) && !s1.mesh.heldIn.contains tol then
    { s1 with mesh := { s1.mesh with heldIn := s1.mesh.heldIn ++ [tol] } }
  else s1

/-- The tollgate of an access of an engine of the hub and its line, as the tollgate sees them (R341). -/
def HomeReq.tolReq (r : HomeReq) : TolReq :=
  let key : Nat := match r.acc.addr with
    | .dpa a => a / 64 | .t0 a => 2 ^ 70 + a / 64 | .hpa a => 2 ^ 71 + a / 64 | .hva q a => 2 ^ 72 + q * 2 ^ 64 + a / 64
  { tol := r.acc.src, id := r.acc.id, task := r.acc.task, part := r.acc.part, kind := 0, siteCls := none, bytes := r.acc.len, line := key
    lower := false }

/-- A hank reaches its own slice by the local port, without the mesh (01_anatomy.md R24). -/
def State.ownSlice (s : State) (r : HomeReq) : Bool :=
  decide (r.acc.src < 400) && (match s.locate r.acc (opWrites r.op) with
    | .scratch n _ _ => n = r.acc.src | .home n _ _ _ _ => n = r.acc.src | .window n _ _ => n = r.acc.src | _ => false)

/-- An access an engine of the hub issues enters the mesh through its tollgate, in its class (01_anatomy.md R22, R340, R341): it is served at
its home once it has passed. -/
def State.enter (s : State) (r : HomeReq) : State :=
  if 490 < r.acc.src || s.ownSlice r then s.serve r
  else ({ s with mesh := { s.mesh with waiting := s.mesh.waiting ++ [⟨r.tolReq, r.acc.cls, some r⟩] } } : State).tolTry r.acc.src

/-- A bucket gains RATE ÷ 100 tokens, the fraction carried, up to BURST (R341). -/
def State.refill (s : State) (tol c : Nat) : State :=
  let rate := s.fld (pg cTOL tol) (PgTOL.BUCKET_RATE c)
  if rate = 0xFFFF then s
  else
    let key := tol * 4 + c
    let f := NMap.getD s.mesh.frac 0 key + rate
    let burst : Int := (s.fld (pg cTOL tol) (PgTOL.BUCKET_BURST c) : Int)
    let s1 : State := { s with mesh := { s.mesh with frac := NMap.put s.mesh.frac 0 key (f % 100) } }
    s1.setTokens tol c (min burst (s1.tokens tol c + (f / 100 : Nat)))

/-- The bucket registers that differ from their reset value; the others are unregulated and full. -/
def State.buckets (s : State) : List (Nat × Nat) :=
  s.regs.filterMap (fun e =>
    let p := e.1 / 512
    let off := (e.1 % 512) * 8
    if pgCls p = cTOL && pgInst p ≤ 490 && 0x108 ≤ off && off ≤ 0x120 then some (pgInst p, (off - 0x108) / 8) else none)

/-! ### Latency and timeouts (R347-R349) -/

/-- A transaction of a tollgate waits for its partition's share of an HBM queue (R342). -/
def State.shareWait (s : State) (tol : Nat) : Bool :=
  s.mem.reqs.any (fun r => r.place = .waiting && s.mem.txns.any (fun t => r.txn = some t.id && t.req.any (fun q => q.acc.src = tol)))

/-- A 1 µs window of an initiator ends (R347): LAT_NOW_NS, the step for the next window, and a microsecond in which a transaction
waited. -/
def State.latWindow (s : State) (tol : Nat) : State :=
  let p := pg cTOL tol
  let target := s.fld p PgTOL.LAT_CFG_TARGET_NS
  let l := min (2 ^ 24 - 1) (NMap.getD s.mesh.lat 0 tol)
  let step := if target = 0 then 0 else if 90 * target ≤ 100 * l then 3 else if 75 * target ≤ 100 * l then 2
              else if 50 * target ≤ 100 * l then 1 else 0
  let s1 := (s.setFld p PgTOL.STATUS_LAT_NOW_NS l).setFld p PgTOL.STATUS_STEP step
  let s2 : State := { s1 with mesh := { s1.mesh with lat := NMap.erase s1.mesh.lat tol } }
  let now := s2.mesh.waiting.any (fun t => t.req.tol = tol) || s2.shareWait tol
  let held := s2.mesh.heldIn.contains tol || now
  let s3 : State := { s2 with mesh := { s2.mesh with heldIn := if now then s2.mesh.heldIn.filter (fun k => k ≠ tol) ++ [tol] else s2.mesh.heldIn.filter (fun k => k ≠ tol) } }
  if held then s3.count p PgTOL.PERF2_HELD_US 1 else s3

def execLatencyWindow (tol : Nat) (s : State) : Outcome State Fault Refusal :=
  if 490 < tol then .next s else .next (s.latWindow tol)

/-- MISSED and GUARANTEE_MISSED (R347).
[DEDUCED, log entry 202] -/
def State.missed (s : State) (tol : Nat) : State := (s.count (pg cTOL tol) PgTOL.PERF_MISSED 1).setInt (pg cTOL tol) 0

/-- A response reaches its initiator: its latency is measured, or it is late (R347, R349). -/
def State.response (s : State) (tol id latNs : Nat) : State :=
  let p := pg cTOL tol
  match s.outTxn? tol id with
  | some _ =>
    let target := s.fld p PgTOL.LAT_CFG_TARGET_NS
    let s1 := s.dropOut tol id
    if target = 0 then s1
    else
      let s2 : State := { s1 with mesh := { s1.mesh with lat := NMap.put s1.mesh.lat 0 tol (max latNs (NMap.getD s1.mesh.lat 0 tol)) } }
      if target < latNs then s2.missed tol else s2
  | none =>
    if s.mesh.late.contains (tol, id) then
      { s with mesh := { s.mesh with late := s.mesh.late.erase (tol, id) } }.count p PgTOL.PERF2_LATE 1
    else s

def execTransactionResponse (tol id latNs : Nat) (s : State) : Outcome State Fault Refusal := .next (s.response tol id latNs)

/-- A transaction's timer expires (R348, R353). -/
def State.initiatorTimeout (s : State) (o : TolOut) : State :=
  let p := pg cTOL o.tol
  let target := s.fld p PgTOL.LAT_CFG_TARGET_NS
  let s1 := s.timeoutTxn o
  if target ≠ 0 && target < 1000 * s.fld p PgTOL.LAT_CFG_TIMEOUT_US then s1.missed o.tol else s1

/-- Transactions of a partition that wait at tollgates are discarded with their tasks (R353); an engine of the hub hears that they ended. -/
def State.tolPartReset (s : State) (p : Nat) : State :=
  let gone := s.mesh.waiting.filter (fun t => t.req.part = p)
  let s1 : State := { s with mesh := { s.mesh with waiting := s.mesh.waiting.filter (fun t => t.req.part ≠ p) } }
  gone.foldl (fun s t => if t.acc.isSome && joinBase ≤ t.req.id then s.joinAnswer t.req.id tsCANCELLED [] 0 else s) s1

end Sys2Proof.Machine
end

