-- ==== Sys2Proof/Machine/Use.lean ====
section
/-! DEFINITION. Requests of sites and of RDMA peers at the homes, and what they do when their translations come
(13_chiplet_sites.md R398, R407, R408; 17_network_ports.md R525-R527; 10_address_translation.md R310-R312). -/
namespace Sys2Proof.Machine

/-! ### Windows (10_address_translation.md R310-R312) -/

/-- An offset in a partition's T0 window: a T0 address, or a gather-window address (R310). -/
def windowT0 (o : Nat) : Option Addr :=
  if o < 0x06400000 then some (.t0 o)
  else if 0x100000000 ≤ o && o < 0x740000000 then some (.t0 o)
  else none

/-- An offset in partition `p`'s T2 window (R311). -/
def State.windowT2 (s : State) (p o : Nat) : Option Addr :=
  let q := pg cPRT p
  let x := o - 2 ^ 47
  if o < s.fld q PgPRT.T2_WIN_T2_LEN * 0x200000 then some (.dpa (s.fld q PgPRT.T2_WIN_T2_BASE * 0x200000 + o))
  else if 2 ^ 47 ≤ o && x < 8 * 2 ^ 39 then some (.dpa (2 ^ 47 + p * 2 ^ 42 + x))
  else none

/-- A SPACE 1 or SPACE 2 object address (R168) of partition `p`. -/
def State.objWindow (s : State) (p o : Nat) : Option Addr :=
  if o / 2 ^ 62 = 1 then windowT0 (o % 2 ^ 57) else if o / 2 ^ 62 = 2 then s.windowT2 p (o % 2 ^ 57) else none

/-- A region address of a pattern descriptor (R154). -/
def State.regWindow (s : State) (p a : Nat) : Option Addr :=
  if natBit a 63 then s.windowT2 p (a % 2 ^ 48) else windowT0 (a % 2 ^ 48)

/-- A run of bytes lies inside a window: its first and last byte pass, on one side of each gap. -/
def State.regInside (s : State) (p a len : Nat) : Bool :=
  let b := a % 2 ^ 48
  if natBits a 62 48 ≠ 0 then false
  else if len = 0 then true
  else if natBit a 63 then
    decide (b + len ≤ s.fld (pg cPRT p) PgPRT.T2_WIN_T2_LEN * 0x200000) ||
      (decide (2 ^ 47 ≤ b) && decide (b % 2 ^ 39 + len ≤ 2 ^ 39) && decide (b - 2 ^ 47 < 8 * 2 ^ 39))
  else decide (b + len ≤ 0x06400000) || (decide (0x100000000 ≤ b) && decide (b + len ≤ 0x740000000))

/-! ### What a reader finds in memory -/

/-- What a read of partition `p` inside one line finds now: its bytes and whether they are poisoned; `some none` where the access is refused;
`none` where the host, a site or a gather engine holds them. -/
def State.peekAt (s : State) (p : Nat) (a : Addr) (len : Nat) : Option (Option (List Byte × Bool)) :=
  let off := addrOff a
  let out (l : List Byte × Nat) : Option (Option (List Byte × Bool)) := some (some ((l.1.drop off).take len, decide (l.2 &&& secsOf off len ≠ 0)))
  match s.locate ⟨0, 477, p, none, a, len, 1, 0, false, none, false⟩ false with
  | .scratch n w word => out (s.bankLine n w word)
  | .home n line _ _ _ =>
    let own := match s.filterOf n line with | some e => (match e.st with | .o _ => true | _ => false) | none => s.setLost n line
    let whole := match s.findLine n line with | some w => (s.tag n w (homeSet line)).valid % 4 = 3 | none => false
    if own || (isT3 line && !whole) then none else out (s.peekLine n line)
  | .refuse => some none
  | .lost .. => some none
  | _ => none

/-! ### Several lines, one answer -/

/-- One access of a gathered request: its address, length, what it does, sector path. -/
structure Part where
  addr : Addr
  len : Nat
  op : AccOp
  sector : Bool := false

/-- Cuts a run of `len` bytes that starts at offset `off` of a line into its parts by aligned units (lines or sectors): (position, length). -/
def lineCuts (unit off len : Nat) : Nat → Nat → List (Nat × Nat)
  | 0, _ => []
  | fuel + 1, pos =>
    if len ≤ pos then []
    else
      let n := min (unit - (off + pos) % unit) (len - pos)
      (pos, n) :: lineCuts unit off len fuel (pos + n)

/-- The cuts of a run by lines. -/
def cutsOf (off len : Nat) : List (Nat × Nat) := lineCuts 64 (off % 64) len (len / 64 + 2) 0

/-- The cuts of a run whose requester uses the sector path for 32 bytes or less (R214): there by sectors, else by lines. -/
def pathCuts (off len : Nat) : List (Nat × Nat) := if len ≤ 32 then lineCuts 32 (off % 64) len 3 0 else cutsOf off len

/-- What a read of a run of bytes finds now, its addresses by position; poisoned where a sector of it is.
[DESIGN CHOICE, log entry 6] -/
def State.peek (s : State) (p off len : Nat) (addr : Nat → Option Addr) : Option (Option (List Byte × Bool)) :=
  let xs := (cutsOf off len).map (fun c => match addr c.1 with | some a => s.peekAt p a c.2 | none => some none)
  if xs.contains (some none) then some none
  else (xs.mapM id).map (fun l => (l.mapM id).map (fun l => ((l.map Prod.fst).flatten, l.any Prod.snd)))

/-- Bytes at an object address of partition `p` (R168): in a window what memory holds, `none` where the read is refused or poisoned
(09_memory_integrity.md R279); a virtual address, and what only the host or a site holds, as the reader reports it.
[DESIGN CHOICE, log entry 6] -/
def State.readObj (s : State) (p o len : Nat) (given : Option (List Byte)) : Option (List Byte) :=
  if o / 2 ^ 62 = 0 then given
  else match s.peek p o len (fun i => s.objWindow p (o + i)) with
    | none => given
    | some none => none
    | some (some (b, bad)) => if bad then none else some b

/-- Bytes at a region address of partition `p` (05_spindle_arithmetic.md R154), through its windows; a partition that is none: a DPA, read as
the owner of its granule.
[DESIGN CHOICE, log entry 6] -/
def State.readRegion (s : State) (p o len : Nat) (given : Option (List Byte)) : Option (List Byte) :=
  let found := if p < 16 then s.peek p o len (fun i => s.regWindow p (o + i))
    else s.peek (gOwner (s.granule (o / 0x200000))) o len (fun i => some (.dpa (o + i)))
  match found with
  | none => given
  | some none => none
  | some (some (b, bad)) => if bad then none else some b

/-- Runs of set bits of a byte-enable mask, as (first, length), from bit `i` on. -/
def enableRuns (mask : Nat) : Nat → Nat → List (Nat × Nat)
  | 0, _ => []
  | k + 1, i =>
    let rest := enableRuns mask k (i + 1)
    if !natBit mask i then rest
    else match rest with
      | (f, n) :: more => if f = i + 1 then (i, n + 1) :: more else (i, 1) :: rest
      | [] => [(i, 1)]

/-- Accesses a slice generates pass their tollgate without tokens (11_mesh_and_regulation.md R340). -/
def JoinKind.free : JoinKind → Bool
  | .gatherDesc .. => true | .gatherIdx .. => true | .gatherRow .. => true | _ => false

/-- The parts of a gathered request are served, each once it has passed its tollgate; its answer goes out when all have answered.
[DEDUCED, log entry 7] -/
def State.serveParts (s : State) (kind : JoinKind) (src part cls hint : Nat) (coh : CohKind) (agent : Nat) (ps : List Part)
    (task : Option TaskId := none) : State :=
  let j := s.nextJoin
  if ps = [] then s.joinDone { id := j, kind := kind, left := 0 }
  else
    let s1 := s.joinOpen kind ps.length
    ((List.range ps.length).zip ps).foldl (fun s (x : Nat × Part) =>
      let r : HomeReq := { acc := ⟨joinAcc j x.1, src, part, task, x.2.addr, x.2.len, cls, hint, false, none, false⟩
                           op := x.2.op, coh := coh, agent := agent, sector := x.2.sector }
      if kind.free then s.serve r else s.enter r) s1

/-! ### Site requests (13_chiplet_sites.md R398, R407) -/

/-- Bytes a request of a site covers: lines of RdCur and Wr, a line of WrPart, a sector, an atomic's elements. -/
def aspLen (m : AspMsg) : Nat :=
  if m.op = 0x04 || m.op = 0x05 then 64 * m.len
  else if m.op = 0x06 then 64
  else if m.op = 0x07 || m.op = 0x08 then 32
  else m.len

/-- A request of a site writes; reads. -/
def aspWrites (m : AspMsg) : Bool := m.op = 0x05 || m.op = 0x06 || m.op = 0x08 || m.op = 0x09
def aspReads (m : AspMsg) : Bool := m.op = 0x04 || m.op = 0x07 || m.op = 0x09

/-- The accesses of a request, the address of its byte `i` given. -/
def aspParts (m : AspMsg) (addr : Nat → Option Addr) : Option (List Part) :=
  let runs (base : Nat) (rs : List (Nat × Nat)) (sector : Bool) : Option (List Part) :=
    rs.mapM (fun r => (addr r.1).map (fun a =>
      ({ addr := a, len := r.2, op := .write ((m.data.drop (base + r.1)).take r.2) m.poison, sector := sector } : Part)))
  if m.op = 0x04 then
    (List.range m.len).mapM (fun i => (addr (64 * i)).map (fun a => ({ addr := a, len := 64, op := .read } : Part)))
  else if m.op = 0x05 then
    (List.range m.len).mapM (fun i => (addr (64 * i)).map (fun a =>
      ({ addr := a, len := 64, op := .write ((m.data.drop (64 * i)).take 64) (natBits m.poison (2 * i + 1) (2 * i)) } : Part)))
  else if m.op = 0x06 then runs 0 (enableRuns m.arg64 64 0) false
  else if m.op = 0x07 then (addr 0).map (fun a => [{ addr := a, len := 32, op := .read, sector := true }])
  else if m.op = 0x08 then runs (if natBit m.valid 0 then 0 else 32) (enableRuns m.arg64 32 0) true
  else (addr 0).map (fun a => [{ addr := a, len := m.len
                                 op := .atomic (m.arg8 / 16) (m.arg8 % 16) m.fetch (m.data.take (if m.arg8 / 16 = 5 then 2 * m.len else m.len)) }])

/-- OPCODE of a request's answer: RdData, else Cmp (R398). -/
def aspAnswerOp (m : AspMsg) : Nat := if m.op = 0x04 || m.op = 0x07 || (m.op = 0x09 && m.fetch) then 0x43 else 0x3A

/-- Partition a function is bound to. -/
def State.funcPart (s : State) (x f : Nat) : Nat := s.actFld (pg cSIT x) (PgSIT.FUNC_PART f)

/-- The class a site request passes in: the one it asks, but not below CLASS_MIN in code (11_mesh_and_regulation.md R340). -/
def State.siteClass (s : State) (x : Nat) (m : AspMsg) : Nat := max m.tc (s.actFld (pg cSIT x) (PgSIT.FUNC_CLASS_MIN m.func))

/-- An uncached request of a site is served once its addresses are known (R398). -/
def State.aspServe (s : State) (x c : Nat) (m : AspMsg) (addr : Nat → Option Addr) : State :=
  match aspParts m addr with
  | none => s.aspErr x c m.tag tsACCESS
  | some ps =>
    s.serveParts (.asp x c m.tag (aspAnswerOp m)) (400 + x) (s.funcPart x m.func) (s.siteClass x m) 0
      (if m.op = 0x04 then .rdCur else .plain) (if m.op = 0x04 then x else 5) ps

/-! ### Inbound RDMA (17_network_ports.md R525-R527) -/

/-- The address of byte `i` of an inbound request in its region (SPACE 0: by the pages that have come).
[DEDUCED, log entry 183] -/
def State.mrAddr (s : State) (m : MrSt) (pages : List (Nat × Addr)) (va : Nat) : Option Addr :=
  let o := m.base + va
  if o / 2 ^ 62 = 0 then
    (pages.find? (fun e => e.1 = o / 2 ^ 21)).map (fun e => match e.2 with
      | .dpa b => Addr.dpa (b + o % 2 ^ 21) | .hpa b => Addr.hpa (b + o % 2 ^ 21) | .hva q b => Addr.hva q (b + o % 2 ^ 21) | .t0 b => Addr.t0 (b + o % 2 ^ 21))
  else s.objWindow m.part o

/-- The address of byte `i` of a local buffer: SPACE 0 by its pages in order, else through the partition's windows (R526). -/
def State.bufAddr (s : State) (part base : Nat) (pages : List Addr) (i : Nat) : Option Addr :=
  let o := base + i
  if base / 2 ^ 62 = 0 then
    (pages[o / 2 ^ 21 - base / 2 ^ 21]?).map (fun a => match a with
      | .dpa b => Addr.dpa (b + o % 2 ^ 21) | .hpa b => Addr.hpa (b + o % 2 ^ 21) | .hva q b => Addr.hva q (b + o % 2 ^ 21) | .t0 b => Addr.t0 (b + o % 2 ^ 21))
  else s.objWindow part o

/-- Parts of a run of bytes, written or read by lines; runs of 32 bytes or less on the sector path (R527). -/
def bytesParts (off len : Nat) (addr : Nat → Option Addr) (op : Nat → Nat → AccOp) : Option (List Part) :=
  (pathCuts off len).mapM (fun c => (addr c.1).map (fun a =>
    ({ addr := a, len := c.2, op := op c.1 c.2, sector := decide (len ≤ 32) } : Part)))

/-- A region's check of a request (R525): valid, key, partition, length, operation (bit 0 read, 1 write, 2 atomic). -/
def State.mrCheck (s : State) (q bit : Nat) (r : RdmaReq) : Option MrSt :=
  match s.mr (r.rkey / 256 % 16384) with
  | none => none
  | some m => if r.rkey % 256 = m.key && r.rkey / 2 ^ 22 = 0 && m.part = (s.qp q).part && r.va + r.len ≤ m.length && natBit m.access bit
      then some m else none

/-- An inbound request is issued to its homes (R527). -/
def State.rdmaStart (s : State) (q : Nat) (i : InReq) : State :=
  let x := s.qp q
  let r := i.req
  let pages := i.pages.getD []
  let s1 := s.setQp q { x with inq := x.inq.map (fun k => if k = i then { k with started := true } else k) }
  let go (part hint : Nat) (ps : Option (List Part)) : State :=
    match ps with
    | none => s1.rdmaRefuse q r.psn
    | some ps => s1.serveParts (.rdma q i.kind r) (468 + x.ctx.port) part 1 hint .plain 5 ps
  let wr (d : List Byte) (a n : Nat) : AccOp := .write ((d.drop a).take n) 0
  if i.kind = 2 then
    match r.entry with
    | none => s1
    | some e =>
      let off := x.sendOff
      let s2 := s1.setQp q { s1.qp q with sendOff := off + r.data.length }
      if e.length < off + r.data.length then
        ((s2.failRecv q e.wrId csLENGTH off).rdmaReply q r.psn 4 0 []).qpError q
      else match bytesParts (e.addr + off) r.data.length (fun k => s2.bufAddr x.part e.addr r.pages (off + k)) (wr r.data) with
        | none => (s2.failRecv q e.wrId tsACCESS off).rdmaRefuse q r.psn
        | some ps => s2.serveParts (.rdma q 2 r) (468 + x.ctx.port) x.part 1 0 .plain 5 ps
  else
    match s1.mrCheck q (if i.kind = 0 then 1 else if i.kind = 1 then 0 else 2) r with
    | none => s1.rdmaRefuse q r.psn
    | some m =>
      let addr (k : Nat) := s1.mrAddr m pages (r.va + k)
      if i.kind = 0 then go m.part m.hint (bytesParts (m.base + r.va) r.len addr (wr r.data))
      else if i.kind = 1 then go m.part 0 (bytesParts (m.base + r.va) r.len addr (fun _ _ => .read))
      else
        let op : AccOp := if !r.cas then .atomic 0 1 true (natLe 8 r.add) else .atomic 5 1 true (natLe 8 r.add ++ natLe 8 r.swap)
        go m.part 0 ((addr 0).map (fun a => [{ addr := a, len := 8, op := op }]))

/-- The request a QP may issue next: in PSN order; a READ, an atomic, a SEND or a write with immediate waits for every earlier write;
at most 16 READs and atomics at once (R527). -/
def rdmaNext : List InReq → List InReq → Option InReq
  | _, [] => none
  | before, i :: rest =>
    if i.started then rdmaNext (before ++ [i]) rest
    else if i.pages = none then none
    else if i.kind = 0 && i.req.imm = none then some i
    else if before.any (fun k => k.kind = 0 || k.kind = 2) then none
    else if 16 ≤ (before.filter (fun k => k.kind = 1 || k.kind = 3)).length then none
    else some i

/-- Issues what a QP may issue. -/
def State.rdmaGo (s : State) (q : Nat) : Nat → State
  | 0 => s
  | fuel + 1 =>
    match rdmaNext [] (s.qp q).inq with
    | none => s
    | some i => (s.rdmaStart q i).rdmaGo q fuel

/-! ### Event rings (22_fault_detection.md R626) -/

/-- The address of the next entry of a ring: 32 bytes at HEAD modulo its size. -/
def State.ringVa (s : State) (r : Nat) : Nat :=
  s.fld pSAF (PgSAF.RING_BASE_BASE r) + 32 * (s.fld pSAF (PgSAF.RING_HEAD_HEAD r) % 2 ^ s.fld pSAF (PgSAF.RING_CFG_LOG2_SIZE r))

/-- The oldest event of a ring is written at its translated page: SEQ is HEAD, PHASE flips on each lap; HEAD advances and the vector is sent
(R624, R626).
[DEDUCED, log entry 198] -/
def State.ringPlace (s : State) (r part : Nat) (page : Addr) : State :=
  match s.ringNext r with
  | none => s
  | some e =>
    let head := s.fld pSAF (PgSAF.RING_HEAD_HEAD r)
    let phase := if natBit head (s.fld pSAF (PgSAF.RING_CFG_LOG2_SIZE r)) then !Config.firstPhase else Config.firstPhase
    let b := (e.words head phase (s.saf.ringLost.contains r)).flatMap (natLe 8)
    let o := s.ringVa r % 2 ^ 21
    let pasid := s.fld pSAF (PgSAF.RING_CFG_PASID r)
    let s1 := (s.ringTake r).setFld pSAF (PgSAF.RING_HEAD_HEAD r) ((head + 1) % 2 ^ 32)
    let s2 : State := { s1 with saf := { s1.saf with ringLost := s1.saf.ringLost.erase r } }
    let s3 := match page with
      | .hpa n => s2.hostWrite part none pasid (n + o) false false b
      | .hva q n => s2.hostWrite part none q (n + o) true false b
      | .dpa n => s2.serveParts .staged 477 part 1 0 .plain 5 [{ addr := .dpa (n + o), len := 32, op := .write b 0 }]
      | .t0 n => s2.serveParts .staged 477 part 1 0 .plain 5 [{ addr := .t0 (n + o), len := 32, op := .write b 0 }]
    s3.sendVector (s.fld pSAF (PgSAF.RING_CFG_VECTOR r))

/-! ### Translations come (10_address_translation.md R314, R320) -/

/-- The address a translation gives a page of 2 MiB: a DPA under a DEVICE context; under a HOST context a host physical address, or where
the translation carries U the virtual address under its PASID (R304). -/
def Tlb.page (t : Tlb) (device : Bool) (pasid vpn2 : Nat) : Addr :=
  let a := if t.big then t.base + (vpn2 % 512) * 2 ^ 21 else t.base
  if device then .dpa a else if t.unt then .hva pasid (vpn2 * 2 ^ 21) else .hpa a

/-- A request whose pages are all there goes on. -/
def State.useReady (s : State) (w : XWait) : State :=
  let pages := w.got.map (fun e => (e.1, e.2.1.page e.2.2 w.pasid e.1))
  match w.use_ with
  | .asp x c m => s.aspServe x c m (fun i =>
      (pages.find? (fun e => e.1 = (m.addr + i) / 2 ^ 21)).map (fun e => match e.2 with
        | .dpa b => Addr.dpa (b + (m.addr + i) % 2 ^ 21) | .hpa b => Addr.hpa (b + (m.addr + i) % 2 ^ 21) | .hva q b => Addr.hva q (b + (m.addr + i) % 2 ^ 21) | .t0 b => Addr.t0 b))
  | .aspXlate x c m =>
    match w.got with
    | [] => s
    | (_, t, dev) :: _ =>
      let st := s.siteSt x
      let s1 := s.setSite x { st with handed := st.handed ++ [(m.func % 4, t)] }
      s1.aspReply x c { op := 0x3D, tag := m.tag, addr := t.base + (if dev then 0 else 2 ^ 63)
                        arg8 := 8 * b2n t.big + 4 * b2n t.unc + 2 * b2n t.w + b2n t.r }
  | .rdma q kind r =>
    let y := s.qp q
    let s1 := s.setQp q { y with inq := y.inq.map (fun k =>
      if k.kind = kind && k.req = r && k.pages = none then { k with pages := some pages } else k) }
    s1.rdmaGo q (2 * y.inq.length + 1)
  | .ring r => match pages with | e :: _ => s.ringPlace r w.part e.2 | [] => s

/-- A client's request is granted a translation (R314). -/
def State.xGranted (s : State) (client id va : Nat) (t : Tlb) (device : Bool) : State :=
  match s.xwaits.find? (fun w => w.client = client && w.id = id) with
  | none => s
  | some w =>
    let w1 := { w with need := w.need.erase (va / 2 ^ 21), got := w.got ++ [(va / 2 ^ 21, t, device)] }
    if w1.need = [] then ({ s with xwaits := s.xwaits.filter (fun y => !(y.client = client && y.id = id)) } : State).useReady w1
    else { s with xwaits := s.xwaits.map (fun y => if y.client = client && y.id = id then w1 else y) }

/-- An inbound RDMA packet leaves its queue with all after it, to be sent again (R527).
[DEDUCED, log entry 183] -/
def State.rdmaRnr (s : State) (q kind : Nat) (r : RdmaReq) : State :=
  let x := s.qp q
  let keep := x.inq.takeWhile (fun k => !(k.kind = kind && k.req = r))
  (s.setQp q { x with inq := keep, rxPsn := r.psn }).rdmaReply q r.psn 2 x.ctx.minRnr []

/-- The number of a migration among its engine's translations: its granule's key in the tier table. -/
def Migration.key (m : Migration) : Nat := tierKey m.part m.range m.index

/-- The translation of a migration's backing page is given up. -/
def State.migTile (s : State) (m : Migration) : State :=
  { s with atu := { s.atu with tiles := s.atu.tiles.filter (fun e => !(e.want.client = 86 && e.want.id = m.key)) } }

/-- A migration is abandoned (R254): its granule stays where it was. -/
def State.migFail (s : State) (m : Migration) : State :=
  let t := pg cTIR m.part
  let s1 : State := ({ s with mem := { s.mem with migs := s.mem.migs.filter (fun y => y ≠ m) } } : State).migTile m
  (s1.count t (PgTIR.TR_STAT_FAILS m.range) 1).setInt t 1

/-- A client's request is refused with a reason (R320): a site hears Err or XlateCpl, an RDMA peer NAK Remote Access Error. -/
def State.xRefused (s0 : State) (client id reason : Nat) : State :=
  let s1 := s0.copyRefused client id
  let s := match (if client = 86 then s1.mem.migs.find? (fun m => m.key = id) else none) with
    | some m => (s1.migFail m).workSet (pg cTIR m.part)
        (s1.flag (pg cTIR m.part) PgTIR.GCMD_BUSY || s1.mem.migs.any (fun k => k.part = m.part && k ≠ m))
    | none => s1
  match s.xwaits.find? (fun w => w.client = client && w.id = id) with
  | none => s
  | some w =>
    let s1 : State := { s with xwaits := s.xwaits.filter (fun y => !(y.client = client && y.id = id)) }
    match w.use_ with
    | .asp x c m => s1.aspErr x c m.tag tsXLATE_REFUSED
    | .aspXlate x c m => s1.aspReply x c { op := 0x3D, tag := m.tag, arg8 := reason * 16 }
    | .rdma q _ r => s1.rdmaRefuse q r.psn
    | .ring r => s1.ringLose r

/-- A client's request enters the fault queue: an RDMA peer is sent an RNR NAK (17_network_ports.md R527); sites wait. -/
def State.xFaulted (s : State) (client id : Nat) : State :=
  match s.xwaits.find? (fun w => w.client = client && w.id = id) with
  | some w =>
    (match w.use_ with
     | .rdma q kind r => ({ s with xwaits := s.xwaits.filter (fun y => !(y.client = client && y.id = id)) } : State).rdmaRnr q kind r
     | _ => s)
  | none => s

end Sys2Proof.Machine
end

