-- ==== Sys2Proof/Machine/Bells.lean ====
section
/-! DEFINITION. Doorbells and the writes they follow (06_task_graphs.md R164-R166, R180). -/
namespace Sys2Proof.Machine

/-- Writes a site has sent that are not yet accepted: channel and TAG (13_chiplet_sites.md R398). -/
def State.siteWrites (s : State) (x : Nat) : List (Nat × Nat) :=
  s.xwaits.filterMap (fun w => match w.use_ with | .asp y c m => if y = x && aspWrites m then some (c, m.tag) else none | _ => none) ++
  s.joins.filterMap (fun j => match j.kind with | .asp y c tag _ => if y = x then some (c, tag) else none | _ => none)

/-- A doorbell still waits for a write made before it (R166).
[DEDUCED, log entry 185] -/
def State.bellWaits (s : State) (b : Bell) : Bool :=
  match b.site with
  | none => s.postedBefore b.after
  | some x => b.writes.any (fun k => (s.siteWrites x).contains k)

/-- A doorbell is processed (R165, R180): one for a queue that is gone, or being destroyed, is dropped (R163). -/
def State.bellDo (s : State) (b : Bell) : State :=
  match b.event with
  | none => s.dbTail b.queue b.tail
  | some e => if (s.queue b.queue).st = .absent || (s.queue b.queue).destroying then s else s.eventInc (s.queue b.queue).part e false

/-- A doorbell arrives: processed at once, or once the writes before it have been accepted at their homes (R166).
[DEDUCED, log entry 185] -/
def State.ring (s : State) (site : Option Nat) (q : Nat) (event : Option Nat) (tail : Nat) : State :=
  let writes := match site with
    | none => []
    | some x => s.siteWrites x
  let b : Bell := ⟨site, s.nextJoin, writes, q, event, tail⟩
  if s.bellWaits b then { s with dsp := { s.dsp with bells := s.dsp.bells ++ [b] } } else s.bellDo b

/-- Doorbells whose writes have been accepted are processed, in order of arrival. -/
def State.bellsGo (s : State) : State :=
  let go := s.dsp.bells.filter (fun b => !s.bellWaits b)
  go.foldl State.bellDo { s with dsp := { s.dsp with bells := s.dsp.bells.filter s.bellWaits } }

end Sys2Proof.Machine
end

