-- ==== Sys2Proof/Machine/Atu.lean ====
section
/-! DEFINITION. Address translation: windows, contexts, caches, ATS, device walks, faults, page requests, invalidation
(10_address_translation.md). -/
namespace Sys2Proof.Machine
open Host

/-! ### Contexts (R300-R302) -/

def State.ctx (s : State) (slot : Nat) : Option CtxRec := NMap.getD s.atu.ctx none slot
def State.setCtx (s : State) (slot : Nat) (c : Option CtxRec) : State :=
  { s with atu := { s.atu with ctx := NMap.put s.atu.ctx none slot c } }
/-- The slot that binds a PASID. -/
def State.ctxOf (s : State) (pasid : Nat) : Option Nat :=
  s.atu.ctx.findSome? (fun e => match e.2 with | some c => if c.pasid = pasid then some e.1 else none | none => none)
/-- Partition `p` owns a PASID (R300). -/
def State.ownsPasid (s : State) (p pasid : Nat) : Bool :=
  s.atu.ctx.any (fun e => match e.2 with | some c => c.pasid = pasid && c.part = p | none => false)
/-- Contexts partition `p` holds. -/
def State.ctxCount (s : State) (p : Nat) : Nat :=
  (s.atu.ctx.filter (fun e => match e.2 with | some c => c.part = p | none => false)).length

/-- The ATU page is BUSY while a translation, command or fault is in progress (R328). -/
def State.atuWork (s : State) : State :=
  let u := s.atu
  s.busyIf pATU (u.xreqs ≠ [] || u.fq ≠ [] || u.fqWait ≠ [] || u.invs ≠ [] || u.invCmd || u.draining ≠ none)

/-! ### Cached translations (R314, R315) -/

/-- A cached translation covers a page of 2 MiB of a slot. -/
def Tlb.covers (t : Tlb) (slot vpn2 : Nat) : Bool := t.slot = slot && (if t.big then t.vpn = vpn2 / 512 else t.vpn = vpn2)

/-- The sets of the level-2 cache (R315). -/
def l2Set (slot vpn2 : Nat) (big : Bool) : Nat :=
  if big then ((vpn2 / 512) ^^^ (slot * 16) ^^^ 0x200) % 1024 else (vpn2 ^^^ (slot * 16)) % 1024

/-- A lookup of level 2 probes both sets: the way that hits. -/
def State.l2Find (s : State) (slot vpn2 : Nat) : Option (Nat × Tlb) :=
  let probe (big : Bool) : Option (Nat × Tlb) :=
    let base := l2Set slot vpn2 big * 8
    (List.range 8).findSome? (fun w => match NMap.getD s.atu.l2 none (base + w) with
      | some t => if t.big = big && t.covers slot vpn2 then some (base + w, t) else none
      | none => none)
  match probe false with
  | some x => some x
  | none => probe true

/-- Marks a level-2 entry as the most recently used of its set. -/
def State.l2Touch (s : State) (key : Nat) : State :=
  let u := s.atu
  { s with atu := { u with l2plru := NMap.put u.l2plru 0 (key / 8) (plruTouch (key % 8) 3 0 0 (NMap.getD u.l2plru 0 (key / 8))) } }

/-- Fills level 2 in a way the partition may fill (R315), in place of an older entry of the same page; none where L2_WAYS is 0. -/
def State.l2Fill (s : State) (part vpn2 : Nat) (t : Tlb) : State :=
  let ways := (List.range 8).filter (fun w => natBit (s.fld (pg cPRT part) PgPRT.ATU_QUOTA_L2_WAYS) w)
  let set := l2Set t.slot vpn2 t.big
  if ways = [] then s
  else
    let same (w : Nat) : Bool := match NMap.getD s.atu.l2 none (set * 8 + w) with | some x => x.slot = t.slot && x.big = t.big && x.vpn = t.vpn | none => false
    let old := (List.range 8).filter same
    let s : State := { s with atu := { s.atu with l2 := old.foldl (fun m w => NMap.put m none (set * 8 + w) none) s.atu.l2 } }
    let w := match ways.find? (fun w => NMap.getD s.atu.l2 none (set * 8 + w) = none) with
      | some w => w
      | none => plruWalk (NMap.getD s.atu.l2plru 0 set) ways 3 0 0
    let u := s.atu
    let s1 : State := { s with atu := { u with l2 := NMap.put u.l2 none (set * 8 + w) (some t) } }
    s1.l2Touch (set * 8 + w)

/-- Level-1 cache of a client: 32 entries, least recently used out (R314). -/
def State.l1Put (s : State) (client : Nat) (t : Tlb) : State :=
  let rest := (NMap.getD s.atu.l1 [] client).filter (fun x => !(x.slot = t.slot && x.big = t.big && x.vpn = t.vpn))
  { s with atu := { s.atu with l1 := NMap.put s.atu.l1 [] client ((t :: rest).take 32) } }

/-- Every translation a test names leaves both levels. -/
def State.tlbDrop (s : State) (f : Tlb → Bool) : State :=
  let u := s.atu
  { s with atu := { u with
      l1 := (u.l1.map (fun e => (e.1, e.2.filter (fun t => !f t)))).filter (fun e => e.2 ≠ [])
      l2 := u.l2.filter (fun e => match e.2 with | some t => !f t | none => false) } }

/-! ### Answers (R314, R320, R325-R327) -/

/-- Clients that hold a tile table: DMA engines, itinerary engine, tier engine (R298, R325). -/
def hasTiles (client : Nat) : Bool := (1 ≤ client && client ≤ 64) || client = 84 || client = 86

/-- The address a translation gives. -/
def Tlb.addr (t : Tlb) (va : Nat) : Nat := if t.big then t.base + va % 2 ^ 30 else t.base + va % 2 ^ 21

/-- A request is granted: the client hears, what waited for it goes on, and an engine's tile table holds the translation (R325). -/
def State.grantX (s : State) (slot : Nat) (w : XWant) (t : Tlb) : State :=
  let dev := match s.ctx slot with | some c => c.device | none => false
  let s1 := (s.emit (.xlate w.client w.id (t.addr w.va) t.r t.w t.unc t.unt)).xGranted w.client w.id w.va t dev
  let alive := match w.task with | some t => (s1.task? t).isSome | none => true
  if hasTiles w.client && alive then
    let rest := s1.atu.tiles.filter (fun e => !(e.want.client = w.client && e.want.id = w.id))
    { s1 with atu := { s1.atu with tiles := rest ++ [⟨w, slot, some t⟩] } }
  else s1

/-- Reasons of R320. -/
def xrNOT_PRESENT : Nat := 1
def xrPERMISSION : Nat := 2
def xrBAD_ENTRY : Nat := 3
def xrSIZE : Nat := 4
def xrTABLE_ACCESS : Nat := 5
def xrNO_CONTEXT : Nat := 6
def xrATS_DISABLED : Nat := 7
def xrPRI_FAILURE : Nat := 8

/-- A request is refused (R320, R329): the client's page records it, and its task fails with XLATE_REFUSED. -/
def State.refuseX (s : State) (slot : Option Nat) (reason : Nat) (w : XWant) : State :=
  let p := pg cATU w.client
  let s1 := (s.count pATU PgATU.PERF2_REFUSED 1).count p PgATC.FAULT_REFUSED 1
  let s2 := ((s1.setFld p PgATC.FAULT_LAST_REASON reason).setFld p PgATC.FAULT_NOSLOT (b2n (slot = none))).setFld p
    PgATC.FAULT_LAST_SLOT (match slot with | some x => x | none => 0)
  let s3 := (s2.setFld p PgATC.LAST_VA_VA w.va).emit (.xlateRefused w.client w.id reason)
  { s3 with atu := { s3.atu with tiles := s3.atu.tiles.filter (fun e =>
      !(e.want.client = w.client && e.want.id = w.id)) } }.taskErr w.task tsXLATE_REFUSED |>.xRefused w.client w.id reason

/-! ### Asking (R303, R305, R314, R316) -/

/-- Sends the ATS request, which waits while the link carries none of the hub's requests (16_host_endpoint.md R507), or starts the device walk of a translation in flight. -/
def State.sendX (s : State) (x : XReq) : State :=
  if !x.device && !s.hostOpen then
    { s with atu := { s.atu with xreqs := s.atu.xreqs.map (fun (y : XReq) =>
        if y.slot = x.slot && y.vpn2 = x.vpn2 then { y with sent := false } else y) } }
  else if x.device then
    let root := match s.ctx x.slot with | some c => c.root | none => 0
    (s.count pATU PgATU.PERF1_WALKS 1).emit (.walk x.slot x.vpn2 root)
  else (s.count pATU PgATU.PERF1_ATS_REQ 1).emit (.atsReq x.slot x.vpn2 x.nw)

/-- Requests for a page ask the host or the tables, or share a translation already in flight (R316). -/
def State.askX (s : State) (slot vpn2 : Nat) (device : Bool) (wants : List XWant) (entry : Option Nat) : State :=
  match s.atu.xreqs.find? (fun x => x.slot = slot && x.vpn2 = vpn2) with
  | some _ =>
    { s with atu := { s.atu with xreqs := s.atu.xreqs.map (fun (x : XReq) =>
        if x.slot = slot && x.vpn2 = vpn2 then
          { x with wants := x.wants ++ wants, entry := match entry with | some e => some e | none => x.entry } else x) } }
  | none =>
    let ew := match s.atu.fq.find? (fun e => some e.idx = entry) with | some e => e.w | none => false
    let x : XReq := { slot := slot, vpn2 := vpn2, device := device, nw := !wants.any (fun w => w.w) && !ew, wants := wants,
                      entry := entry }
    ({ s with atu := { s.atu with xreqs := s.atu.xreqs ++ [x] } } : State).sendX x

/-- The first free number from 0 below a limit. -/
def firstFree (used : List Nat) (k : Nat) : Option Nat := (List.range k).find? (fun i => !used.contains i)

/-- PRG indices busy. -/
def State.prgBusy (s : State) : List Nat := s.atu.prg.map Prod.fst

/-- Page Requests go out for queued HOST entries that are due one, in order of creation, while the outstanding limit allows and the link is up
(R303, R322). -/
def State.sendPrgs (s : State) : State :=
  s.atu.fq.foldl (fun s e =>
    if !e.due || e.prg ≠ none || !s.dlUp then s
    else if min s.host.priAlloc 512 ≤ s.prgBusy.length then s
    else match firstFree s.prgBusy 512 with
      | none => s
      | some g =>
        let pasid := match s.ctx e.slot with | some c => c.pasid | none => 0
        let s1 : State := { s with atu := { s.atu with
            prg := NMap.put s.atu.prg none g (some (some e.idx))
            fq := s.atu.fq.map (fun (f : FqEnt) => if f.idx = e.idx then { f with prg := some g, sent := f.sent + 1, due := false } else f) } }
        (s1.count pATU PgATU.PERF2_PRG_SENT 1).emit (.pageReq g pasid e.vpn2 e.r e.w)) s

/-- The oldest reported entry is presented in FQ_REPORT (R323): software is told when it changes. -/
def State.reported (s : State) : Option FqEnt := s.atu.fq.find? (fun e => e.reported)

/-- A fault goes to the fault queue, or its request is refused (R305, R320, R321, R323). -/
def State.faultX (s : State) (slot reason : Nat) (w : XWant) : State :=
  match s.ctx slot with
  | none => s.refuseX (some slot) xrNO_CONTEXT w
  | some c =>
    let vpn2 := w.va / 2 ^ 21
    if !c.device && (!s.host.priEn || s.atu.priStopped) then s.refuseX (some slot) xrPRI_FAILURE w
    else if c.device && !c.report then s.refuseX (some slot) reason w
    else let s := s.xFaulted w.client w.id
    match s.atu.fq.find? (fun e => e.slot = slot && e.vpn2 = vpn2) with
      | some e =>
        let fits := (!w.r || e.r) && (!w.w || e.w)
        { s with atu := { s.atu with fq := s.atu.fq.map (fun (f : FqEnt) => if f.idx = e.idx then
            (if fits then { f with waiters := f.waiters ++ [w] } else { f with late := f.late ++ [w] }) else f) } }
      | none =>
        match firstFree (s.atu.fq.map FqEnt.idx) 1024 with
        | none => { s with atu := { s.atu with fqWait := s.atu.fqWait ++ [(slot, reason, w)] } }
        | some i =>
          let first := s.reported = none
          let e : FqEnt := { idx := i, slot := slot, vpn2 := vpn2, device := c.device, r := w.r, w := w.w, reason := reason,
                             waiters := [w], reported := c.device, due := !c.device }
          let s1 : State := { s with atu := { s.atu with fq := s.atu.fq ++ [e] } }
          if c.device then (if first then s1.setInt pATU 0 else s1) else s1.sendPrgs

/-- A translation satisfies a request. -/
def Tlb.permits (t : Tlb) (w : XWant) : Bool := (!w.r || t.r) && (!w.w || t.w)

/-- A lookup of a bound context (R305, R314). A cached translation that lacks a permission the request needs is asked for again. -/
def State.lookupX (s : State) (slot : Nat) (c : CtxRec) (w : XWant) : State :=
  let p := pg cATU w.client
  let vpn2 := w.va / 2 ^ 21
  if !c.device && !s.host.atsEn then s.refuseX (some slot) xrATS_DISABLED w
  else match (NMap.getD s.atu.l1 [] w.client).find? (fun t => t.covers slot vpn2 && t.permits w) with
    | some t => ((s.count p PgATC.PERF_L1_HITS 1).l1Put w.client t).grantX slot w t
    | none =>
      let s1 := s.count p PgATC.PERF_L1_MISSES 1
      match s1.l2Find slot vpn2 with
      | some (k, t) =>
        if t.permits w then (((s1.count pATU PgATU.PERF0_L2_HITS 1).l2Touch k).l1Put w.client t).grantX slot w t
        else (s1.count pATU PgATU.PERF0_L2_MISSES 1).askX slot vpn2 c.device [w] none
      | none => (s1.count pATU PgATU.PERF0_L2_MISSES 1).askX slot vpn2 c.device [w] none

/-- A client asks for the translation of a virtual address under a PASID (R314, R320 NO_CONTEXT). -/
def State.translate (s : State) (pasid : Nat) (w : XWant) : State :=
  (match s.ctxOf pasid with
   | none => s.refuseX none xrNO_CONTEXT w
   | some slot => match s.ctx slot with
     | none => s.refuseX none xrNO_CONTEXT w
     | some c => if c.part ≠ w.part || s.atu.draining = some slot then s.refuseX (some slot) xrNO_CONTEXT w
                 else s.lookupX slot c w).atuWork

/-! ### Event rings (22_fault_detection.md R626, R627, R635) -/

/-- The next events of a ring are written, each judged by HEAD and TAIL as it is placed, its address translated for client 83 under the ring's
PASID.
[DEDUCED, log entry 130] -/
def State.ringGo (s : State) (r : Nat) : Nat → State
  | 0 => s
  | fuel + 1 =>
    if s.ringNext r = none || s.xwaits.any (fun w => w.use_ = .ring r) then s
    else if !s.flag pSAF (PgSAF.RING_CFG_EN r) then s.ringDrop r
    else if s.ringFull r then (s.ringLose r).ringGo r fuel
    else
      let pasid := s.fld pSAF (PgSAF.RING_CFG_PASID r)
      let part := if r < 16 then r else match (s.ctxOf pasid).bind s.ctx with | some c => c.part | none => r
      let va := s.ringVa r
      let w : XWait := { client := 83, id := s.nextWait, part := part, pasid := pasid, need := [va / 2 ^ 21], got := [], use_ := .ring r }
      let s1 : State := { s with xwaits := s.xwaits ++ [w], nextWait := s.nextWait + 1 }
      let s2 := s1.translate pasid ⟨83, w.id, none, part, va, false, true⟩
      if s2.saf.ringQ.length < s.saf.ringQ.length then s2.ringGo r fuel else s2

/-- While no command waits, what the rings still owe is written (log entry 1).
[DESIGN CHOICE, log entry 1] -/
def State.ringsGo (s : State) : State := (List.range 17).foldl (fun s r => s.ringGo r (s.saf.ringQ.length + 1)) s

/-- Cached translations of a page whose parity fails (09_memory_integrity.md R268), at a client or in level 2: each is counted as corrected, logged
under structure 4 and invalidated, so that the lookup goes on without it. -/
def State.tlbParity (s : State) (client pasid va level : Nat) : State :=
  match s.ctxOf pasid with
  | none => s
  | some slot =>
    let vpn2 := va / 2 ^ 21
    let hit (t : Tlb) : Bool := t.covers slot vpn2
    if level = 1 then
      let ts := NMap.getD s.atu.l1 [] client
      if !ts.any hit then s
      else ({ s with atu := { s.atu with l1 := NMap.put s.atu.l1 [] client (ts.filter (fun t => !hit t)) } } : State).arrayErr (pg cATU client) 2 31 5
        (4 <<< 24 + client * 32 + (ts.takeWhile (fun t => !hit t)).length) ceCORRECTED 31
    else if level = 2 then
      match s.l2Find slot vpn2 with
      | none => s
      | some (k, _) => ({ s with atu := { s.atu with l2 := NMap.put s.atu.l2 none k none } } : State).arrayErr pATU 2 31 5 (4 <<< 24 + k) ceCORRECTED 31
    else s

/-- `parity`: the level of the cache whose entry fails its parity as it is looked up (0: none). -/
def execTranslate (client id : Nat) (task : Option TaskId) (part pasid va : Nat) (rd wr : Bool) (parity : Nat) (s : State) :
    Outcome State Fault Refusal :=
  if client = 0 || 86 < client then .next s
  else .next ((s.tlbParity client pasid va parity).translate pasid ⟨client, id, task, part, va % 2 ^ 64, rd, wr⟩)

/-! ### Results (R304, R308, R317, R322) -/

/-- A fault-queue entry ends: it is freed, and a fault that waited for a free entry takes one. -/
def State.fqFree (s : State) (i : Nat) : State :=
  let was := s.reported
  let s1 : State := { s with atu := { s.atu with fq := s.atu.fq.filter (fun e => e.idx ≠ i) } }
  let s2 := match s1.atu.fqWait with
    | [] => s1
    | (slot, reason, w) :: rest => ({ s1 with atu := { s1.atu with fqWait := rest } } : State).faultX slot reason w
  let s3 := s2.sendPrgs
  if s3.reported ≠ none && s3.reported ≠ was then s3.setInt pATU 0 else s3

/-- An entry's waiters are refused and it is freed; faults its intent did not cover are looked up again (R321). -/
def State.fqRefuse (s : State) (e : FqEnt) (reason : Nat) : State :=
  let s1 := e.waiters.foldl (fun s w => s.refuseX (some e.slot) reason w) s
  let s2 := s1.fqFree e.idx
  match s2.ctx e.slot with
  | some c => e.late.foldl (fun s w => s.lookupX e.slot c w) s2
  | none => e.late.foldl (fun s w => s.refuseX none xrNO_CONTEXT w) s2

/-- A translation is cached at both levels and given to those it satisfies; the others fault (R314). -/
def State.giveX (s : State) (x : XReq) (part : Nat) (t : Tlb) : State :=
  let s1 := s.l2Fill part x.vpn2 t
  x.wants.foldl (fun s w =>
    if t.permits w then (s.l1Put w.client t).grantX x.slot w t
    else if x.nw && w.w then s.askX x.slot x.vpn2 x.device [w] none
    else s.faultX x.slot xrPERMISSION w) s1

/-- What a fault-queue entry does with the repeated translation of its page (R322, R323). -/
def State.fqResult (s : State) (i : Nat) (part : Nat) (t : Option Tlb) (reason : Nat) : State :=
  match s.atu.fq.find? (fun e => e.idx = i) with
  | none => s
  | some e =>
    let ok := match t with | some t => (!e.r || t.r) && (!e.w || t.w) | none => false
    if ok then
      match t with
      | some t =>
        let s1 := e.waiters.foldl (fun s w => (s.l1Put w.client t).grantX e.slot w t) (s.l2Fill part e.vpn2 t)
        let s2 := s1.fqFree i
        (match s2.ctx e.slot with
         | some c => e.late.foldl (fun s w => s.lookupX e.slot c w) s2
         | none => s2)
      | none => s
    else if e.device then
      let s1 : State := { s with atu := { s.atu with fq := s.atu.fq.map (fun (f : FqEnt) =>
          if f.idx = i then { f with reported := true, reason := reason } else f) } }
      if s.reported = none then s1.setInt pATU 0 else s1
    else if e.sent < 2 then
      ({ s with atu := { s.atu with fq := s.atu.fq.map (fun (f : FqEnt) => if f.idx = i then { f with due := true } else f) } } : State).sendPrgs
    else s.fqRefuse e xrPRI_FAILURE

/-- A lookup that an invalidation overtook is repeated (R305, R317, R319), for those who wait and for the fault-queue entry it follows. -/
def State.repeatX (s : State) (x : XReq) : State :=
  match s.ctx x.slot with
  | none =>
    let s1 := x.wants.foldl (fun s w => s.refuseX none xrNO_CONTEXT w) s
    (match s1.atu.fq.find? (fun e => some e.idx = x.entry) with
     | some e => s1.fqRefuse e xrNO_CONTEXT
     | none => s1)
  | some c =>
    let s1 := x.wants.foldl (fun s w => s.lookupX x.slot c w) s
    match s1.atu.fq.find? (fun e => some e.idx = x.entry) with
    | some e => if !c.device && !s1.host.atsEn then s1.fqRefuse e xrATS_DISABLED else s1.askX x.slot x.vpn2 x.device [] x.entry
    | none => s1

/-- A translation in flight ends: with a translation, with a fault (NOT_PRESENT, PERMISSION), or refused at once. One that an
invalidation overtook is asked for again (R317, R319). -/
def State.endX (s : State) (x : XReq) (t : Option Tlb) (reason : Nat) : State :=
  let s1 : State := { s with atu := { s.atu with xreqs := s.atu.xreqs.filter (fun y => !(y.slot = x.slot && y.vpn2 = x.vpn2)) } }
  if x.stale then s1.repeatX x
  else
    let part := match s.ctx x.slot with | some c => c.part | none => 0
    let s2 := match t with
      | some t => s1.giveX x part t
      | none => x.wants.foldl (fun s w =>
          if reason = xrNOT_PRESENT || reason = xrPERMISSION then s.faultX x.slot reason w
          else s.refuseX (some x.slot) reason w) s1
    match x.entry with
    | none => s2
    | some i =>
      if t = none && reason ≠ xrNOT_PRESENT && reason ≠ xrPERMISSION then
        (match s2.atu.fq.find? (fun e => e.idx = i) with
         | some e => s2.fqRefuse e reason
         | none => s2)
      else s2.fqResult i part t reason

def State.xreq? (s : State) (slot vpn2 : Nat) (device : Bool) : Option XReq :=
  s.atu.xreqs.find? (fun x => x.slot = slot && x.vpn2 = vpn2 && x.device = device)

/-- An ATS Translation Completion (R304): 2 MiB or 1 GiB as they stand, sizes between as the 2 MiB asked for, larger as the 1 GiB
that holds the request, smaller refused with SIZE. -/
def State.atsCompletion (s : State) (x : XReq) (rd wr : Bool) (sizeLog addr : Nat) (u : Bool) : State :=
  if !rd && !wr then s.endX x none xrNOT_PRESENT
  else if sizeLog < 21 then s.endX x none xrSIZE
  else
    let va := x.vpn2 * 2 ^ 21
    let big := decide (30 ≤ sizeLog)
    let size := if big then 2 ^ 30 else 2 ^ 21
    let base := (addr - addr % 2 ^ sizeLog + va % 2 ^ sizeLog) / size * size
    s.endX x (some ⟨x.slot, big, va / size, base, rd, wr, false, u⟩) 0

def execAtsCompletion (slot vpn2 : Nat) (rd wr : Bool) (sizeLog addr : Nat) (u : Bool) (s : State) : Outcome State Fault Refusal :=
  match s.xreq? slot vpn2 false with
  | none => .next s
  | some x => .next (s.atsCompletion x rd wr sizeLog addr u).atuWork

/-- A table entry as the walker reads it, coherent through its home, as a read by the context's partition (R308): `none` where R246 refuses it
or it is poisoned; one that only a site holds, as the site answers.
[DESIGN CHOICE, log entry 6] -/
def State.walkEntry (s : State) (part a : Nat) (given : Option Nat) : Option Nat :=
  match s.peekAt part (.dpa a) 8 with
  | none => given
  | some none => none
  | some (some (b, bad)) => if bad then none else some (leNat b)

/-- A device walk from a table of a level on (R306-R308): a leaf or a reason. -/
def State.walkTables (s : State) (slot part vpn2 : Nat) : Nat → Nat → Bool → Bool → List (Option Nat) → Tlb ⊕ Nat
  | 0, _, _, _, _ => .inr xrBAD_ENTRY
  | k + 1, table, r, w, given =>
    match s.walkEntry part (table + 8 * (vpn2 / 512 ^ k % 512)) (given.headD none) with
    | none => .inr xrTABLE_ACCESS
    | some e =>
      let leaf := natBit e 1
      let adr := natBits e 51 12 <<< 12
      let r1 := r && natBit e 2
      let w1 := w && natBit e 3
      if !natBit e 0 then .inr xrNOT_PRESENT
      else if natBits e 11 5 ≠ 0 || (k = 2 && leaf) || (k = 0 && !leaf) then .inr xrBAD_ENTRY
      else if leaf then
        if k = 1 then
          (if natBits e 29 12 ≠ 0 then .inr xrBAD_ENTRY else .inl ⟨slot, true, vpn2 / 512, adr, r1, w1, natBit e 4, false⟩)
        else (if natBits e 20 12 ≠ 0 then .inr xrBAD_ENTRY else .inl ⟨slot, false, vpn2, adr, r1, w1, natBit e 4, false⟩)
      else if 2 ^ 47 ≤ adr then .inr xrBAD_ENTRY
      else s.walkTables slot part vpn2 k adr r1 w1 (given.drop 1)

/-- A device walk ends (R308): from ROOT, at level 3. A leaf without a permission a request needs is that request's PERMISSION fault. `entries`:
by level, what a site answers for entries that only it holds. -/
def State.walkDone (s : State) (x : XReq) (entries : List (Option Nat)) : State :=
  match s.ctx x.slot with
  | none => s.endX x none xrNO_CONTEXT
  | some c => match s.walkTables x.slot c.part x.vpn2 3 c.root true true entries with
    | .inl t => s.endX x (some t) xrPERMISSION
    | .inr reason => s.endX x none reason

def execDeviceWalkDone (slot vpn2 : Nat) (entries : List (Option Nat)) (s : State) : Outcome State Fault Refusal :=
  match s.xreq? slot vpn2 true with
  | none => .next s
  | some x => .next (s.walkDone x entries).atuWork

/-- Frees a PRG index. -/
def State.prgFree (s : State) (g : Nat) : State := { s with atu := { s.atu with prg := NMap.erase s.atu.prg g } }

/-- PRI stops (R324): every queued HOST entry is refused. -/
def State.priStop (s : State) : State :=
  let s1 := { s with atu := { s.atu with priStopped := true } }.setInt pATU 1
  (s1.atu.fq.filter (fun e => !e.device)).foldl (fun s e => s.fqRefuse e xrPRI_FAILURE) s1

/-- A PRG Response: 0 Success, 1 Invalid Request, any other Response Failure (R322). -/
def State.prgResponse (s : State) (g code : Nat) : State :=
  match NMap.getD s.atu.prg none g with
  | none => s
  | some owner =>
    let s1 := s.prgFree g
    let ent : Option FqEnt := match owner with | some i => s1.atu.fq.find? (fun (e : FqEnt) => e.idx = i) | none => none
    match ent with
    | none => if 2 ≤ code then s1.priStop else s1.sendPrgs
    | some e =>
      let s2 : State := { s1 with atu := { s1.atu with fq := s1.atu.fq.map (fun (f : FqEnt) =>
          if f.idx = e.idx then { f with prg := none } else f) } }
      if code = 0 then (if s2.host.atsEn then s2.askX e.slot e.vpn2 false [] (some e.idx) else s2.fqRefuse e xrATS_DISABLED).sendPrgs
      else if code = 1 then s2.fqRefuse e xrPRI_FAILURE
      else s2.priStop

def execPrgResponse (prg code : Nat) (s : State) : Outcome State Fault Refusal := .next (s.prgResponse prg code).atuWork

/-- PRI_TIMEOUT_MS passes (R322, R323): the waiters are refused; the PRG index stays busy until its response. -/
def State.priTimeout (s : State) (e : FqEnt) : State :=
  let s1 := match e.prg with
    | some g => { s with atu := { s.atu with prg := NMap.put s.atu.prg none g (some none) } }
    | none => s
  s1.fqRefuse e xrPRI_FAILURE

def execPriTimeout (entry : Nat) (s : State) : Outcome State Fault Refusal :=
  match s.atu.fq.find? (fun e => e.idx = entry && (e.prg ≠ none || e.reported)) with
  | none => .next s
  | some e => .next (s.priTimeout e).atuWork

/-! ### Answers to reported faults (R323) -/

/-- A write of FQ_CMD: only an entry that awaits an answer may be named. -/
def State.fqCmd (s : State) (r : Requester) (entry : Nat) (f : FqEnt → State → State) : State :=
  s.gateBlk r cATU 0 0x138 (fun p s =>
    match s.atu.fq.find? (fun e => e.idx = entry && e.reported) with
    | none => s.order p r 0x138
    | some e => (f e s).atuWork)

def State.fqRetry (s : State) (e : FqEnt) : State :=
  let s1 : State := { s with atu := { s.atu with fq := s.atu.fq.map (fun (f : FqEnt) =>
      if f.idx = e.idx then { f with reported := false } else f) } }
  let s2 := s1.askX e.slot e.vpn2 true [] (some e.idx)
  if s2.reported ≠ none then s2.setInt pATU 0 else s2

def execFqRetry (r : Requester) (entry : Nat) (s : State) : Outcome State Fault Refusal :=
  .next (s.fqCmd r entry (fun e s => s.fqRetry e))

def execFqFail (r : Requester) (entry : Nat) (s : State) : Outcome State Fault Refusal :=
  .next (s.fqCmd r entry (fun e s => s.fqRefuse e xrPRI_FAILURE))

/-! ### Invalidation (R317-R319, R327) -/

/-- A site that holds translations an invalidation removes is sent XlateInv, by PASID and range (13_chiplet_sites.md R408), from the
core services (01_anatomy.md R19: edge router 437). -/
def State.siteInv (s : State) (key : Option Nat) (x : Nat) (hit : Tlb → Bool) (vpn2 count : Nat) : State :=
  let st := s.siteSt x
  let lost := st.handed.filter (fun e => hit e.2)
  let s1 := s.setSite x { st with handed := st.handed.filter (fun e => !hit e.2) }
  ((lost.map (fun e => e.2.slot)).eraseDups).foldl (fun s slot =>
    match s.nearChan x (edgeAttach 437), s.ctx slot with
    | some c, some cx =>
      let st := s.siteSt x
      let tag := st.nextInv % 65536
      ((s.setSite x { st with invs := st.invs ++ [(tag, key, c)], nextInv := st.nextInv + 1 }).aspSend x c
        { op := 0x26, tag := tag, pasid := cx.pasid, addr := vpn2 * 2 ^ 21, arg64 := min count (2 ^ 19 - 1)
          arg8 := b2n (decide (2 ^ 19 ≤ count)) }).siteWork x
    | _, _ => s) s1

/-- An access being gathered that reads under a slot a test names: a copy's piece, a read of a site of its partition, an inbound
RDMA read or atomic.
[DEDUCED, log entry 241] -/
def State.joinUnder (s : State) (slots : Nat → Bool) (k : JoinKind) : Bool :=
  let under (pasid : Nat) : Bool := match s.ctxOf pasid with | some n => slots n | none => false
  match k with
  | .copyIn c => s.dsp.copies.any (fun x => x.id = c && under x.pasid)
  | .asp x _ _ op => op = 0x43 && s.atu.ctx.any (fun e => slots e.1 && (match e.2 with
      | some c => (List.range 8).any (fun f => s.funcPart x f = c.part)
      | none => false))
  | .rdma q kind _ => (kind = 1 || kind = 3) && under (s.qp q).ctx.pasid
  | _ => false

/-- Non-posted requests of the host link under translations a test names (R317): translated ones by page, untranslated ones by PASID.
[DEDUCED, log entry 241] -/
def State.readsUnder (s : State) (slots : Nat → Bool) (hit : Tlb → Bool) : List HostReq :=
  let gone := (s.atu.l1.flatMap (fun e => e.2) ++ s.atu.l2.filterMap (fun e => e.2) ++ s.atu.tiles.filterMap (fun e => e.tr)).filter hit
  (s.host.reads.filter (fun q =>
    if q.untranslated then (match s.ctxOf q.pasid with | some n => slots n | none => false)
    else gone.any (fun t => decide (t.base ≤ q.addr) && decide (q.addr < t.base + (if t.big then 2 ^ 30 else 2 ^ 21))))).map (fun q => { q with id := 0 })

/-- An invalidation's requests are not all complete (R317 step 3).
[DEDUCED, log entry 241] -/
def State.invOpen (s : State) (key : Option Nat) : Bool :=
  s.atu.invReads.any (fun e => e.1 = key && (s.host.reads.any (fun q => e.2.1.contains { q with id := 0 }) || s.joins.any (fun j => e.2.2.contains j.id)))

/-- An invalidation (its tag; none: INV_CMD) removes translations of pages from `vpn2` on, under slots that satisfy a test: from the caches, from tile tables (whose engines
resolve them again), and translations in flight are not to be cached.
[DEDUCED, log entry 241] -/
def State.invalidate (s : State) (key : Option Nat) (slots : Nat → Bool) (vpn2 count : Nat) : State :=
  let hit (t : Tlb) : Bool := slots t.slot &&
    (if t.big then decide (t.vpn * 512 < vpn2 + count) && decide (vpn2 < (t.vpn + 1) * 512)
     else decide (vpn2 ≤ t.vpn) && decide (t.vpn < vpn2 + count))
  let s1 := (List.range 4).foldl (fun s x => s.siteInv key x hit vpn2 count) (s.tlbDrop hit)
  let lost := s1.atu.tiles.filter (fun e => match e.tr with | some t => hit t | none => false)
  let s2 : State := { s1 with atu := { s1.atu with
      tiles := s1.atu.tiles.map (fun (e : TileEnt) => match e.tr with | some t => if hit t then { e with tr := none } else e | none => e)
      xreqs := s1.atu.xreqs.map (fun (x : XReq) =>
        if slots x.slot && vpn2 ≤ x.vpn2 && x.vpn2 < vpn2 + count then { x with stale := true } else x)
      invReads := if key = some (2 ^ 32) then s1.atu.invReads else s1.atu.invReads ++ [(key, s.readsUnder slots hit, (s.joins.filter (fun j => s.joinUnder slots j.kind)).map (fun j => j.id))] } }
  lost.foldl (fun s e => match s.ctx e.slot with
    | some c => s.lookupX e.slot c e.want
    | none => s.refuseX none xrNO_CONTEXT e.want) s2

/-- Slots of HOST contexts an ATS Invalidate Request names: a PASID, or every one (Global). -/
def State.hostSlots (s : State) (pasid : Option Nat) (slot : Nat) : Bool :=
  match s.ctx slot with
  | some c => !c.device && (match pasid with | some p => c.pasid = p | none => true)
  | none => false

/-- Takes up an invalidation. -/
def State.takeInv (s : State) (tag : Nat) (pasid : Option Nat) (vpn2 count : Nat) : State :=
  let s1 : State := { s with atu := { s.atu with invs := s.atu.invs ++ [tag] } }
  s1.invalidate (some tag) (s.hostSlots pasid) vpn2 count

/-- An ATS Invalidate Request: beyond 32 in progress it waits in the receive buffer (R318). -/
def execAtsInvalidate (tag : Nat) (pasid : Option Nat) (vpn2 count : Nat) (s : State) : Outcome State Fault Refusal :=
  if 32 ≤ s.atu.invs.length then
    .next { s with atu := { s.atu with invWait := s.atu.invWait ++ [(tag, pasid, vpn2, count)] } }
  else .next (s.takeInv tag pasid vpn2 count).atuWork

/-- The requests issued under the removed translations have completed (R317 step 3, R319): the Invalidation Completion is sent, or
INV_CMD ends. -/
def State.invFinish (s0 : State) (tag : Option Nat) : State :=
  let s : State := { s0 with atu := { s0.atu with invReads := s0.atu.invReads.filter (fun e => e.1 ≠ tag) } }
  match tag with
  | none =>
    if !s.atu.invCmd then s
    else (({ s with atu := { s.atu with invCmd := false } }.setFld pATU PgATU.INV_CMD_BUSY 0).setFld pATU PgATU.INV_CMD_RESULT 0).setInt pATU 3
  | some t =>
    if !s.atu.invs.contains t then s
    else
      let s1 := ({ s with atu := { s.atu with invs := s.atu.invs.erase t } } : State).emit (.invCpl t)
      match s1.atu.invWait with
      | [] => s1
      | (g, p, v, c) :: rest => ({ s1 with atu := { s1.atu with invWait := rest } } : State).takeInv g p v c

/-- No site still owes an XlateInvDone for an invalidation (13_chiplet_sites.md R408). -/
def State.sitesOwe (s : State) (tag : Option Nat) : Bool := s.site.any (fun e => e.2.invs.any (fun i => i.2.1 = tag))

/-- An invalidation completes once its requests have, and every site has confirmed. -/
def State.invDone (s : State) (tag : Option Nat) : State :=
  if s.sitesOwe tag then
    { s with atu := { s.atu with invReady := if s.atu.invReady.contains tag then s.atu.invReady else s.atu.invReady ++ [tag] } }
  else ({ s with atu := { s.atu with invReady := s.atu.invReady.erase tag } } : State).invFinish tag

/-- A site's XlateInv with a TAG ends; the last one lets a waiting invalidation complete. -/
def State.siteInvEnd (s : State) (x tag : Nat) : State :=
  let st := s.siteSt x
  match st.invs.find? (fun i => i.1 = tag) with
  | none => s
  | some i =>
    let s1 := s.setSite x { st with invs := st.invs.filter (fun j => j.1 ≠ tag) }
    if s1.atu.invReady.contains i.2.1 && !s1.sitesOwe i.2.1 then (s1.invDone i.2.1).siteWork x else s1.siteWork x

/-- The requests under an invalidation's translations have completed: nothing, while one is still out. -/
def execInvalidationComplete (tag : Option Nat) (s : State) : Outcome State Fault Refusal :=
  if s.invOpen tag then .next s else .next (s.invDone tag).atuWork

/-- A write of INV_CMD (R319, R328): refused while one runs; a refusal completes with its result. -/
def State.invCmdWrite (s : State) (r : Requester) (slot : Nat) (range : Bool) : State :=
  s.gateBlk r cATU 0 0x120 (fun p s =>
    if s.atu.invCmd then s.order p r 0x120
    else
      let s0 := s.setFld p PgATU.INV_CMD_SLOT slot
      let slot := slot % 4096
      let v := s.fld p PgATU.INV_ARG_VPN2
      let c := s.fld p PgATU.INV_ARG_COUNT
      let fail (code : Nat) := (s0.setFld p PgATU.INV_CMD_RESULT code).setInt p 3
      match s.ctx slot with
      | none => fail 2
      | some x =>
        if !x.device then fail 4
        else if range && (c = 0 || 262144 < c || 2 ^ 27 < v + c) then fail 4
        else
          let s1 := if range then s0.invalidate none (fun k => k = slot) v c else s0.invalidate none (fun k => k = slot) 0 (2 ^ 43)
          ({ s1 with atu := { s1.atu with invCmd := true } }.setFld p PgATU.INV_CMD_BUSY 1).atuWork)

def execInvRange (r : Requester) (slot : Nat) (s : State) : Outcome State Fault Refusal := .next (s.invCmdWrite r slot true)
def execInvContext (r : Requester) (slot : Nat) (s : State) : Outcome State Fault Refusal := .next (s.invCmdWrite r slot false)

/-- Clearing ATS Enable (R305, R330): every HOST translation goes; tiles that hold one end with XLATE_REFUSED. -/
def State.atsOff (s : State) : State :=
  let s1 := { s with host := { s.host with atsEn := false } }
  (s1.invalidate (some (2 ^ 32)) (s1.hostSlots none) 0 (2 ^ 43)).atuWork

def execAtsEnableClear (s : State) : Outcome State Fault Refusal := .next s.atsOff

/-- Clearing and setting PRI Enable (R324): PRI leaves the stopped state, and every PRG index is free. Entries whose index is lost
are refused. -/
def State.priCycle (s : State) : State :=
  let lost := s.atu.fq.filter (fun e => e.prg ≠ none)
  let s1 := lost.foldl (fun s e => s.fqRefuse e xrPRI_FAILURE) s
  { s1 with atu := { s1.atu with prg := [], priStopped := false }
            host := { s1.host with priEn := true } }.sendPrgs.atuWork

def execPriEnableCycle (s : State) : Outcome State Fault Refusal := .next s.priCycle

/-- A write of 1 to CTRL.FLUSH of a client (R329): its level-1 cache is empty. -/
def execL1Flush (r : Requester) (client : Nat) (s : State) : Outcome State Fault Refusal :=
  if client = 0 || 86 < client then .next s
  else .next (s.gateBlk r cATU client 0x118 (fun _ s =>
    { s with atu := { s.atu with l1 := NMap.erase s.atu.l1 client } }))

/-! ### Context commands (R301) -/

/-- A write of CTX_CMD.OP: ignored, with ORDER, while a command runs; else SLOT is stored and the command starts. -/
def State.ctxCmd (s : State) (r : Requester) (slot : Nat) (f : State → State) : State :=
  s.gateBlk r cATU 0 0x108 (fun p s =>
    if s.flag p PgATU.CTX_CMD_BUSY then s.order p r 0x108
    else (f (s.setFld p PgATU.CTX_CMD_SLOT slot)).atuWork)

/-- A context command ends with a result. -/
def State.ctxDone (s : State) (result : Nat) : State :=
  ((s.setFld pATU PgATU.CTX_CMD_BUSY 0).setFld pATU PgATU.CTX_CMD_RESULT result).setInt pATU 2

/-- BIND (R301): the lowest code that applies, else the slot is bound. -/
def State.ctxBind (s : State) (slot : Nat) : State :=
  let pasid := s.fld pATU PgATU.CTX_ARG1_PASID
  let part := s.fld pATU PgATU.CTX_ARG1_PART
  let device := s.flag pATU PgATU.CTX_ARG1_KIND
  let root := s.fld pATU PgATU.CTX_ARG0_ROOT
  if s.ctx slot ≠ none || s.ctxOf pasid ≠ none then s.ctxDone 1
  else if s.fld (pg cPRT part) PgPRT.ATU_QUOTA_CTX_LIMIT ≤ s.ctxCount part then s.ctxDone 3
  else if (if device then root % 4096 ≠ 0 || decide (s.granuleCount ≤ root / 0x200000) || !s.gOwned (root / 0x200000) part
           else root ≠ 0) then s.ctxDone 4
  else (s.setCtx slot (some ⟨pasid, part, device, s.flag pATU PgATU.CTX_ARG1_REPORT, root⟩)).ctxDone 0

def execCtxBind (r : Requester) (slot : Nat) (s : State) : Outcome State Fault Refusal :=
  .next (s.ctxCmd r slot (fun s => s.ctxBind (slot % 4096)))

/-- Every request of the slot is gone (R301): the slot is freed. -/
def execUnbindDrained (slot : Nat) (s : State) : Outcome State Fault Refusal :=
  if s.atu.draining = some slot then
    .next (({ s with atu := { s.atu with draining := none } } : State).setCtx slot none |>.ctxDone 0).atuWork
  else .next s

/-- QUERY (R301). -/
def State.ctxQuery (s : State) (slot : Nat) : State :=
  match s.ctx slot with
  | none => (s.setFld pATU PgATU.CTX_ARG1_VALID 0).ctxDone 2
  | some c =>
    ((((((s.setFld pATU PgATU.CTX_ARG0_ROOT c.root).setFld pATU PgATU.CTX_ARG1_VALID 1).setFld pATU PgATU.CTX_ARG1_KIND
      (b2n c.device)).setFld pATU PgATU.CTX_ARG1_REPORT (b2n c.report)).setFld pATU PgATU.CTX_ARG1_PART c.part).setFld pATU
      PgATU.CTX_ARG1_PASID c.pasid).ctxDone 0

def execCtxQuery (r : Requester) (slot : Nat) (s : State) : Outcome State Fault Refusal :=
  .next (s.ctxCmd r slot (fun s => s.ctxQuery (slot % 4096)))

/-- FIND (R301). -/
def State.ctxFind (s : State) : State :=
  match s.ctxOf (s.fld pATU PgATU.CTX_ARG1_PASID) with
  | some k => (s.setFld pATU PgATU.CTX_CMD_SLOT k).ctxDone 0
  | none => s.ctxDone 2

def execCtxFind (r : Requester) (slot : Nat) (s : State) : Outcome State Fault Refusal :=
  .next (s.ctxCmd r slot (fun s => s.ctxFind))

/-! ### Resets (R302) -/

/-- A partition reset (R302): cached translations of its contexts go, their faults are dropped with their tasks, PRG indices that await
the host stay busy. -/
def State.atuPartReset (s : State) (p : Nat) : State :=
  let mine (slot : Nat) : Bool := match s.ctx slot with | some c => c.part = p | none => false
  let s1 := s.tlbDrop (fun t => mine t.slot)
  let u := s1.atu
  let gone : List Nat := (u.fq.filter (fun (e : FqEnt) => mine e.slot)).map (fun (e : FqEnt) => e.idx)
  let u1 : AtuSt := { u with
    fq := u.fq.filter (fun (e : FqEnt) => !gone.contains e.idx)
    fqWait := u.fqWait.filter (fun x => !mine x.1)
    xreqs := u.xreqs.filter (fun (x : XReq) => !mine x.slot)
    tiles := u.tiles.filter (fun (e : TileEnt) => !mine e.slot)
    prg := u.prg.map (fun e => match e.2 with
      | some (some i) => if gone.contains i then (e.1, some none) else e
      | _ => e) }
  let s2 := ({ s1 with atu := u1 } : State).sendPrgs
  (if s2.reported ≠ none && s2.reported ≠ s.reported then s2.setInt pATU 0 else s2).atuWork

/-- A host-loss reset, device warm reset or cold start unbinds every context (R302) and empties every cache. -/
def State.atuClear (s : State) : State := { s with atu := {} }

end Sys2Proof.Machine
end

