-- ==== Sys2Proof/Machine/Copy.lean ====
section
/-! DEFINITION. Copies of the DMA engines and of itinerary stages (06_task_graphs.md R171, R177; 08_memory_tiers.md R261;
10_address_translation.md R325-R327): regions are resolved first, then pieces are read and written in order, poison with them. -/
namespace Sys2Proof.Machine

/-! ### Regions (R325, R326) -/

/-- Distinct 2 MiB pages that `n` rows of `len` bytes touch, in order, from page `next` on. -/
def regionPages (stride len : Nat) : Nat → Nat → Nat → List Nat
  | 0, _, _ => []
  | n + 1, a, next =>
    let lo := max next (a / 2 ^ 21)
    let hi := (a + len - 1) / 2 ^ 21
    (List.range (hi + 1 - lo)).map (lo + ·) ++ regionPages stride len n (a + stride) (max next (hi + 1))

/-- The regions of a copy: object address of each page, written or only read. -/
def CopyRun.regions (c : CopyRun) : List (Nat × Bool) :=
  let side (a stride : Nat) (w : Bool) : List (Nat × Bool) :=
    (regionPages stride c.rowBytes c.rows (a % 2 ^ 57) 0).map (fun k => (a / 2 ^ 62 * 2 ^ 62 + k * 2 ^ 21, w))
  side c.src c.srcStride false ++ (if c.fill then [] else side c.dst c.dstStride true)

/-- A region of SPACE 1 or 2 passes its window and R246. -/
def State.regionFree (s : State) (c : CopyRun) (g : Nat × Bool) : Bool :=
  match s.objWindow c.part g.1 with
  | some (.dpa x) => s.locateDpa ⟨0, c.tol, c.part, none, .dpa x, 64, c.cls, 0, false, none, false⟩ g.2 x ≠ .refuse
  | some _ => true
  | none => false

/-- The tile entry of a region of a copy. -/
def State.copyTile (s : State) (c : CopyRun) (page : Nat) (w : Bool) : Option TileEnt :=
  s.atu.tiles.find? (fun e => e.want.client = c.client && e.want.id / 128 = c.id && e.want.va / 2 ^ 21 = page && e.want.w = w)

/-- The task a copy is for. -/
def CopyRun.task (c : CopyRun) : Option TaskId := match c.for_ with | .move t => some t | .stage .. => none

/-- A copy begins (R325, R326): ACCESS where a window or R246 refuses a region, else its virtual regions are asked for, all at once. -/
def State.copyOpen (s : State) (c0 : CopyRun) : State :=
  let c := { c0 with id := s.dsp.nextCopy }
  let rs := c.regions
  let bad := rs.any (fun g => g.1 / 2 ^ 62 ≠ 0 && !s.regionFree c g)
  let s1 : State := { s with dsp := { s.dsp with nextCopy := s.dsp.nextCopy + 1
                                                 copies := s.dsp.copies ++ [if bad then { c with ended := true, status := tsACCESS } else c] } }
  if bad then s1.taskErr c.task tsACCESS
  else ((List.range rs.length).zip rs).foldl (fun s x =>
    if x.2.1 / 2 ^ 62 ≠ 0 then s
    else s.translate c.pasid { client := c.client, id := c.id * 128 + x.1, task := c.task, part := c.part, va := x.2.1, r := !x.2.2, w := x.2.2 }) s1

/-- Every virtual region of a copy has its translation. -/
def State.copyReady (s : State) (c : CopyRun) : Bool :=
  c.regions.all (fun g => g.1 / 2 ^ 62 ≠ 0 || (match s.copyTile c (g.1 / 2 ^ 21) g.2 with | some e => e.tr.isSome | none => false))

/-- The place of an object address of a copy: `none` while its translation is resolved again (R327), `some none` outside the windows. -/
def State.copyAddr (s : State) (c : CopyRun) (o : Nat) (w : Bool) : Option (Option Addr) :=
  if o / 2 ^ 62 = 0 then
    match s.copyTile c (o / 2 ^ 21) w with
    | none => none
    | some e => e.tr.map (fun t =>
        let dev := match s.ctx e.slot with | some x => x.device | none => false
        some (match t.page dev c.pasid (o / 2 ^ 21) with
          | .dpa b => Addr.dpa (b + o % 2 ^ 21) | .hpa b => Addr.hpa (b + o % 2 ^ 21) | .hva q b => Addr.hva q (b + o % 2 ^ 21)
          | .t0 b => Addr.t0 (b + o % 2 ^ 21)))
  else some (s.objWindow c.part o)

/-! ### Pieces -/

/-- Object addresses of the next piece. -/
def CopyRun.srcAt (c : CopyRun) : Nat := c.src / 2 ^ 62 * 2 ^ 62 + (c.src % 2 ^ 57 + c.row * c.srcStride + c.pos) % 2 ^ 57
def CopyRun.dstAt (c : CopyRun) : Nat := c.dst / 2 ^ 62 * 2 ^ 62 + (c.dst % 2 ^ 57 + c.row * c.dstStride + c.pos) % 2 ^ 57

/-- Source and destination lie alike in their lines. -/
def CopyRun.alike (c : CopyRun) : Bool := c.fill || c.srcAt % 64 = c.dstAt % 64

/-- Bytes of the next piece: to the end of its source line, or sector where the destination lies otherwise. -/
def CopyRun.pieceLen (c : CopyRun) : Nat :=
  min (c.rowBytes - c.pos) (if c.alike then 64 - c.srcAt % 64 else 32 - c.srcAt % 32)

/-- A copy ends with a status. -/
def State.copyStop (s : State) (c : CopyRun) (status : Nat) : State :=
  (s.putCopy { c with ended := true, status := status }).taskErr c.task status

/-- A line a T1 stage leaves alone (08_memory_tiers.md R261): cached already, without cache ways at its home, or with no home here. -/
def State.fillSkips (s : State) (c : CopyRun) (a : Addr) : Bool :=
  match s.locate ⟨0, c.tol, c.part, none, a, 64, c.cls, 0, false, none, false⟩ false with
  | .home n line part unc _ => s.findLine n line ≠ none || !s.cacheable n part unc
  | .refuse => false
  | .lost .. => false
  | _ => true

/-- The writes of a piece: by the lines of its destination, each with the poison of its sectors (09_memory_integrity.md R279). -/
def State.copyParts (s : State) (c : CopyRun) (data : List Byte) (pois : Nat) : Option (Option (List Part)) :=
  (s.copyAddr c c.dstAt true).bind (fun _ =>
    let cuts := (cutsOf c.dstAt data.length).map (fun x =>
      (s.copyAddr c (c.dstAt + x.1) true).map (fun a => a.map (fun a =>
        ({ addr := a, len := x.2, op := .write ((data.drop x.1).take x.2) (if c.alike then pois else if pois = 0 then 0 else 3) } : Part))))
    (cuts.mapM id).map (fun l => l.mapM id))

/-- The next thing a copy does: it starts once its regions are resolved, reads a piece, writes one, or ends after its last row. -/
def State.copyStep (s : State) (c : CopyRun) : Option State :=
  if c.ended || c.busy then none
  else if !c.going then (if s.copyReady c then some (s.putCopy { c with going := true }) else none)
  else match c.piece with
    | some (data, pois) =>
      (match s.copyParts c data pois with
       | none => none
       | some none => some (s.copyStop c tsACCESS)
       | some (some ps) => some ((s.putCopy { c with busy := true }).serveParts (.copyOut c.id) c.tol c.part c.cls c.hint .plain 5 ps c.task))
    | none =>
      if c.rows ≤ c.row then some (s.putCopy { c with ended := true })
      else match s.copyAddr c c.srcAt false with
        | none => none
        | some none => some (s.copyStop c tsACCESS)
        | some (some a) =>
          if c.fill && s.fillSkips c a then some (s.putCopy (c.advance 64))
          else some ((s.putCopy { c with busy := true }).serveParts (.copyIn c.id) c.tol c.part c.cls 0 .plain 5
            [{ addr := a, len := c.pieceLen, op := .read }] c.task)

/-- The first copy that can go on does.
[DESIGN CHOICE, log entry 226] -/
def State.copyMove (s : State) : Option State := s.dsp.copies.findSome? s.copyStep

/-- Pieces copies take up at most between two commands.
[DESIGN CHOICE, log entry 226] -/
def copyFuel : Nat := 4096

/-- A task has no copy under way: every piece of it is written, and no access of it is out (06_task_graphs.md R177). -/
def State.copied (s : State) (f : CopyFor) : Bool := s.dsp.copies.all (fun c => c.for_ ≠ f || (c.ended && !c.busy))

end Sys2Proof.Machine
end

