-- ==== Sys2Proof/Machine/Crc.lean ====
section
/-! DEFINITION. The CRC-32 of 05_spindle_arithmetic.md R153, which descriptors, contexts and lane maps carry. -/
namespace Sys2Proof.Machine

/-- Eight shifts of the reflected register, polynomial 0x04C11DB7 (reflected 0xEDB88320). -/
def crcShift : Nat → Nat → Nat
  | 0, c => c
  | k + 1, c => crcShift k (if c % 2 = 1 then (c / 2) ^^^ 0xEDB88320 else c / 2)

/-- The register after a run of bytes. -/
def crcRun : Nat → List Byte → Nat
  | c, [] => c
  | c, b :: bs => crcRun (crcShift 8 (c ^^^ b.toNat)) bs

/-- CRC-32: reflected, initial value and final XOR all ones (R153). -/
def crc32 (bs : List Byte) : Nat := crcRun 0xFFFFFFFF bs ^^^ 0xFFFFFFFF

/-- The CHECK in the last four bytes of a descriptor covers the bytes before them. -/
def checkOk (bs : List Byte) : Bool := crc32 (bs.take (bs.length - 4)) = leNat (bs.drop (bs.length - 4))

/-- A little-endian field of a descriptor: `n` bytes at an offset. -/
def fieldAt (bs : List Byte) (off n : Nat) : Nat := leNat ((bs.drop off).take n)

end Sys2Proof.Machine
end

