-- ==== Sys2Proof/Machine/Formats.lean ====
section
/-! DEFINITION. Element formats of the Spindles, rounding and the stochastic generator (05_spindle_arithmetic.md R127-R131, R137, R138). -/
namespace Sys2Proof.Machine

/-- Bits of an element of a format code (R127); 0: reserved. -/
def elemBits (f : Nat) : Nat :=
  match f with
  | 0x00 => 8 | 0x01 => 8 | 0x02 => 6 | 0x03 => 6 | 0x04 => 4 | 0x08 => 16 | 0x09 => 16 | 0x0A => 32 | 0x0B => 128
  | 0x10 => 8 | 0x11 => 4 | 0x12 => 16 | 0x13 => 32 | 0x14 => 1 | _ => 0

/-- Bytes of a run of `n` elements (R128). -/
def elemBytes (f n : Nat) : Nat := (n * elemBits f + 7) / 8

/-- A format is an integer one. -/
def fmtInt (f : Nat) : Bool := decide (0x10 ≤ f)

/-- A format that block scales and QUANT use: FP8, FP6, FP4. -/
def fmtLow (f : Nat) : Bool := decide (f ≤ 4)

/-- Exponent and fraction bits of a float format. -/
def fmtFp (f : Nat) : FpFmt :=
  match f with
  | 0x00 => ⟨4, 3⟩ | 0x01 => ⟨5, 2⟩ | 0x02 => ⟨2, 3⟩ | 0x03 => ⟨3, 2⟩ | 0x04 => ⟨2, 1⟩ | 0x08 => bf16 | 0x09 => fp16 | _ => fp32

/-- A float format has infinities. -/
def fmtInf (f : Nat) : Bool := f = 0x01 || f = 0x08 || f = 0x09 || f = 0x0A

/-- A signed integer as a value. -/
def intVal (i : Int) : FpVal := .fin (decide (i < 0)) i.natAbs 0

/-- A finite encoding of a format without infinities (R127: E4M3, E2M3, E3M2, E2M1). -/
def FpFmt.decodePlain (f : FpFmt) (w : Nat) : FpVal :=
  let neg := natBit w (f.eb + f.mb)
  let e := natBits w (f.eb + f.mb - 1) f.mb
  let m := w % 2 ^ f.mb
  if e = 0 then .fin neg m f.qmin else .fin neg (2 ^ f.mb + m) (f.qmin + (e - 1 : Nat))

/-- The value of an element (R127, R129); INT16 and INT32 as ordinary integers. -/
def elemVal (f w : Nat) : FpVal :=
  if f = 0x14 then intVal (w % 2 : Nat)
  else if fmtInt f then intVal (sgn (elemBits f) w)
  else if fmtInf f then (fmtFp f).decode w
  else if f = 0x00 && w % 128 = 127 then .nan
  else (fmtFp f).decodePlain w

/-- Element `i` of a run of bytes: elements are packed densely, the first in the lowest bits (R128). -/
def elemAt (f : Nat) (run i : Nat) : Nat := natBits run ((i + 1) * elemBits f - 1) (i * elemBits f)

/-- The bytes of a run of elements; `fill` gives the bits of the last byte that no element covers. -/
def packRun (f : Nat) (codes : List Nat) (fill : Nat) : List Byte :=
  let b := elemBits f
  let n := ((List.range codes.length).zip codes).foldl (fun (a : Nat) (x : Nat × Nat) => a + (x.2 % 2 ^ b) <<< (b * x.1)) 0
  let bits := b * codes.length
  let len := (bits + 7) / 8
  natLe len (n + (fill % 2 ^ (8 * len - bits)) <<< bits)

/-! ### Status bits (R159) -/
def asRANGE : Nat := 128
def asINEXACT : Nat := 64
def asSAT : Nat := 32
def asOVF : Nat := 16
def asNAN_OUT : Nat := 8
def asQNAN_BLK : Nat := 4

/-! ### Rounding (R137, R138) -/

/-- The generator's mixing step. -/
def srMix (z : Nat) : Nat :=
  let a := ((z ^^^ (z >>> 31)) * 0xC3A591D72E4B6F09) % 2 ^ 64
  let b := ((a ^^^ (a >>> 27)) * 0x8F1D27B35C69E4A3) % 2 ^ 64
  b ^^^ (b >>> 33)

/-- The 32 bits for the element at row `m`, column `n` of an output. -/
def srBits (seed m n : Nat) : Nat := srMix ((seed % 2 ^ 64) ^^^ srMix ((m % 2 ^ 32) <<< 32 ||| (n % 2 ^ 32))) % 2 ^ 32

/-- mag × 2^e ÷ 2^q rounded: to nearest even, or by 32 random bits.
[DEDUCED, log entry 236] -/
def roundMag (r : Option Nat) (mag : Nat) (e q : Int) : Nat :=
  match r with
  | none => rneShift mag e q
  | some r =>
    if q ≤ e then mag <<< (e - q).toNat
    else
      let k := (q - e).toNat
      let fl := mag >>> k
      let rem := mag % 2 ^ k
      if rem ≠ 0 && 2 ^ 32 ≤ (rem * 2 ^ 32) / 2 ^ k + r then fl + 1 else fl

/-- The largest finite magnitude code of a float format. -/
def fmtMax (f : Nat) : Nat :=
  let g := fmtFp f
  if f = 0x00 then 0x7E
  else if fmtInf f then (2 ^ g.eb - 1) <<< g.mb - 1
  else 2 ^ (g.eb + g.mb) - 1

/-- The NaN a format writes (R137). -/
def fmtNan (f : Nat) : Nat :=
  match f with
  | 0x00 => 0x7F | 0x01 => 0x7E | 0x08 => 0x7FC0 | 0x09 => 0x7E00 | 0x0A => 0x7FC00000 | _ => 0

/-- A value in a format, with its status bits (R137): `sat` saturates what overflows.
[DEDUCED, log entry 235] -/
def elemEnc (f : Nat) (sat : Bool) (r : Option Nat) (v : FpVal) : Nat × Nat :=
  let g := fmtFp f
  let sign (neg : Bool) : Nat := if neg then 2 ^ (g.eb + g.mb) else 0
  let w := elemBits f
  let ext (neg : Bool) : Nat := if neg then 2 ^ (w - 1) else 2 ^ (w - 1) - 1
  match v with
  | .nan => (fmtNan f, asNAN_OUT)
  | .inf neg =>
    if fmtInt f then (ext neg, asOVF)
    else if fmtInf f then (sign neg + (2 ^ g.eb - 1) <<< g.mb, 0)
    else (sign neg + fmtMax f, asOVF)
  | .fin neg mag e =>
    if fmtInt f then
      let n := roundMag r mag e 0
      if (if neg then 2 ^ (w - 1) else 2 ^ (w - 1) - 1) < n then (ext neg, asOVF)
      else (unsgn w (if neg then -(n : Int) else n), 0)
    else if mag = 0 then (sign neg, 0)
    else
      let p : Int := (Nat.log2 mag : Int) + e
      let q : Int := max (p - g.mb) g.qmin
      let n := roundMag r mag e q
      let code := if n < 2 ^ g.mb then n else (q - g.qmin + 1).toNat <<< g.mb + (n - 2 ^ g.mb)
      if code ≤ fmtMax f then (sign neg + code, 0)
      else (sign neg + (if fmtInf f && !sat then fmtMax f + 1 else fmtMax f), asOVF)

/-- A value rounded to FP32 with RNE. -/
def r32 (v : FpVal) : FpVal := fp32.decode (fp32.encode v)

/-- a ≤ b as IEEE 754 compares: −0 equals +0; false where either is NaN. -/
def FpVal.le (a b : FpVal) : Bool := a ≠ .nan && b ≠ .nan && (!b.lt a || (a.isZero && b.isZero))
/-- a = b as IEEE 754 compares. -/
def FpVal.eqv (a b : FpVal) : Bool := a.le b && b.le a
/-- a < b as IEEE 754 compares. -/
def FpVal.ltv (a b : FpVal) : Bool := a.le b && !b.le a

/-- A magnitude. -/
def FpVal.abs : FpVal → FpVal
  | .nan => .nan
  | .inf _ => .inf false
  | .fin _ m e => .fin false m e

/-- A value times a power of two. -/
def FpVal.scale (v : FpVal) (k : Int) : FpVal :=
  match v with
  | .fin n m e => .fin n m (e + k)
  | v => v

end Sys2Proof.Machine
end

