-- ==== Sys2Proof/Machine/Pattern.lean ====
section
/-! DEFINITION. The pattern descriptor (05_spindle_arithmetic.md R142, R147, R153-R158), what follows from it: tiles, steps, units, regions,
and the check of it. -/
namespace Sys2Proof.Machine

/-- A descriptor's fields, as its bytes hold them (R153). -/
def patOf (b : List Byte) : PatDesc :=
  let f := fieldAt b
  { op := f 1 1, aFmt := f 2 1, bFmt := f 3 1, outFmt := f 4 1, resFmt := f 5 1, round := f 6 1, cmp := f 7 1, flags := f 8 2
    topkK := f 0xB 1, accBase := f 0xC 2, nSeg := f 0xE 1, m := f 0x10 4, n := f 0x14 4, k := f 0x18 4, aBase := f 0x20 8
    aScale := f 0x28 8, bBase := f 0x30 8, bScale := f 0x38 8, cBase := f 0x40 8, resBase := f 0x48 8, aStride := f 0x50 4
    bStride := f 0x54 4, cStride := f 0x58 4, resStride := f 0x5C 4, actTable := f 0x60 8, seed := f 0x68 8, vec0 := f 0x70 8
    vec1 := f 0x78 8, indexBase := f 0x80 8, clampLo := f 0x88 4, clampHi := f 0x8C 4, inW := f 0x90 2, inH := f 0x92 2, cIn := f 0x94 2
    kr := f 0x96 1, ks := f 0x97 1, dil := f 0x98 1, padX := f 0x99 1, padY := f 0x9A 1, padVal := f 0x9C 2
    epi := (List.range (min 8 (f 0xA 1))).map (fun i => ⟨f (0xA0 + 8 * i) 1, f (0xA1 + 8 * i) 1, f (0xA2 + 8 * i) 1, f (0xA4 + 8 * i) 4⟩)
    csBase := f 0xE0 8 }

/-! ### FLAGS and ROUND (R153, R155) -/
def PatDesc.flag (d : PatDesc) (i : Nat) : Bool := natBit d.flags i
def PatDesc.cMcont (d : PatDesc) : Bool := d.flag 13
def PatDesc.accInit (d : PatDesc) : Bool := d.flag 12
def PatDesc.fixedOrder (d : PatDesc) : Bool := d.flag 11
def PatDesc.thin (d : PatDesc) : Bool := d.flag 9
def PatDesc.bMx (d : PatDesc) : Bool := d.flag 8
def PatDesc.aMx (d : PatDesc) : Bool := d.flag 7
def PatDesc.colBob (d : PatDesc) : Nat := natBits d.flags 6 5
def PatDesc.rowBob (d : PatDesc) : Nat := natBits d.flags 4 3
def PatDesc.nMajor (d : PatDesc) : Bool := d.flag 2
def PatDesc.stoch (d : PatDesc) : Bool := natBit d.round 0
def PatDesc.sat (d : PatDesc) : Bool := natBit d.round 1
def PatDesc.shift (d : PatDesc) : Bool := d.rowBob = 2

/-- An integer min-plus or max-plus (R143). -/
def PatDesc.intSemi (d : PatDesc) : Bool := (d.op = 1 || d.op = 2) && fmtInt d.aFmt
/-- Accumulation in FP32 (R139, R144). -/
def PatDesc.fpAcc (d : PatDesc) : Bool := (d.op = 0 && (d.aFmt = 8 || d.aFmt = 9)) || ((d.op = 1 || d.op = 2) && d.aFmt = 8)
/-- The last step, where it is QUANT, TOPK or ARG: its code; else 0. -/
def PatDesc.term (d : PatDesc) : Nat :=
  match d.epi.getLast? with
  | some e => if 6 ≤ e.code && e.code ≤ 10 then e.code else 0
  | none => 0
/-- The last step keeps lists (R151). -/
def PatDesc.lists (d : PatDesc) : Bool := decide (7 ≤ d.term)
/-- Lists keep the largest. -/
def PatDesc.keepMax (d : PatDesc) : Bool := d.term = 8 || d.term = 10
/-- Entries of a list. -/
def PatDesc.listK (d : PatDesc) : Nat := if d.term = 7 || d.term = 8 then d.topkK else 1

/-! ### Geometry (R99, R100, R152, R157) -/

/-- Step depth (R99). -/
def PatDesc.depth (d : PatDesc) : Nat :=
  if d.op = 6 then 32
  else if d.op = 1 || d.op = 2 then (if d.aFmt = 0x13 then 1 else 2)
  else if d.aFmt = 4 || d.aFmt = 0x11 then 8
  else if d.aFmt = 8 || d.aFmt = 9 || d.aFmt = 0x12 then 2
  else 4

def PatDesc.outW (d : PatDesc) : Nat := d.inW + 2 * d.padX - (d.ks - 1) * d.dil
def PatDesc.outH (d : PatDesc) : Nat := d.inH + 2 * d.padY - (d.kr - 1) * d.dil
/-- M tiles of an output row in SHIFT mode. -/
def PatDesc.rowTiles (d : PatDesc) : Nat := (d.outW + 31) / 32
def PatDesc.mTiles (d : PatDesc) : Nat := if d.shift then d.outH * d.rowTiles else (d.m + 31) / 32
def PatDesc.nTiles (d : PatDesc) : Nat := (d.n + 15) / 16
/-- Channel groups of a tap (R106). -/
def PatDesc.groups (d : PatDesc) : Nat := (d.cIn + d.depth - 1) / d.depth
/-- Steps of one pass over K. -/
def PatDesc.steps (d : PatDesc) : Nat := if d.shift then d.kr * d.groups * d.ks else (d.k + d.depth - 1) / d.depth
/-- First output row of an M tile, and its rows. -/
def PatDesc.row0 (d : PatDesc) (mt : Nat) : Nat := if d.shift then mt / d.rowTiles * d.outW + 32 * (mt % d.rowTiles) else 32 * mt
def PatDesc.tileRows (d : PatDesc) (mt : Nat) : Nat :=
  if d.shift then min 32 (d.outW - 32 * (mt % d.rowTiles)) else min 32 (d.m - 32 * mt)
/-- Columns of an N tile. -/
def PatDesc.tileCols (d : PatDesc) (nt : Nat) : Nat := min 16 (d.n - 16 * nt)
/-- Segments of an M tile (R152). -/
def PatDesc.segs (d : PatDesc) : Nat := if d.lists then d.nSeg else d.nTiles
/-- First N tile of a segment, and the one after its last. -/
def PatDesc.seg0 (d : PatDesc) (g : Nat) : Nat := if d.lists then g * d.nTiles / d.nSeg else g
/-- Units of placement: tiles, or strips (R121, R152). -/
def PatDesc.units (d : PatDesc) : Nat := d.mTiles * d.segs
/-- M tile and segment of a unit in walk order (R121). -/
def PatDesc.unitAt (d : PatDesc) (u : Nat) : Nat × Nat := if d.nMajor then (u / d.segs, u % d.segs) else (u % d.mTiles, u / d.mTiles)
/-- QUANT blocks of a column (R150). -/
def PatDesc.blocks (d : PatDesc) : Nat := d.mTiles
/-- Elements of K a step covers: first K index of its operands, how many are not masked (R106, R107, R146). -/
def PatDesc.stepSpan (d : PatDesc) (t : Nat) : Nat :=
  if d.shift then min d.depth (d.cIn - (t / d.ks % d.groups) * d.depth) else min d.depth (d.k - t * d.depth)

/-- A SPIN's run in units. -/
def SpinRun.total (r : SpinRun) : Nat := r.desc.units

/-! ### The check (R158) -/

/-- Formats an operation accepts for A and B (R142). -/
def opIn (op f : Nat) : Bool :=
  match op with
  | 0 => decide (f ≤ 4) || f = 8 || f = 9 || f = 0x10 || f = 0x11
  | 1 => f = 0x12 || f = 0x13 || f = 8
  | 2 => f = 0x12 || f = 0x13 || f = 8
  | 3 => decide (f ≤ 1) || f = 0x10 || f = 0x12 || f = 8
  | 4 => decide (f ≤ 1) || f = 0x10 || f = 0x12 || f = 8
  | 5 => decide (f ≤ 1) || f = 0x10 || f = 0x12 || f = 8
  | 6 => f = 0x14
  | _ => false

/-- Output formats of an operation on a format (R142). -/
def opOut (op a f : Nat) : Bool :=
  match op with
  | 0 => if a = 8 || a = 9 then f = 8 || f = 9 || f = 0xA else elemBits f ≠ 0 && f ≠ 0x14
  | 1 => if a = 8 then f = 8 || f = 0xA else if a = 0x12 then f = 0x12 || f = 0x13 else f = 0x13
  | 2 => if a = 8 then f = 8 || f = 0xA else if a = 0x12 then f = 0x12 || f = 0x13 else f = 0x13
  | 6 => f = 0x12 || f = 0x13 || f = 0xA || f = 0xB
  | _ => elemBits f ≠ 0 && f ≠ 0x14

/-- A and B may be combined (R131). -/
def mixOk (a b : Nat) : Bool := a = b || (a ≤ 1 && b ≤ 1) || ((a = 2 || a = 3) && (b = 2 || b = 3))

def resFmtOk (f : Nat) : Bool := f = 0xA || f = 8 || f = 9 || f = 0 || f = 1 || f = 0x10 || f = 0x12 || f = 0x13

def PatDesc.formatOk (d : PatDesc) : Bool :=
  opIn d.op d.aFmt && opIn d.op d.bFmt && mixOk d.aFmt d.bFmt && opOut d.op d.aFmt d.outFmt
    && (!(d.aMx || d.bMx) || (d.op = 0 && fmtLow d.aFmt)) && d.cmp % 8 < 6
    && (!d.epi.any (fun e => e.code = 4) || resFmtOk d.resFmt)

def PatDesc.shapeOk (d : PatDesc) : Bool :=
  d.m ≠ 0 && d.n ≠ 0 && 1 ≤ d.k && d.k ≤ 65536 &&
    (!d.shift || (1 ≤ d.kr && d.kr ≤ 16 && 1 ≤ d.ks && d.ks ≤ 16 && 1 ≤ d.dil && d.dil ≤ 4 && 1 ≤ d.outW && 1 ≤ d.outH
      && d.m = d.outH * d.outW && d.k = d.kr * d.ks * d.cIn))

def PatDesc.placeOk (d : PatDesc) : Bool :=
  d.place ≠ 3 && d.colBob ≠ 3 && d.rowBob ≠ 3 && (!d.fixedOrder || d.place = 2) && !(d.shift && d.aMx)

/-- A step of the epilogue keeps R147, R148 and R158. -/
def PatDesc.epiStepOk (d : PatDesc) (i : Nat) (e : EpiStep) : Bool :=
  1 ≤ e.code && e.code ≤ 10 && (e.code < 6 || i + 1 = d.epi.length) && !(d.intSemi && e.code ≤ 5)
    && (2 < e.code || e.shape = 0 || (e.shape ≤ 2 && e.vec ≤ 1)) && (e.code ≠ 6 || (fmtLow d.outFmt && e.vec ≤ 1))
    && (e.code ≠ 5 || (fp32.decode d.clampLo).le (fp32.decode d.clampHi))

def PatDesc.epilogueOk (d : PatDesc) (count : Nat) : Bool :=
  count ≤ 8 && ((List.range d.epi.length).zip d.epi).all (fun x => d.epiStepOk x.1 x.2)
    && (d.resFmt = 0 || d.epi.any (fun e => e.code = 4)) && (d.outFmt ≠ 0xB || count = 0)
    && (if d.term = 7 || d.term = 8 then 1 ≤ d.topkK && d.topkK ≤ 64 else d.topkK = 0)
    && (if d.lists then 1 ≤ d.nSeg && d.nSeg ≤ 64 && (d.outFmt = 0xA || d.outFmt = 0x13)
          && (d.nSeg = 1 || (d.nSeg + 1) * 8 * d.listK ≤ d.cStride)
        else d.nSeg = 0)
    && !(d.accInit && (d.outFmt = 0xB || d.term ≠ 0))

/-- A region of a descriptor: base, stride, runs, bytes of a run (R154). -/
structure Region where
  base : Nat
  stride : Nat
  count : Nat
  run : Nat
  deriving DecidableEq, Repr

/-- A region of output shape: the output, or the residual. -/
def PatDesc.outRegion (d : PatDesc) (base stride f : Nat) : Region :=
  if d.cMcont then ⟨base, stride, d.n, elemBytes f d.m⟩ else ⟨base, stride, d.m, elemBytes f d.n⟩

/-- Every region a descriptor uses (R154, R158 DESC_WINDOW). -/
def PatDesc.regions (d : PatDesc) : List Region :=
  let ns := (d.k + 31) / 32
  let a : Region := if d.shift then ⟨d.aBase, d.aStride, d.inH, elemBytes d.aFmt (d.inW * d.cIn)⟩ else ⟨d.aBase, d.aStride, d.m, elemBytes d.aFmt d.k⟩
  let c : Region := if d.lists then ⟨d.cBase, d.cStride, d.m, 8 * d.listK * (if d.nSeg = 1 then 1 else d.nSeg + 1)⟩
    else d.outRegion d.cBase d.cStride d.outFmt
  let step (e : EpiStep) : List Region :=
    if e.code = 4 then [d.outRegion d.resBase d.resStride d.resFmt]
    else if e.code = 3 then [⟨d.actTable, 0, 1, 1024⟩]
    else if e.code = 6 then [⟨d.csBase, 0, 1, d.blocks * d.n⟩]
    else if e.code ≤ 2 && 1 ≤ e.shape then
      [⟨if e.vec = 1 then d.vec1 else d.vec0, 0, 1, 4 * (if e.shape = 1 then d.m else d.n)⟩]
    else []
  [a, ⟨d.bBase, d.bStride, d.n, elemBytes d.bFmt d.k⟩, c] ++ (if d.aMx then ([⟨d.aScale, 0, 1, d.m * ns⟩] : List Region) else [])
    ++ (if d.bMx then ([⟨d.bScale, 0, 1, d.n * ns⟩] : List Region) else []) ++ (d.epi.map step).flatten

/-- A region lies in its window and keeps R154. -/
def State.regionOk (s : State) (p : Nat) (r : Region) : Bool :=
  r.base % 8 = 0 && r.stride % 8 = 0 && (r.count ≤ 1 || r.run ≤ r.stride) && s.regInside p r.base ((r.count - 1) * r.stride + r.run)

/-- Every base and stride keeps R154, in use or not: multiples of 8, bits [62:48] of a base 0. -/
def PatDesc.basesOk (d : PatDesc) : Bool :=
  [d.aBase, d.aScale, d.bBase, d.bScale, d.cBase, d.resBase, d.actTable, d.vec0, d.vec1, d.csBase].all (fun a => a % 8 = 0 && natBits a 62 48 = 0)
    && [d.aStride, d.bStride, d.cStride, d.resStride].all (fun x => x % 8 = 0)

/-- Reserved bytes and bits of a descriptor are 0. -/
def patReservedOk (b : List Byte) : Bool :=
  let f := fieldAt b
  f 0xF 1 = 0 && f 0x1C 4 = 0 && f 0x9B 1 = 0 && f 0x9E 2 = 0 && f 0xE8 20 = 0 && f 6 1 < 4 && f 7 1 < 8 && f 8 2 < 2 ^ 14
    && (List.range (min 8 (f 0xA 1))).all (fun i => f (0xA3 + 8 * i) 1 = 0)

/-- The descriptor check: 0, else the lowest code that applies (R158). -/
def State.patCheck (s : State) (p : Nat) (b : List Byte) : Nat :=
  let d := patOf b
  if fieldAt b 0 1 ≠ 1 then 0x40
  else if b.length ≠ 256 || !Sys2Proof.Machine.checkOk b then 0x41
  else if !d.formatOk then 0x42
  else if !d.shapeOk then 0x43
  else if !d.placeOk then 0x44
  else if !d.epilogueOk (fieldAt b 0xA 1) then 0x45
  else if !d.basesOk || !d.regions.all (fun r => s.regionOk p r) then 0x46
  else if !patReservedOk b then 0x48
  else 0

end Sys2Proof.Machine
end

