-- ==== Sys2Proof/Machine/Accumulate.lean ====
section
/-! DEFINITION. Element terms, the fold of a step, and finished accumulators (05_spindle_arithmetic.md R132-R146, R156). -/
namespace Sys2Proof.Machine

/-- Flags of an accumulator (R132, R136), SAT of a semiring (R143). -/
def afNAN : Nat := 1
def afPINF : Nat := 2
def afNINF : Nat := 4
def afINEXACT : Nat := 8
def afRANGE : Nat := 16
def afSAT : Nat := 32

def Accum.set (x : Accum) (f : Nat) : Accum := { x with flags := x.flags ||| f }

/-- Infinities of an integer semiring accumulator: beyond every value of 32 bits. -/
def semInf : Int := 2 ^ 40

/-- L of the exact accumulator (R132, R134). -/
def PatDesc.lsb (d : PatDesc) : Int :=
  let a := d.aFmt
  let b := d.bFmt
  let lFmt : Int :=
    if d.op = 0 then
      (if a = 0 && b = 0 then -18 else if a = 1 && b = 1 then -32 else if a ≤ 1 && b ≤ 1 then -25
       else if a = 3 && b = 3 then -8 else if a = 2 && b = 2 then -6 else if a = 4 then -2 else if a ≤ 3 then -7 else 0)
    else if d.op = 3 then (if a = 1 || b = 1 then -16 else if a = 0 then -9 else 0)
    else if d.op = 4 then (if a = 1 || b = 1 then -32 else if a = 0 then -18 else 0)
    else 0
  let auto : Int :=
    if d.op = 0 then
      (if a = 0 && b = 0 then -21 else if a = 1 && b = 1 then -7 else if a ≤ 1 && b ≤ 1 then -14
       else if a = 3 && b = 3 then -30 else if a = 2 && b = 2 then -33 else if a = 4 then -35 else if a ≤ 3 then -31 else 0)
    else if (d.op = 3 || d.op = 4) && a = 8 then -40
    else 0
  lFmt + (if d.accBase = 0x8000 then auto else sgn 16 d.accBase)

/-- A term enters the exact accumulator (R133). -/
def exactAdd (l : Int) (x : Accum) (t : FpVal) : Accum :=
  match t with
  | .nan => x.set afNAN
  | .inf false => x.set afPINF
  | .inf true => x.set afNINF
  | .fin neg mag e =>
    if l ≤ e then
      let n := mag <<< (e - l).toNat
      if 2 ^ 78 ≤ n then x.set afRANGE else { x with i := x.i + (if neg then -(n : Int) else n) }
    else
      let k := (l - e).toNat
      if 2 ^ (78 + k) ≤ mag then x.set afRANGE
      else
        let x1 := if mag % 2 ^ k = 0 then x else x.set afINEXACT
        { x1 with i := x1.i + Int.fdiv (if neg then -(mag : Int) else mag) (2 ^ k) }

/-- The value of a block scale: its exponent; none for NaN (R130). -/
def e8m0 (e : Nat) : Option Int := if e = 255 then none else some ((e : Int) - 127)

/-- The predicate of CMPCNT (R145). -/
def cmpHolds (c : Nat) (a b : FpVal) : Bool :=
  match c with
  | 0 => a.ltv b | 1 => a.le b | 2 => a.eqv b | 3 => !a.eqv b | 4 => b.le a | _ => b.ltv a

/-- A term of an exact mode (R133, R142): element values and scales. -/
def PatDesc.term1 (d : PatDesc) (a b : FpVal) (sa sb : Nat) : FpVal :=
  match d.op with
  | 0 => match e8m0 sa, e8m0 sb with
    | some x, some y => (a.mul b).scale (x + y)
    | _, _ => .nan
  | 3 => (a.add b.neg).abs
  | 4 => (a.add b.neg).mul (a.add b.neg)
  | 5 => intVal (b2n (cmpHolds (d.cmp % 8) a b) : Nat)
  | _ => intVal (b2n (!a.eqv b) : Nat)

/-- A term of an integer semiring (R143); the Bool: it was clamped. -/
def semTerm (isMax : Bool) (w : Nat) (a b : Int) : Int × Bool :=
  let lo : Int := -(2 ^ (w - 1))
  let hi : Int := 2 ^ (w - 1) - 1
  let ident : Int := if isMax then -semInf else semInf
  let val (x : Int) : Int := if x = lo then -semInf else if x = hi then semInf else x
  let x := val a
  let y := val b
  if x = ident || y = ident then (ident, false)
  else if x = -ident || y = -ident then (-ident, false)
  else
    let s := x + y
    if s < lo + 1 then (lo + 1, true) else if hi - 1 < s then (hi - 1, true) else (s, false)

/-- min or max of two FP32 encodings (R144): NaN absorbs, −0 below +0. -/
def fpPick (isMax : Bool) (a b : Nat) : Nat := atomMinMax isMax 4 a b

/-- The accumulator a tile starts from (R132, R142, R156): the identity, or an initial value in OUT_FMT. -/
def PatDesc.start (d : PatDesc) (init : Option Nat) : Accum :=
  let iv := init.map (fun w => elemVal d.outFmt w)
  if d.fpAcc then
    match iv with
    | some v => { f := fp32.encode v }
    | none => { f := if d.op = 0 then 0 else fp32.encode (.inf (d.op = 2)) }
  else if d.intSemi then
    let w := elemBits d.outFmt
    match init with
    | some x =>
      let i := sgn w x
      { i := if i = -(2 ^ (w - 1)) then -semInf else if i = 2 ^ (w - 1) - 1 then semInf else i }
    | none => { i := if d.op = 2 then -semInf else semInf }
  else match iv with
    | some v => exactAdd d.lsb {} v
    | none => {}

/-- One step on one element: `n` pairs of elements with their scales are folded in; masked positions are the identity (R98, R139, R146). -/
def PatDesc.fold (d : PatDesc) (x : Accum) (ps : List (Nat × Nat × Nat × Nat)) : Accum :=
  if d.fpAcc && d.op = 0 then
    let sum := ps.foldl (fun (v : FpVal) p => v.add ((elemVal d.aFmt p.1).mul (elemVal d.bFmt p.2.1))) (fp32.decode x.f)
    let sum1 := if ps.length < d.depth then sum.add (.fin false 0 0) else sum
    { x with f := fp32.encode sum1 }
  else if d.fpAcc then
    let isMax : Bool := d.op = 2
    ps.foldl (fun (x : Accum) p =>
      let a := elemVal d.aFmt p.1
      let b := elemVal d.bFmt p.2.1
      let t := match a, b with
        | .inf m, .inf n => if m = n then FpVal.inf m else .inf isMax
        | a, b => a.add b
      { x with f := fpPick isMax x.f (fp32.encode t) }) x
  else if d.intSemi then
    let isMax : Bool := d.op = 2
    let w := elemBits d.aFmt
    ps.foldl (fun (x : Accum) p =>
      let t := semTerm isMax w (sgn w p.1) (sgn w p.2.1)
      let x1 := if t.2 then x.set afSAT else x
      { x1 with i := if isMax then max x1.i t.1 else min x1.i t.1 }) x
  else
    ps.foldl (fun (x : Accum) p => exactAdd d.lsb x (d.term1 (elemVal d.aFmt p.1) (elemVal d.bFmt p.2.1) p.2.2.1 p.2.2.2)) x

/-- The value of a finished accumulator (R135, R139, R143, R144); integer infinities as infinities. -/
def PatDesc.value (d : PatDesc) (x : Accum) : FpVal :=
  if d.fpAcc then fp32.decode x.f
  else if d.intSemi then (if x.i = semInf then .inf false else if x.i = -semInf then .inf true else intVal x.i)
  else
    let f := x.flags
    if natBit f 0 || natBit f 4 || (natBit f 1 && natBit f 2) then .nan
    else if natBit f 1 then .inf false
    else if natBit f 2 then .inf true
    else if x.i = 0 then .fin false 0 0
    else .fin (decide (x.i < 0)) x.i.natAbs d.lsb

/-- Status bits an accumulation gives (R159). -/
def Accum.status (x : Accum) : Nat :=
  b2n (natBit x.flags 4) * asRANGE + b2n (natBit x.flags 3) * asINEXACT + b2n (natBit x.flags 5) * asSAT

/-- The 16-byte container of an accumulator (R136).
[DEDUCED, log entry 238] -/
def PatDesc.container (d : PatDesc) (x : Accum) : Nat := unsgn 96 x.i + unsgn 16 d.lsb <<< 96 + (x.flags % 32) <<< 112

end Sys2Proof.Machine
end

