-- ==== Sys2Proof/Machine/Epilogue.lean ====
section
/-! DEFINITION. The epilogue: steps, conversion, QUANT blocks, TOP-k lists (05_spindle_arithmetic.md R147-R152). -/
namespace Sys2Proof.Machine

/-- What the steps of an element read: residual, vector value by VEC and SHAPE, the ACT table. -/
structure EpiIn where
  resid : Nat
  vec : Nat → Nat → Nat
  act : List (Nat × Nat × Nat)

/-- The ACT table as read: 64 entries of X_LO, SLOPE, ICEPT (R149). -/
def actOf (b : List Byte) : List (Nat × Nat × Nat) :=
  (List.range 64).map (fun i => (fieldAt b (16 * i) 4, fieldAt b (16 * i + 4) 4, fieldAt b (16 * i + 8) 4))

/-- X_LO rises strictly from −∞, with no NaN (R149).
[DEDUCED, log entry 237] -/
def actOk (t : List (Nat × Nat × Nat)) : Bool :=
  let xs := t.map (fun e => fp32.decode e.1)
  t.length = 64 && xs.head? = some (.inf true) && (xs.zip (xs.drop 1)).all (fun p => p.1.ltv p.2) && !xs.any (fun x => x = .nan)

/-- The table lookup (R149). -/
def actLook (t : List (Nat × Nat × Nat)) (x : FpVal) : FpVal :=
  if x = .nan then .nan
  else match (t.filter (fun e => (fp32.decode e.1).le x)).getLast? with
    | some e => ((fp32.decode e.2.1).mul x).add (fp32.decode e.2.2)
    | none => .nan

/-- One FP32 step (R148); the result is rounded to FP32. -/
def PatDesc.epiStep (d : PatDesc) (i : EpiIn) (x : FpVal) (e : EpiStep) : FpVal :=
  let s := fp32.decode (if e.shape = 0 then e.imm else i.vec e.vec e.shape)
  match e.code with
  | 1 => r32 (x.mul s)
  | 2 => r32 (x.add s)
  | 3 => r32 (actLook i.act x)
  | 4 => r32 (x.add (r32 (elemVal d.resFmt i.resid)))
  | 5 =>
    if x = .nan then .nan
    else
      let lo := fp32.decode d.clampLo
      let hi := fp32.decode d.clampHi
      let y := if x.lt lo then lo else x
      if hi.lt y then hi else y
  | _ => x

/-- The working value after the FP32 steps (R147): rounded to FP32 before the first. -/
def PatDesc.working (d : PatDesc) (i : EpiIn) (x : Accum) : FpVal :=
  let steps := d.epi.filter (fun e => e.code ≤ 5)
  let v := d.value x
  steps.foldl (d.epiStep i) (if steps = [] then v else r32 v)

/-- A working value in OUT_FMT, with its status bits; integer infinities go to the format's own, without a flag (R137, R143). -/
def PatDesc.convert (d : PatDesc) (r : Option Nat) (v : FpVal) : Nat × Nat :=
  if d.intSemi then
    let w := elemBits d.outFmt
    match v with
    | .inf true => (2 ^ (w - 1), 0)
    | .inf false => (2 ^ (w - 1) - 1, 0)
    | v => elemEnc d.outFmt d.sat r v
  else elemEnc d.outFmt d.sat r v

/-- Random bits of an element's conversion (R138). -/
def PatDesc.rbits (d : PatDesc) (m n : Nat) : Option Nat := if d.stoch then some (srBits d.seed m n) else none

/-! ### QUANT (R150) -/

def quantEmax (f : Nat) : Int := match f with | 0 => 8 | 1 => 15 | 2 => 2 | 3 => 4 | _ => 2

/-- ⌊log₂⌋ of a finite value that is not zero. -/
def flog2 (v : FpVal) : Int := match v with | .fin _ m e => (Nat.log2 m : Int) + e | _ => 0

/-- Magnitude of the largest of a list of finite values. -/
def maxMag : List FpVal → FpVal
  | [] => .fin false 0 0
  | v :: vs => let m := maxMag vs; if m.lt v.abs then v.abs else m

/-- The exponent X of a block. -/
def quantExp (f rule : Nat) (vs : List FpVal) : Int :=
  let amax := maxMag vs
  let x : Int :=
    if amax.isZero then -127
    else if rule = 0 then flog2 amax - quantEmax f
    else
      let mx := elemVal f (fmtMax f)
      let x0 := flog2 amax - flog2 mx
      if amax.le (mx.scale (x0 - 1)) then x0 - 1 else if amax.le (mx.scale x0) then x0 else x0 + 1
  max (-127) (min 127 x)

/-- A block: codes with status bits by element, scale byte, status bits.
[DEDUCED, log entry 194] -/
def PatDesc.quant (d : PatDesc) (rule m0 n : Nat) (vs : List FpVal) : List (Nat × Nat) × Nat × Nat :=
  let bad := vs.any (fun v => match v with | .fin .. => false | _ => true)
  if bad then (vs.map (fun _ => (0, asQNAN_BLK)), 255, asQNAN_BLK)
  else
    let x := quantExp d.outFmt rule vs
    (((List.range vs.length).zip vs).map (fun p => elemEnc d.outFmt true (d.rbits (m0 + p.1) n) (p.2.scale (-x))), (x + 127).toNat, 0)

/-! ### Lists (R151) -/

/-- An entry of a list: value code, recorded index, status bits of its own conversion. -/
abbrev ListEnt := Nat × Nat × Nat

/-- Entry `a` ranks before `b`: by the written value in the step's sense, then by lower index; NaN last. -/
def PatDesc.before (d : PatDesc) (a b : ListEnt) : Bool :=
  let x := elemVal d.outFmt a.1
  let y := elemVal d.outFmt b.1
  if x = .nan && y = .nan then decide (a.2.1 < b.2.1)
  else if x = .nan then false
  else if y = .nan then true
  else if x.eqv y then decide (a.2.1 < b.2.1)
  else if d.keepMax then y.ltv x else x.ltv y

/-- An entry goes to its place. -/
def PatDesc.insert (d : PatDesc) (e : ListEnt) : List ListEnt → List ListEnt
  | [] => [e]
  | x :: xs => if d.before e x then e :: x :: xs else x :: d.insert e xs

/-- Entries join a list, which keeps its best. -/
def PatDesc.join (d : PatDesc) (l es : List ListEnt) : List ListEnt := es.foldl (fun l e => (d.insert e l).take d.listK) l

/-- A filler's value: the worst infinity for the sense. -/
def PatDesc.filler (d : PatDesc) : Nat :=
  if d.outFmt = 0x13 then (if d.keepMax then 0x80000000 else 0x7FFFFFFF) else (if d.keepMax then 0xFF800000 else 0x7F800000)

/-- The bytes of a list. -/
def PatDesc.listBytes (d : PatDesc) (l : List ListEnt) : List Byte :=
  ((l.map (fun e => natLe 4 e.1 ++ natLe 4 e.2.1)) ++
    List.replicate (d.listK - l.length) (natLe 4 d.filler ++ natLe 4 0xFFFFFFFF)).flatten

/-- Lists of a row read back from memory: `k` entries of 8 bytes. -/
def listOf (b : List Byte) (k : Nat) : List (Nat × Nat) := (List.range k).map (fun i => (fieldAt b (8 * i) 4, fieldAt b (8 * i + 4) 4))

end Sys2Proof.Machine
end

