-- ==== Sys2Proof/Machine/HankOps.lean ====
section
/-! DEFINITION. A hank's tile: passes, operands of a step, its fold, what it drains (04_spindle_array.md R98-R107, R117; 05_spindle_arithmetic.md
R147-R152, R159). -/
namespace Sys2Proof.Machine

/-! ### Layout on a degraded hank (R117) -/

/-- Spindle (i, j) is good. -/
def spGood (w i j : Nat) : Bool := natBit w (i * 4 + j)
/-- Used rows, rising. -/
def usedRows (w : Nat) : List Nat := (List.range 16).filter (fun i => (List.range 4).any (fun j => spGood w i j))
/-- The pass that computes block (i, b): the first in which the spindle fed with column b is good. -/
def passOf (w i b : Nat) : Nat := ((List.range 4).find? (fun p => spGood w i ((b + p) % 4))).getD 4
/-- Passes of a tile. -/
def passes (w : Nat) : Nat := ((usedRows w).map (fun i => ((List.range 4).map (fun b => passOf w i b + 1)).foldl max 1)).foldl max 1

/-- Row groups a tile of `rows` rows takes on a hank.
[DEDUCED, log entry 232] -/
def groupsOf (w rows : Nat) : Nat := ((rows + 1) / 2 + (usedRows w).length - 1) / (usedRows w).length

/-- Elements (row, column) of a tile that a pass of a group computes, inside the matrix. -/
def passElems (w rows cols group pass : Nat) : List (Nat × Nat) :=
  let us := usedRows w
  ((List.range us.length).zip us).flatMap (fun ki =>
    (List.range 4).flatMap (fun b =>
      if passOf w ki.2 b ≠ pass then []
      else (List.range 2).flatMap (fun l => (List.range 4).filterMap (fun x =>
        let r := 2 * (group * us.length + ki.1) + l
        let c := 4 * b + x
        if r < rows && c < cols then some (r, c) else none))))

/-- The row bobbin that feeds a row of a tile in its group, and which of its two rows. -/
def rowBobOf (w group r : Nat) : Nat × Nat :=
  let us := usedRows w
  (us.getD (r / 2 - group * us.length) 0, r % 2)

/-- Bobbins a pass draws from: row bobbins of the group's rows, or the pixel chain (20) in SHIFT mode, and column bobbins. -/
def PatDesc.bobsNeeded (d : PatDesc) (w : Nat) (t : TileRun) : List Nat :=
  let us := usedRows w
  let rows := d.tileRows t.mt
  (if d.shift then [20] else (List.range us.length).filterMap (fun k =>
      if 2 * (t.group * us.length + k) < rows then some (us.getD k 0) else none))
    ++ (List.range 4).filterMap (fun j => if 4 * j < d.tileCols t.nt then some (16 + j) else none)

/-! ### The chain of SHIFT mode (R106) -/

/-- Kernel row, channel group and kernel column of a step. -/
def PatDesc.tap (d : PatDesc) (t : Nat) : Nat × Nat × Nat := (t / (d.ks * d.groups), t / d.ks % d.groups, t % d.ks)

/-- The pixel of lane `l` at a step lies inside the input map. -/
def PatDesc.inMap (d : PatDesc) (mt t l : Nat) : Bool :=
  let (dy, _, dx) := d.tap t
  let x := 32 * (mt % d.rowTiles) + l + dx * d.dil
  let y := mt / d.rowTiles + dy * d.dil
  decide (d.padX ≤ x) && decide (x < d.padX + d.inW) && decide (d.padY ≤ y) && decide (y < d.padY + d.inH)

/-- Lanes that take a new pixel at a step: all at the first kernel column, the last DIL at the others. -/
def PatDesc.newLanes (d : PatDesc) (t : Nat) : List Nat :=
  let (_, _, dx) := d.tap t
  if dx = 0 then List.range 32 else (List.range d.dil).map (fun i => 32 - d.dil + i)

/-- A pad pixel: PAD_VAL in every channel (R146, R157). -/
def PatDesc.padPixel (d : PatDesc) : List Byte := packRun d.aFmt (List.replicate d.depth d.padVal) 0

/-- Lanes filled in order: inside the map from the intake, outside with the pad value. -/
def PatDesc.fillLanes (d : PatDesc) (mt t : Nat) : List Nat → List (List Byte) → List (List Byte)
  | [], _ => []
  | l :: ls, px =>
    if d.inMap mt t l then px.headD [] :: d.fillLanes mt t ls (px.drop 1)
    else d.padPixel :: d.fillLanes mt t ls px

/-- The chain at a step. -/
def PatDesc.chainAt (d : PatDesc) (mt t : Nat) (old : List (List Byte)) (px : List (List Byte)) : List (List Byte) :=
  let (_, _, dx) := d.tap t
  (if dx = 0 then [] else old.drop d.dil) ++ d.fillLanes mt t (d.newLanes t) px

/-! ### A step (R98, R99, R140) -/

/-- Steps of a chunk, one bobbin load (R102, R140). -/
def PatDesc.chunk (d : PatDesc) : Nat := if d.colBob = 2 then 256 else 512

/-- Step `i` of a tile's walk over K: it may start at a chunk and wrap around (R140). -/
def PatDesc.walkOf (d : PatDesc) (t : TileRun) (i : Nat) : Nat := (t.start * d.chunk + i) % d.steps

/-- The step of the walk over K that comes next. -/
def PatDesc.walkAt (d : PatDesc) (t : TileRun) : Nat := d.walkOf t t.step

/-- The operands of the next step are in the bobbins (R105). -/
def PatDesc.ready (d : PatDesc) (w : Nat) (h : HankSt) (t : TileRun) : Bool := (d.bobsNeeded w t).all (fun b => NMap.getD h.bobs [] b ≠ [])

/-- The epilogue has a step of a code. -/
def PatDesc.has (d : PatDesc) (code : Nat) : Bool := d.epi.any (fun e => e.code = code)

/-- What a tile needs before its first step: the initial values (R156), and the ACT table, read and checked (05_spindle_arithmetic.md R149). -/
def PatDesc.startReady (d : PatDesc) (h : HankSt) (t : TileRun) : Bool :=
  (!(d.accInit && t.step = 0) || (NMap.find? h.tileIn 0).isSome) && (!d.has 3 || (NMap.find? h.acts t.spin).isSome)

/-- The kind of the vector an epilogue step reads. -/
def EpiStep.vecKind (e : EpiStep) : Nat := 2 + 2 * e.vec + (e.shape - 1)

/-- What the epilogue of a tile reads is there. -/
def PatDesc.epiReady (d : PatDesc) (h : HankSt) : Bool :=
  d.epi.all (fun e =>
    if e.code = 4 then (NMap.find? h.tileIn 1).isSome
    else if e.code ≤ 2 && e.shape ≠ 0 then (NMap.find? h.tileIn e.vecKind).isSome
    else true)

/-- The block scale of element `e` of a slice's run: 0x7F without scales. -/
def sliceScale (mx : Bool) (x : Slice) (i e : Nat) : Nat :=
  if !mx then 0x7F
  else
    let sc := x.scales.getD i []
    if sc.length = 1 then sc.headD 0x7F else sc.getD e 0x7F

/-- The elements a pass computes take the terms of one step. -/
def PatDesc.step (d : PatDesc) (w : Nat) (h : HankSt) (t : TileRun) (chain : List (List Byte)) : HankSt :=
  let at_ := d.walkAt t
  let span := d.stepSpan at_
  let rows := d.tileRows t.mt
  let aRow (r : Nat) : Nat × (Nat → Nat) :=
    if d.shift then (leNat (chain.getD r []), fun _ => 0x7F)
    else
      let (b, l) := rowBobOf w t.group r
      let sl := (NMap.getD h.bobs [] b).headD ⟨[], []⟩
      (leNat (sl.runs.getD l []), sliceScale d.aMx sl l)
  let bCol (c : Nat) : Nat × (Nat → Nat) :=
    let sl := (NMap.getD h.bobs [] (16 + c / 4)).headD ⟨[], []⟩
    (leNat (sl.runs.getD (c % 4) []), sliceScale d.bMx sl (c % 4))
  let one (acc : NMap Accum) (rc : Nat × Nat) : NMap Accum :=
    let key := t.set * 512 + rc.1 * 16 + rc.2
    let init := if d.accInit then ((NMap.find? h.tileIn 0).getD [])[rc.1 * 16 + rc.2]? else none
    let x := if t.step = 0 then d.start init else NMap.getD acc {} key
    let a := aRow rc.1
    let b := bCol rc.2
    let ps := (List.range span).map (fun e => (elemAt d.aFmt a.1 e, elemAt d.bFmt b.1 e, a.2 e, b.2 e))
    NMap.put acc {} key (d.fold x ps)
  { h with acc := (passElems w rows (d.tileCols t.nt) t.group t.pass).foldl one h.acc }

/-- Slices of a step leave the bobbins. -/
def PatDesc.consume (d : PatDesc) (w : Nat) (h : HankSt) (t : TileRun) : HankSt :=
  { h with bobs := (d.bobsNeeded w t).foldl (fun m b => NMap.put m [] b ((NMap.getD m [] b).drop 1)) h.bobs }

/-! ### Held operands (R102, R117) -/

def TileRun.keyA (t : TileRun) : Nat := (t.spin * 2 ^ 40 + t.mt) * 16 + t.group + 1
def TileRun.keyB (t : TileRun) : Nat := t.spin * 2 ^ 40 + t.nt + 1

/-- Steps of a block a bobbin holds resident, and how many such blocks (R102): HOLD one of 512, HOLD2 two of 256; else none. -/
def PatDesc.room (d : PatDesc) (b : Nat) : Option (Nat × Nat) :=
  if b < 16 then (if d.rowBob = 1 then some (512, 1) else none)
  else if b < 20 then (if d.colBob = 1 then some (512, 1) else if d.colBob = 2 then some (256, 2) else none)
  else none

/-- What is held for an operand: nothing yet where another was held. -/
def Held.for_ (x : Held) (key : Nat) : Held := if x.key = key then x else { key := key }

/-- The slices a bobbin replays: from the walk's first step on, while they are held. -/
def Held.replay (x : Held) (d : PatDesc) (t : TileRun) (b : Nat) : List Slice :=
  (((List.range (min d.steps x.slices.length)).map (fun i => NMap.find? x.slices (b * 2 ^ 17 + d.walkOf t i))).takeWhile Option.isSome).filterMap id

/-- A bobbin holds a slice of a step: its chunk takes the place of the oldest where there is no more room. -/
def Held.put (x : Held) (size cap b at_ : Nat) (v : Slice) : Held :=
  let cs := NMap.getD x.chunks [] b
  let c := at_ / size
  let keep := if cs.contains c then cs else (cs ++ [c]).drop ((cs ++ [c]).length - cap)
  { x with
    chunks := NMap.put x.chunks [] b keep
    slices := NMap.insert (x.slices.filter (fun e => e.1 / 2 ^ 17 ≠ b || keep.contains (e.1 % 2 ^ 17 / size))) (b * 2 ^ 17 + at_) v }

/-- A pass starts: what the bobbins hold of its operands is replayed, everything else is fetched. -/
def PatDesc.load (d : PatDesc) (w : Nat) (h : HankSt) (t : TileRun) : HankSt :=
  let a := h.heldA.for_ t.keyA
  let b := h.heldB.for_ t.keyB
  { h with
    heldA := a, heldB := b
    bobs := (d.bobsNeeded w t).foldl (fun m k => NMap.put m [] k (if d.room k = none then [] else (if k < 16 then a else b).replay d t k)) [] }

/-- The column bobbins hold the start of chunk `c` of a tile's B operand (R140). -/
def PatDesc.holdsChunk (d : PatDesc) (w : Nat) (h : HankSt) (t : TileRun) (c : Nat) : Bool :=
  decide (c * d.chunk < d.steps) && decide (h.heldB.key = t.keyB) &&
    ((d.bobsNeeded w t).filter (fun k => 16 ≤ k)).all (fun k => (NMap.find? h.heldB.slices (k * 2 ^ 17 + c * d.chunk)).isSome)

/-- A slice arrives in a bobbin, and stays where the bobbin holds its operand. -/
def PatDesc.takeSlice (d : PatDesc) (h : HankSt) (b at_ : Nat) (x : Slice) : HankSt :=
  let h1 := { h with bobs := NMap.put h.bobs [] b (NMap.getD h.bobs [] b ++ [x]) }
  match d.room b with
  | none => h1
  | some (size, cap) => if b < 16 then { h1 with heldA := h.heldA.put size cap b at_ x } else { h1 with heldB := h.heldB.put size cap b at_ x }

/-! ### The end of a pass and of a tile (R101, R147-R152, R159) -/

/-- The member of a run that a column belongs to, and its number. -/
def SpinRun.memberAt (r : SpinRun) (n : Nat) : Option (Nat × SpinMember) :=
  (r.members.find? (fun x => x.col0 ≤ n && n < x.col0 + x.desc.n)).map (fun x => (x.num, x))

/-- The member of a number. -/
def SpinRun.member? (r : SpinRun) (k : Nat) : Option SpinMember := r.members.find? (fun x => x.num = k)
/-- Its descriptor; the run's, where it has ended. -/
def SpinRun.memberDesc (r : SpinRun) (k : Nat) : PatDesc := match r.member? k with | some m => m.desc | none => r.desc
/-- Numbers of the members for which no further tile starts (09_memory_integrity.md R279). -/
def SpinRun.stopped (r : SpinRun) : List Nat := (r.members.filter (fun m => m.stop)).map (fun m => m.num)

/-- Working values of the elements a pass computed. -/
def SpinRun.passWork (r : SpinRun) (w : Nat) (h : HankSt) (t : TileRun) : NMap (FpVal × Nat × Nat) :=
  let d := r.desc
  (passElems w (d.tileRows t.mt) (d.tileCols t.nt) t.group t.pass).foldl (fun m rc =>
    let e := rc.1 * 16 + rc.2
    let x := NMap.getD h.acc {} (t.set * 512 + e)
    let i : EpiIn :=
      { resid := ((NMap.find? h.tileIn 1).getD []).getD e 0
        vec := fun v sh => ((NMap.find? h.tileIn (2 + 2 * v + (sh - 1))).getD []).getD (if sh = 1 then rc.1 else rc.2) 0
        act := NMap.getD h.acts [] r.id }
    NMap.insert m e (d.working i x, x.status, if d.outFmt = 0xB then d.container x else 0)) t.work

/-- Columns of the run in a tile, with the member each belongs to: column of the tile, member number, member, column of its output. -/
def SpinRun.tileMembers (r : SpinRun) (t : TileRun) : List (Nat × Nat × SpinMember × Nat) :=
  (List.range (r.desc.tileCols t.nt)).filterMap (fun c =>
    (r.memberAt (16 * t.nt + c)).map (fun x => (c, x.1, x.2, 16 * t.nt + c - x.2.col0)))

/-- A status entry of one output element. -/
def elemStat (k bits : Nat) : Nat × Nat × Nat := (k, bits, b2n (bits ≠ 0))

/-- Codes of a tile by row × 16 + column, with status bits; scale bytes as writes (R137, R150). -/
def SpinRun.codes (r : SpinRun) (t : TileRun) : NMap (Nat × Nat) × List Write × List (Nat × Nat × Nat) :=
  let d := r.desc
  let rows := d.tileRows t.mt
  let m0 := d.row0 t.mt
  let val (e : Nat) : FpVal × Nat × Nat := NMap.getD t.work (.nan, 0, 0) e
  (r.tileMembers t).foldl (fun (out : NMap (Nat × Nat) × List Write × List (Nat × Nat × Nat)) x =>
    let (c, k, mem, n) := x
    let md := mem.desc
    if t.pois.contains k then out
    else if d.term = 6 then
      let rule : Nat := match d.epi.getLast? with | some e => e.vec | none => 0
      let q := md.quant rule m0 n ((List.range rows).map (fun i => (val (i * 16 + c)).1))
      let cs := md.csBase + (if d.cMcont then n * d.blocks + t.mt else t.mt * md.n + n)
      let m1 := ((List.range rows).zip q.1).foldl (fun m p => NMap.insert m (p.1 * 16 + c) (p.2.1, p.2.2 ||| (val (p.1 * 16 + c)).2.1)) out.1
      (m1, out.2.1 ++ [{ addr := cs, data := natLe 1 q.2.1 }], out.2.2 ++ ((List.range rows).map (fun i =>
        let bits := ((NMap.getD m1 (0, 0) (i * 16 + c)).2)
        elemStat k bits)))
    else
      let m1 := (List.range rows).foldl (fun m i =>
        let v := val (i * 16 + c)
        let z : Nat × Nat := if d.outFmt = 0xB then (v.2.2, 0) else md.convert (md.rbits (m0 + i) n) v.1
        NMap.insert m (i * 16 + c) (z.1, z.2 ||| v.2.1)) out.1
      (m1, out.2.1, out.2.2 ++ ((List.range rows).map (fun i => elemStat k (NMap.getD m1 (0, 0) (i * 16 + c)).2)))) ([], [], [])

/-- Elements `e0` on of a run of `total` that starts at an address, as stored (R128): a byte they share with elements of another tile
takes their bits only; the bits after the last element of a run are `fill`'s.
[DEDUCED, log entry 41; DESIGN CHOICE, log entry 42] -/
def packWrite (f base e0 total : Nat) (codes : List Nat) (fill : Nat) : Write :=
  let b := elemBits f
  let sh := e0 * b % 8
  let bits := sh + codes.length * b
  let size := (bits + 7) / 8
  let n := leNat (packRun f codes 0) <<< sh + (fill % 2 ^ (8 * size - bits)) <<< bits
  let top := if e0 + codes.length = total then 8 * size else bits
  let a := base + e0 * b / 8
  let bs := (List.range size).zip ((natLe size n).zip (natLe size (2 ^ top - 2 ^ sh)))
  let part := bs.filter (fun x => x.2.2 ≠ 0xFF)
  { addr := if sh = 0 then a else a + 1
    data := (bs.filter (fun x => x.2.2 = 0xFF)).map (fun x => x.2.1)
    bits := part.map (fun x => (a + x.1, x.2)) }

/-- Output writes of a tile: runs of N, or of M with C_MCONT; `fill` gives bits of a last byte that no element covers. -/
def SpinRun.runWrites (r : SpinRun) (t : TileRun) (codes : NMap (Nat × Nat)) (fill : Nat) : List Write :=
  let d := r.desc
  let rows := d.tileRows t.mt
  let m0 := d.row0 t.mt
  let code (e : Nat) : Nat := (NMap.getD codes (0, 0) e).1
  let ms := (r.tileMembers t).filter (fun x => !t.pois.contains x.2.1)
  if d.cMcont then
    ms.map (fun x =>
      let (c, _, mem, n) := x
      packWrite d.outFmt (mem.desc.cBase + n * mem.desc.cStride) m0 d.m ((List.range rows).map (fun i => code (i * 16 + c))) fill)
  else
    let ks := (ms.map (fun x => x.2.1)).eraseDups
    ks.flatMap (fun k =>
      let cs := ms.filter (fun x => x.2.1 = k)
      match cs with
      | [] => []
      | (_, _, mem, n) :: _ => (List.range rows).map (fun i =>
          packWrite d.outFmt (mem.desc.cBase + (m0 + i) * mem.desc.cStride) n mem.desc.n (cs.map (fun x => code (i * 16 + x.1))) fill))

/-- Candidates of a tile join the running lists (R151). -/
def SpinRun.joinLists (r : SpinRun) (t : TileRun) (lists : NMap (List ListEnt)) : NMap (List ListEnt) :=
  let d := r.desc
  (r.tileMembers t).foldl (fun m x =>
    let (c, k, mem, n) := x
    (List.range (d.tileRows t.mt)).foldl (fun m i =>
      let v := NMap.getD t.work (.nan, 0, 0) (i * 16 + c)
      let z := mem.desc.convert none v.1
      let key := i * 16 + k
      NMap.put m [] key (d.join (NMap.getD m [] key) [(z.1, (mem.desc.indexBase + n) % 2 ^ 32, z.2 ||| v.2.1)])) m) lists

/-- A strip ends: its lists are written, at offset 0 where it is the only segment (R152); FLAGGED counts entries of a final list. -/
def SpinRun.stripDrain (r : SpinRun) (t : TileRun) (lists : NMap (List ListEnt)) : Drain :=
  let d := r.desc
  let off := if d.nSeg = 1 then 0 else (t.seg + 1) * 8 * d.listK
  let ks := (r.members.map (fun m => m.num)).filter (fun k => !t.pois.contains k)
  let each := ks.flatMap (fun k => (List.range (d.tileRows t.mt)).map (fun i => (k, i)))
  let ent (x : Nat × Nat) : List ListEnt := NMap.getD lists [] (x.2 * 16 + x.1)
  let mem (k : Nat) : PatDesc := r.memberDesc k
  { set := t.set, spin := r.id, unit := t.unit, mt := t.mt, ends := if d.nSeg = 1 then 2 else 3
    writes := each.map (fun x => { addr := (mem x.1).cBase + (d.row0 t.mt + x.2) * (mem x.1).cStride + off, data := d.listBytes (ent x) })
    stats := each.map (fun x => (x.1, (ent x).foldl (fun b e => b ||| e.2.2) 0,
      if d.nSeg = 1 then ((ent x).filter (fun e => e.2.2 &&& (asOVF + asNAN_OUT) ≠ 0)).length else 0)) }

end Sys2Proof.Machine
end

