-- ==== Sys2Proof/Machine/Fills.lean ====
section
/-! DEFINITION. What a hank reads: the places of its operands, epilogue values and lists, the reads and what comes of them
(04_spindle_array.md R102-R106; 05_spindle_arithmetic.md R128, R130, R148, R149, R152, R154-R157; 09_memory_integrity.md R279). -/
namespace Sys2Proof.Machine

/-! ### Places -/

/-- Elements `e0` on of a run at an address (R128): the bytes that hold them. -/
def elemPiece (f base e0 n : Nat) : Piece :=
  let b := elemBits f
  some (base + e0 * b / 8, (e0 * b % 8 + n * b + 7) / 8)

/-- Those elements out of the bytes, the first in the lowest bits. -/
def elemBytesOf (f e0 n : Nat) (bs : List Byte) : List Byte := natLe ((n * elemBits f + 7) / 8) (leNat bs >>> (e0 * elemBits f % 8))

/-- Block scales of a run of K elements (R130). -/
def PatDesc.scales (d : PatDesc) : Nat := (d.k + 31) / 32

/-- The scale bytes of elements `e0` on of a run whose scales start at an address. -/
def scalePiece (mx : Bool) (base e0 n : Nat) : Piece := if mx then some (base + e0 / 32, (e0 + n - 1) / 32 - e0 / 32 + 1) else none

/-- K index of the first element of a step (R106, R157). -/
def PatDesc.kIndex (d : PatDesc) (at_ : Nat) : Nat :=
  if d.shift then
    let (dy, g, dx) := d.tap at_
    (dy * d.ks + dx) * d.cIn + g * d.depth
  else at_ * d.depth

/-- Rows of a tile that a row bobbin feeds. -/
def PatDesc.bobRows (d : PatDesc) (w : Nat) (t : TileRun) (b : Nat) : List (Option Nat) :=
  let us := usedRows w
  let k := (us.takeWhile (fun x => x ≠ b)).length
  (List.range 2).map (fun l =>
    let r := 2 * (t.group * us.length + k) + l
    if r < d.tileRows t.mt then some r else none)

/-- Columns of a tile that a column bobbin feeds, with the member each belongs to and its column there. -/
def SpinRun.bobCols (r : SpinRun) (t : TileRun) (b : Nat) : List (Option (Nat × PatDesc × Nat)) :=
  (List.range 4).map (fun x =>
    let c := 4 * (b - 16) + x
    if r.desc.tileCols t.nt ≤ c then none
    else (r.memberAt (16 * t.nt + c)).map (fun m => (m.1, m.2.desc, 16 * t.nt + c - m.2.col0)))

/-- The place of a pixel of the input map at a step (R157). -/
def PatDesc.pixelPiece (d : PatDesc) (mt at_ l : Nat) : Piece :=
  let (dy, g, dx) := d.tap at_
  let x := 32 * (mt % d.rowTiles) + l + dx * d.dil - d.padX
  let y := mt / d.rowTiles + dy * d.dil - d.padY
  elemPiece d.aFmt (d.aBase + y * d.aStride) (x * d.cIn + g * d.depth) (d.stepSpan at_)

/-- What a bobbin reads for a step: two pieces for each of its rows or columns, elements and scales; one for each new pixel. -/
def SpinRun.slicePieces (r : SpinRun) (w : Nat) (t : TileRun) (b at_ : Nat) : List Piece :=
  let d := r.desc
  let n := d.stepSpan at_
  let e0 := d.kIndex at_
  if b < 16 then
    (d.bobRows w t b).flatMap (fun x => match x with
      | none => [none, none]
      | some i =>
        let m := d.row0 t.mt + i
        [elemPiece d.aFmt (d.aBase + m * d.aStride) e0 n, scalePiece d.aMx (d.aScale + m * d.scales) e0 n])
  else if b < 20 then
    (r.bobCols t b).flatMap (fun x => match x with
      | none => [none, none]
      | some (_, md, c) => [elemPiece d.bFmt (md.bBase + c * md.bStride) e0 n, scalePiece d.bMx (md.bScale + c * d.scales) e0 n])
  else ((d.newLanes at_).filter (d.inMap t.mt at_)).map (d.pixelPiece t.mt at_)

/-- The slice those pieces make. -/
def SpinRun.sliceOf (r : SpinRun) (t : TileRun) (b at_ : Nat) (bs : List (List Byte)) : Slice :=
  let d := r.desc
  let n := d.stepSpan at_
  let e0 := d.kIndex at_
  if b = 20 then
    let ls := (d.newLanes at_).filter (d.inMap t.mt at_)
    let (_, g, dx) := d.tap at_
    { runs := (ls.zip bs).map (fun x =>
        elemBytesOf d.aFmt ((32 * (t.mt % d.rowTiles) + x.1 + dx * d.dil - d.padX) * d.cIn + g * d.depth) n x.2), scales := [] }
  else
    let f := if b < 16 then d.aFmt else d.bFmt
    let mx := if b < 16 then d.aMx else d.bMx
    let lines := List.range (bs.length / 2)
    { runs := lines.map (fun i => elemBytesOf f e0 n (bs.getD (2 * i) []))
      scales := if mx then lines.map (fun i => (List.range n).map (fun e => ((bs.getD (2 * i + 1) [])[(e0 + e) / 32 - e0 / 32]?.getD 0x7F).toNat)) else [] }

/-- Runs of an output-shaped region in a tile (R128, R156): the piece, its first element, its format, the elements of the tile (row × 16 +
column) it holds, the member. -/
def SpinRun.outRuns (r : SpinRun) (t : TileRun) (base stride : PatDesc → Nat) (f : Nat) : List (Piece × Nat × List Nat × Nat) :=
  let d := r.desc
  let rows := d.tileRows t.mt
  let m0 := d.row0 t.mt
  let ms := r.tileMembers t
  if d.cMcont then
    ms.map (fun x =>
      let (c, k, mem, n) := x
      (elemPiece f (base mem.desc + n * stride mem.desc) m0 rows, m0, (List.range rows).map (fun i => i * 16 + c), k))
  else
    ((ms.map (fun x => x.2.1)).eraseDups).flatMap (fun k =>
      let cs := ms.filter (fun x => x.2.1 = k)
      match cs with
      | [] => []
      | (_, _, mem, n) :: _ => (List.range rows).map (fun i =>
          (elemPiece f (base mem.desc + (m0 + i) * stride mem.desc) n cs.length, n, cs.map (fun x => i * 16 + x.1), k)))

/-- The runs of the initial values, of the residual. -/
def SpinRun.initRuns (r : SpinRun) (t : TileRun) : List (Piece × Nat × List Nat × Nat) :=
  r.outRuns t (fun d => d.cBase) (fun d => d.cStride) r.desc.outFmt
def SpinRun.residRuns (r : SpinRun) (t : TileRun) : List (Piece × Nat × List Nat × Nat) :=
  r.outRuns t (fun d => d.resBase) (fun d => d.resStride) r.desc.resFmt

/-- Values of a tile's elements out of their runs. -/
def runVals (f : Nat) (rs : List (Piece × Nat × List Nat × Nat)) (bs : List (List Byte)) : List Nat :=
  let m : NMap Nat := (rs.zip bs).foldl (fun m x =>
    let v := leNat (elemBytesOf f x.1.2.1 x.1.2.2.1.length x.2)
    ((List.range x.1.2.2.1.length).zip x.1.2.2.1).foldl (fun m y => NMap.insert m y.2 (elemAt f v y.1)) m) []
  (List.range 512).map (fun i => NMap.getD m 0 i)

/-- A vector's runs (R148): one by rows, or one for each member's columns, each with its first place and the member. -/
def SpinRun.vecRuns (r : SpinRun) (t : TileRun) (v sh : Nat) : List (Piece × Nat × Nat × Option Nat) :=
  let d := r.desc
  let base := if v = 1 then d.vec1 else d.vec0
  if sh = 1 then [(some (base + 4 * d.row0 t.mt, 4 * d.tileRows t.mt), 0, d.tileRows t.mt, none)]
  else
    let ms := r.tileMembers t
    ((ms.map (fun x => x.2.1)).eraseDups).filterMap (fun k =>
      let cs := ms.filter (fun x => x.2.1 = k)
      cs.head?.map (fun x => (some (base + 4 * x.2.2.2, 4 * cs.length), x.1, cs.length, some k)))

/-- Values of a vector by row or column of the tile. -/
def vecVals (rs : List (Piece × Nat × Nat × Option Nat)) (bs : List (List Byte)) : List Nat :=
  let m : NMap Nat := (rs.zip bs).foldl (fun m x =>
    (List.range x.1.2.2.1).foldl (fun m i => NMap.insert m (x.1.2.1 + i) (fieldAt x.2 (4 * i) 4)) m) []
  (List.range 32).map (fun i => NMap.getD m 0 i)

/-- The lists a merge reads (R152): of each row of each member, those of the other segments. -/
def SpinRun.mergePieces (r : SpinRun) (mt unit : Nat) : List Piece :=
  let d := r.desc
  let own := (d.unitAt unit).2
  (r.members.filter (fun m => !m.stop)).flatMap (fun m => (List.range (d.tileRows mt)).flatMap (fun i =>
    ((List.range d.nSeg).filter (fun g => g ≠ own)).map (fun g =>
      some (m.desc.cBase + (d.row0 mt + i) * m.desc.cStride + (g + 1) * 8 * d.listK, 8 * d.listK))))

/-! ### Reads -/

/-- Slices and reads a bobbin of a hank has before it: those in it. -/
def State.heldSteps (s : State) (n b : Nat) : Nat := (NMap.getD (s.hank n).bobs [] b).length

/-- A fill of a kind is under way for a hank. -/
def State.filling (s : State) (n : Nat) (f : Fill) : Bool := s.dsp.fills.any (fun x => x.fill = some f && x.goesTo.contains n)

/-- The step of the walk a bobbin of a hank takes next, where it has room within the lookahead (R105).
[DEDUCED, log entry 233] -/
def State.nextFill (s : State) (n : Nat) (r : SpinRun) (b : Nat) : Option (TileRun × Nat) :=
  match (s.hank n).run with
  | none => none
  | some t =>
    let held := s.heldSteps n b
    if t.spin = r.id && (r.desc.bobsNeeded (s.spindles n) t).contains b && held < s.fld (pg cBOB n) PgBOB.CFG_LOOKAHEAD
        && t.step + held < r.desc.steps && !s.filling n (.slice b) then some (t, r.desc.walkOf t (t.step + held)) else none

/-- Hanks a column slice goes to (R103): with SHARED_B every hank of the set whose bobbin takes the same step of the same columns next. -/
def State.sharers (s : State) (n : Nat) (r : SpinRun) (b nt at_ : Nat) : List Nat :=
  if !(r.desc.flag 10 && 16 ≤ b && b < 20) then [n]
  else n :: r.hanks.filter (fun k => k ≠ n && (match s.nextFill k r b with | some (t, a) => t.nt = nt && a = at_ | none => false))

/-- The fill a hank may start now. -/
def State.fillFor (s : State) (n : Nat) (r : SpinRun) (t : TileRun) (f : Fill) : Option FillRun :=
  let d := r.desc
  let h := s.hank n
  let mk (at_ : Nat) (ps : List Piece) (goesTo : List Nat) : FillRun :=
    { id := s.dsp.nextFill, hank := n, spin := r.id, fill := some f, at_ := at_, mt := t.mt, unit := t.unit, pieces := ps, goesTo := goesTo }
  let once (want : Bool) (key : Nat) (ps : List Piece) : Option FillRun :=
    if want && (NMap.find? h.tileIn key).isNone && !s.filling n f then some (mk 0 ps [n]) else none
  match f with
  | .slice b => (s.nextFill n r b).map (fun x => mk x.2 (r.slicePieces (s.spindles n) t b x.2) (s.sharers n r b t.nt x.2))
  | .init => once d.accInit 0 ((r.initRuns t).map Prod.fst)
  | .resid => once (d.has 4) 1 ((r.residRuns t).map Prod.fst)
  | .vec v sh => once (d.epi.any (fun e => e.code ≤ 2 && e.shape = sh && e.vec = v && e.shape ≠ 0)) (2 + 2 * v + (sh - 1)) ((r.vecRuns t v sh).map Prod.fst)
  | .act => if d.has 3 && (NMap.find? h.acts r.id).isNone && !s.filling n f then some (mk 0 [some (d.actTable, 1024)] [n]) else none

/-- The accesses of a fill, through the partition's windows (R154). -/
def State.fillParts (s : State) (p : Nat) (ps : List Piece) : Option (List Part) :=
  (ps.flatMap (fun x => match x with
    | none => []
    | some (a, len) => (cutsOf a len).map (fun c => (a + c.1, c.2)))).mapM (fun c =>
      (s.regWindow p c.1).map (fun a => ({ addr := a, len := c.2, op := .read } : Part)))

/-- A fill's reads are issued (R103): its own slice by the local port, every other by its router.
[DESIGN CHOICE, log entry 228] -/
def State.fillIssue (s : State) (r : SpinRun) (cls : Nat) (f : FillRun) : State :=
  let s1 : State := { s with dsp := { s.dsp with fills := s.dsp.fills ++ [f], nextFill := s.dsp.nextFill + 1 } }
  match s1.fillParts r.part f.pieces with
  | none => s1.fillBack f.id tsACCESS []
  | some ps => s1.serveParts (.fill f.id) f.hank r.part cls 0 .plain 5 ps

/-- Some byte of a fill comes by the local port of the hank's own slice (R103, R104). -/
def State.fillLocal (s : State) (r : SpinRun) (f : FillRun) : Bool :=
  match s.fillParts r.part f.pieces with
  | none => false
  | some ps => ps.any (fun x => s.ownSlice
      { acc := ⟨0, f.hank, r.part, none, x.addr, x.len, 1, 0, false, none, false⟩, op := x.op, coh := .plain, agent := 5, sector := false })

/-! ### What comes -/

/-- Bytes and poison of each piece, out of those of its accesses. -/
def pieceData : List Piece → List (List Byte × Nat) → List (List Byte × Bool)
  | [], _ => []
  | none :: ps, xs => ([], false) :: pieceData ps xs
  | some (a, len) :: ps, xs =>
    let k := (cutsOf a len).length
    (((xs.take k).map Prod.fst).flatten, (xs.take k).any (fun x => x.2 ≠ 0)) :: pieceData ps (xs.drop k)

/-- Members a piece of a fill belongs to: of a column, an output run or a vector by columns that member, else all. -/
def SpinRun.pieceOf (r : SpinRun) (t : TileRun) (f : Fill) (i : Nat) : List Nat :=
  let all := r.members.map (fun m => m.num)
  let one (k : Option Nat) : List Nat := match k with | some k => [k] | none => []
  match f with
  | .slice b => if 16 ≤ b && b < 20 then one (((r.bobCols t b).getD (i / 2) none).map (fun x => x.1)) else all
  | .init => one (((r.initRuns t)[i]?).map (fun x => x.2.2.2))
  | .resid => one (((r.residRuns t)[i]?).map (fun x => x.2.2.2))
  | .vec v sh => (match (r.vecRuns t v sh)[i]? with | some (_, _, _, some k) => [k] | _ => all)
  | .act => all

/-- Members met poison, or a read of theirs failed (09_memory_integrity.md R279): the tile writes nothing for them, no further one starts for
them; once that is so of all, no further tile of the run starts.
[DESIGN CHOICE, log entry 228] -/
def State.fillFails (s : State) (n : Nat) (r : SpinRun) (ks : List Nat) (status : Nat) : State :=
  let s1 := ks.foldl (fun s k => match r.member? k with | some m => s.taskErr (some m.task) status | none => s) s
  let ms := r.members.map (fun (m : SpinMember) => if ks.contains m.num then { m with stop := true } else m)
  let s2 := s1.putSpin { r with members := ms, stop := r.stop || ms.all (fun m => m.stop) }
  let h := s2.hank n
  match h.run with
  | none => s2
  | some t => if t.spin ≠ r.id then s2 else s2.setHank n { h with run := some { t with pois := (t.pois ++ ks).eraseDups } }

/-- A malformed ACT table ends the SPIN before the hank's first tile writes anything (05_spindle_arithmetic.md R149). -/
def State.actBad (s : State) (n : Nat) (r : SpinRun) : State :=
  let s1 := (r.members.foldl (fun s m => s.taskErr (some m.task) 0x47) s).putSpin { r with stop := true }
  (s1.setHank n { s1.hank n with run := none, tileIn := [], lists := [] }).hankWork n

/-- What a fill brings is put in its bobbin or buffer. -/
def State.fillPut (s : State) (n : Nat) (r : SpinRun) (t : TileRun) (f : FillRun) (ok : Bool) (bs : List (List Byte)) : State :=
  let h := s.hank n
  match f.fill with
  | none => s
  | some (.slice b) => s.setHank n (r.desc.takeSlice h b f.at_ (r.sliceOf t b f.at_ bs))
  | some .init => s.setHank n { h with tileIn := NMap.insert h.tileIn 0 (runVals r.desc.outFmt (r.initRuns t) bs) }
  | some .resid => s.setHank n { h with tileIn := NMap.insert h.tileIn 1 (runVals r.desc.resFmt (r.residRuns t) bs) }
  | some (.vec v sh) => s.setHank n { h with tileIn := NMap.insert h.tileIn (2 + 2 * v + (sh - 1)) (vecVals (r.vecRuns t v sh) bs) }
  | some .act =>
    let tab := actOf (bs.headD [])
    if ok && !actOk tab then s.actBad n r else s.setHank n { h with acts := NMap.insert h.acts r.id tab }

/-- A fill's bytes reach a hank: put, and what poison or a failed read does. -/
def State.fillCome (s : State) (n : Nat) (f : FillRun) (status : Nat) (xs : List (List Byte × Bool)) : State :=
  match s.spin? f.spin, (s.hank n).run, f.fill with
  | some r, some t, some k =>
    if t.spin ≠ f.spin then s
    else
      let bad := if status ≠ 0 then r.members.map (fun m => m.num)
        else (((List.range xs.length).zip xs).flatMap (fun x => if x.2.2 then r.pieceOf t k x.1 else [])).eraseDups
      let s1 := s.fillPut n r t f (bad = []) (xs.map Prod.fst)
      if bad = [] then s1 else s1.fillFails n r bad (if status ≠ 0 then status else tsPOISON)
  | _, _, _ => s

/-- Columns of a member in a segment. -/
def SpinRun.segCols (r : SpinRun) (m : SpinMember) (g : Nat) : Nat :=
  min (16 * r.desc.seg0 (g + 1)) (m.col0 + m.desc.n) - max (16 * r.desc.seg0 g) m.col0

/-- The merged list of a row of a member (R152), from its segments' lists: its own as kept, the others as read, in order. -/
def SpinRun.mergeRow (r : SpinRun) (mt own : Nat) (m : SpinMember) (i : Nat) (read : List (List Byte)) : List ListEnt :=
  let d := r.desc
  ((List.range d.nSeg).foldl (fun (x : List ListEnt × List (List Byte)) g =>
    let known := NMap.getD r.segLists [] ((mt * 64 + g) * 512 + i * 16 + m.num)
    if g = own then (d.join x.1 known, x.2)
    else
      let es := (listOf (x.2.headD []) d.listK).take (r.segCols m g)
      (d.join x.1 (es.map (fun e => (e.1, e.2, match known.find? (fun y => y.1 = e.1 && y.2.1 = e.2) with | some y => y.2.2 | none => 0))), x.2.drop 1))
    ([], read)).1

/-- The merge of an M tile (R152): the lists of each row of each member, read in order, give one list at offset 0. -/
def State.mergeLists (s : State) (n : Nat) (r : SpinRun) (mt unit : Nat) (data : List (List Byte)) : State :=
  let d := r.desc
  let rows := d.tileRows mt
  let own := (d.unitAt unit).2
  let ms := r.members.filter (fun m => !m.stop)
  let each := ((List.range ms.length).zip ms).flatMap (fun m => (List.range rows).map (fun i =>
    (m.2, i, r.mergeRow mt own m.2 i ((data.drop ((m.1 * rows + i) * (d.nSeg - 1))).take (d.nSeg - 1)))))
  let dr : Drain :=
    { set := 2, spin := r.id, unit := unit, mt := mt, ends := 2
      writes := each.map (fun x => { addr := x.1.desc.cBase + (d.row0 mt + x.2.1) * x.1.desc.cStride, data := d.listBytes x.2.2 })
      stats := each.map (fun x => (x.1.num, x.2.2.foldl (fun b e => b ||| e.2.2) 0,
        (x.2.2.filter (fun e => e.2.2 &&& (asOVF + asNAN_OUT) ≠ 0)).length)) }
  let h := s.hank n
  ((s.putSpin { r with merges := r.merges.filter (fun m => m.2.1 ≠ mt) }).setHank n { h with drains := h.drains ++ [dr] }).hankWork n

/-- A merge has its lists: they are merged; poison, or a read that failed, ends the run's tiles (09_memory_integrity.md R279). -/
def State.mergeCome (s : State) (n : Nat) (f : FillRun) (status : Nat) (xs : List (List Byte × Bool)) : State :=
  match s.spin? f.spin with
  | none => s
  | some r =>
    if status ≠ 0 || xs.any Prod.snd then
      s.fillFails n { r with merges := r.merges.filter (fun m => m.2.1 ≠ f.mt) } (r.members.map (fun m => m.num)) (if status ≠ 0 then status else tsPOISON)
    else s.mergeLists n r f.mt f.unit (xs.map Prod.fst)

/-- What has come is taken by the hanks it is for. -/
def State.fillsGo (s : State) : State :=
  (s.dsp.fills.filter (fun f => f.got.isSome)).foldl (fun s f =>
    match f.got with
    | none => s
    | some (status, parts) =>
      let xs := if status ≠ 0 then [] else pieceData f.pieces parts
      let s1 : State := { s with dsp := { s.dsp with fills := s.dsp.fills.filter (fun x => x.id ≠ f.id) } }
      f.goesTo.foldl (fun s n => if f.fill = none then s.mergeCome n f status xs else s.fillCome n f status xs) s1) s

end Sys2Proof.Machine
end

