-- ==== Sys2Proof/Machine/Gather.lean ====
section
/-! DEFINITION. The gather engines of the slices (07_skein_memory.md R214-R218, R230): descriptors, index and row reads, window answers. -/
namespace Sys2Proof.Machine

/-- The fields of a gather descriptor's 64 bytes (R216). -/
def gatherDecode (b : List Byte) : GatherDesc :=
  ⟨fieldAt b 0x00 8, fieldAt b 0x08 8, fieldAt b 0x10 4, fieldAt b 0x14 4, fieldAt b 0x18 4, fieldAt b 0x1C 2, fieldAt b 0x1E 1⟩

/-- A descriptor keeps the rules of R216: its CHECK, its reserved bytes, its ranges. -/
def gatherOk (b : List Byte) : Bool :=
  let d := gatherDecode b
  b.length = 64 && Sys2Proof.Machine.checkOk b && ((b.take 0x3C).drop 0x1F).all (fun x => x = 0)
    && decide (1 ≤ d.tableRows) && decide (1 ≤ d.count) && decide (d.count * d.rowBytes ≤ 2 ^ 24)
    && d.rowStride % 32 = 0 && d.rowBytes % 32 = 0 && decide (32 ≤ d.rowBytes) && decide (d.rowBytes ≤ 256)
    && decide (d.rowBytes ≤ d.rowStride) && decide (d.idxW ≤ 1)

/-- A slot is faulted: GATHER_FAULT is set, and the reads held for its descriptor fail (R217). -/
def State.gatherFault (s : State) (n slot : Nat) : State :=
  let g := s.gatherSt n slot
  let s1 := (s.setGather n slot { g with faulted := true, desc := none, loads := g.loads.filter (fun l => !l.current) }).setInt (pg cSKN n) 3
  ((g.loads.filter (fun l => l.current)).flatMap GatherLoad.held).foldl (fun s h => s.respond h.1 tsACCESS [] 0) s1

/-- The region address of a slot's descriptor (R217, R229): a window offset, in the T0 or the T2 window. -/
def State.gatherAddr (s : State) (n slot : Nat) : Nat :=
  let p := pg cSKN n
  s.fld p (PgSKN.GATHER_WIN slot) * 2 ^ 63 + s.fld p (PgSKN.GATHER_DESC slot)

/-- A write of GATHER s (R217, R218, R229): with ENABLE = 1 the engine reads the descriptor through PART's windows; a DESC that is not
64-byte aligned or lies outside them faults the slot. Window reads accepted before go on under the descriptor they had. -/
def State.gatherWrite (s : State) (n slot data : Nat) : State :=
  let p := pg cSKN n
  let g := s.gatherSt n slot
  let keep := natBits data 63 62 <<< 62 + natBits data 55 52 <<< 52 + natBits data 47 0
  let s1 := s.setWord p (0x1B8 + 8 * slot) (BitVec.ofNat 64 keep)
  let loads := (g.loads.filter (fun l => l.held ≠ [])).map (fun (l : GatherLoad) => { l with current := false })
  if !natBit data 62 then s1.setGather n slot { g with faulted := false, desc := none, loads := loads }
  else
    let part := natBits data 55 52
    let s2 := s1.setGather n slot { g with faulted := false, desc := none, loads := loads ++ [{ id := g.next, part := part }], next := g.next + 1 }
    let a := s2.gatherAddr n slot
    match s2.regWindow part a with
    | none => s2.gatherFault n slot
    | some x =>
      if natBits data 5 0 ≠ 0 || !s2.regInside part a 64 then s2.gatherFault n slot
      else s2.serveParts (.gatherDesc n slot g.next) n part 1 0 .plain 5 [{ addr := x, len := 64, op := .read }]

/-- A descriptor load ends (R217): the slot becomes usable or faulted; the reads that waited for it go on under it, as do those of a load that
a later write of the slot superseded. A poisoned descriptor is as one that fails its CHECK.
[DESIGN CHOICE, log entry 225] -/
def State.gatherLoaded (s : State) (n slot : Nat) : State :=
  let g := s.gatherSt n slot
  match g.loads.find? (fun l => l.raw.isSome) with
  | none => s
  | some l =>
    let rest := g.loads.filter (fun k => k.id ≠ l.id)
    match l.raw with
    | none => s
    | some (status, b, pois) =>
      if status ≠ 0 || pois ≠ 0 || !gatherOk b then
        if l.current then s.gatherFault n slot
        else l.held.foldl (fun s h => s.respond h.1 tsACCESS [] 0) (s.setGather n slot { g with loads := rest })
      else
        let d := gatherDecode b
        let s1 := s.setGather n slot { g with loads := rest, desc := if l.current then some d else g.desc }
        l.held.foldl (fun s h => s.gatherTake n slot l.part d h.1 h.2) s1

/-! ### Reads of the index list and of rows (R215, R218) -/

/-- Sector reads a slice's engine has outstanding. -/
def State.gatherOut (s : State) (n : Nat) : Nat :=
  ((List.range 4).map (fun k => ((s.gatherSt n k).open_.map (fun o => o.asked - o.got.length)).foldl (· + ·) 0)).foldl (· + ·) 0

/-- Stores a window read. -/
def State.putGatherRead (s : State) (n slot : Nat) (o : GatherRead) : State :=
  let g := s.gatherSt n slot
  s.setGather n slot { g with open_ := g.open_.map (fun x => if x.id = o.id then o else x) }

/-- Parts of a run of bytes read through a partition's windows, by lines, or by sectors on the sector path (R214); `none` outside them. -/
def State.winReadParts (s : State) (part a len : Nat) (sector : Bool) : Option (List Part) :=
  if !s.regInside part a len then none
  else (lineCuts (if sector then 32 else 64) (a % 64) len (len / 32 + 2) 0).mapM (fun c => (s.regWindow part (a + c.1)).map (fun x =>
    ({ addr := x, len := c.2, op := .read, sector := sector } : Part)))

/-- A read the engine can send next: the index of a window read, or a sector of its row while fewer than 256 sector reads are out. Outside
PART's windows the window read fails with ACCESS. -/
def State.gatherAsk (s : State) (n slot : Nat) (o : GatherRead) : Option State :=
  let d := o.desc
  let fail := some (s.putGatherRead n slot { o with status := tsACCESS, idxAsked := true, asked := o.got.length })
  if o.status ≠ 0 then none
  else if !o.idxAsked then
    let w := if d.idxW = 0 then 4 else 8
    match s.winReadParts o.part (d.index + (o.off / d.rowBytes) * w) w false with
    | none => fail
    | some ps => some ((s.putGatherRead n slot { o with idxAsked := true }).serveParts (.gatherIdx n slot o.id) n o.part o.acc.cls 0 .plain 5 ps)
  else match o.idx with
    | none => none
    | some i =>
      if d.tableRows ≤ i || o.acc.len / 32 ≤ o.asked || 256 ≤ s.gatherOut n then none
      else match s.winReadParts o.part (d.table + i * d.rowStride + o.off % d.rowBytes + 32 * o.asked) 32 true with
        | none => fail
        | some ps =>
          some ((s.putGatherRead n slot { o with asked := o.asked + 1 }).serveParts (.gatherRow n slot o.id o.asked) n o.part o.acc.cls 0 .plain 5 ps)

/-- A window read is answered: its row is there, or names no row, or a read of it failed (R215, R230). -/
def State.gatherEnd (s : State) (n slot : Nat) (o : GatherRead) : Option State :=
  let g := s.gatherSt n slot
  let s1 := s.setGather n slot { g with open_ := g.open_.filter (fun x => x.id ≠ o.id) }
  if o.status ≠ 0 && o.asked ≤ o.got.length then some (s1.respond o.acc o.status [] 0)
  else match o.idx with
    | none => none
    | some i =>
      if o.desc.tableRows ≤ i then some ((s1.count (pg cSKN n) PgSKN.PERF_HOLD_GATHER_OOB 1).respond o.acc 0 (List.replicate o.acc.len 0) 0)
      else if o.got.length = o.acc.len / 32 then
        some (s1.respond o.acc 0 ((o.got.map (fun e => e.2.1)).flatten) (o.got.foldl (fun m e => if e.2.2 ≠ 0 then withBit m e.1 else m) 0))
      else none

/-- One move of the gather engines: in window order, an answer that is complete leaves, else a read is sent. -/
def State.gatherMove (s : State) : Option State :=
  s.mem.gather.findSome? (fun e => (s.gatherSt (e.1 / 4) (e.1 % 4)).open_.findSome? (fun o =>
    match s.gatherEnd (e.1 / 4) (e.1 % 4) o with
    | some u => some (u.busyIf (pg cSKN (e.1 / 4)) (decide (0 < u.openTxns (e.1 / 4)) || u.gatherBusy (e.1 / 4)))
    | none => s.gatherAsk (e.1 / 4) (e.1 % 4) o))

/-- The gather engines go on as far as they can. -/
def State.gatherGo (s : State) : Nat → State
  | 0 => s
  | fuel + 1 => match s.gatherMove with
    | some s1 => s1.gatherGo fuel
    | none => s

/-- Moves the open window reads can still make. -/
def State.gatherFuel (s : State) : Nat := (s.mem.gather.map (fun e => 12 * e.2.open_.length)).foldl (· + ·) 1

/-- An index line or row sector that has come reaches the engine (R218): the first status other than OK of a window read stands. -/
def State.gatherArrive (s : State) (n slot : Nat) : State :=
  let g := s.gatherSt n slot
  match g.arrived with
  | [] => s
  | (id, k, status, b, pois) :: rest =>
    s.setGather n slot { g with arrived := rest, open_ := g.open_.map (fun (o : GatherRead) =>
      if o.id ≠ id then o
      else
        let o1 := { o with status := if o.status = 0 then status else o.status }
        match k with
        | none => if status = 0 then (if pois ≠ 0 then { o1 with status := tsPOISON } else { o1 with idx := some (leNat b) }) else o1
        | some k => { o1 with got := NMap.insert o.got k (b, pois) }) }

end Sys2Proof.Machine
end

