-- ==== Sys2Proof/Machine/Collective.lean ====
section
/-! DEFINITION. The collective engine (15_milestone_schedule.md R478-R483), and what goes on by itself after any happening at the homes. -/
namespace Sys2Proof.Machine

/-! ### Plies (R478, R479) -/

/-- Size of a dimension of the torus, and whether it wraps. -/
def State.dimSize (s : State) (d : Nat) : Nat :=
  1 + (if d = 0 then s.fld (pg cFAB 0) PgFAB.TOPO_SZ_X else if d = 1 then s.fld (pg cFAB 0) PgFAB.TOPO_SZ_Y else s.fld (pg cFAB 0) PgFAB.TOPO_SZ_Z)
def State.dimWrap (s : State) (d : Nat) : Bool := natBit (s.fld (pg cFAB 0) PgFAB.TOPO_WRAP) d

/-- Coordinate of a node in a dimension; a node of coordinates. -/
def coord (n d : Nat) : Nat := natBits n (6 * d + 5) (6 * d)

/-- Extent of a ply in a dimension, and the product of all. -/
def Ply.ext (p : Ply) (d : Nat) : Nat := 1 + coord p.extent d
def Ply.members (p : Ply) : Nat := p.ext 0 * p.ext 1 * p.ext 2

/-- Ring coordinate of a node (R479). -/
def State.ringCoord (s : State) (p : Ply) (n d : Nat) : Nat := (coord n d + s.dimSize d - coord p.origin d % s.dimSize d) % s.dimSize d
def State.isMember (s : State) (p : Ply) (n : Nat) : Bool := (List.range 3).all (fun d => decide (s.ringCoord p n d < p.ext d))

/-- Rank of ring coordinates, x fastest (R479), and back. -/
def Ply.rankOf (p : Ply) (c : Nat → Nat) : Nat := c 0 + p.ext 0 * (c 1 + p.ext 1 * c 2)
def Ply.coordOf (p : Ply) (rank d : Nat) : Nat :=
  if d = 0 then rank % p.ext 0 else if d = 1 then rank / p.ext 0 % p.ext 1 else rank / (p.ext 0 * p.ext 1)
def State.rank (s : State) (p : Ply) (n : Nat) : Nat := p.rankOf (s.ringCoord p n)
/-- The node of a rank. -/
def State.rankNode (s : State) (p : Ply) (rank : Nat) : Nat :=
  let c (d : Nat) : Nat := (p.coordOf rank d + coord p.origin d) % s.dimSize d
  c 0 + c 1 * 2 ^ 6 + c 2 * 2 ^ 12

/-- Stages in ORDER (R478). -/
def Ply.stages (p : Ply) : List Nat :=
  match p.order with
  | 0 => [0, 1, 2] | 1 => [0, 2, 1] | 2 => [1, 0, 2] | 3 => [1, 2, 0] | 4 => [2, 0, 1] | _ => [2, 1, 0]

/-- A ply descriptor that keeps R478 and R479, its CHECK apart. -/
def State.plyOf (s : State) (b : List Byte) : Option Ply :=
  let f (o n : Nat) : Nat := fieldAt b o n
  let p : Ply := { alg := f 1 1, sched := natBit (f 2 1) 0, part := f 3 1, job := f 4 2, origin := f 8 4, extent := f 0x0C 3, order := f 0x0F 1
                   scratch := f 0x10 8 }
  let okDim (d : Nat) : Bool := p.ext d ≤ s.dimSize d && (p.alg ≠ 0 || p.ext d = 1 || (p.ext d = s.dimSize d && s.dimWrap d))
  if f 0 1 = 1 && p.alg ≤ 1 && f 2 1 ≤ 1 && p.part < 16 && f 6 2 = 0 && p.origin < 2 ^ 18 && p.extent < 2 ^ 18 && p.order ≤ 5 && p.job ≠ 0
      && ((b.drop 0x18).take 36).all (fun x => x = 0) && (List.range 3).all okDim && (p.alg = 0 || decide (p.members ≤ 512))
      && (List.range 3).all (fun d => coord p.origin d < s.dimSize d)
  then some p else none

def State.ply? (s : State) (k : Nat) : Option Ply := NMap.getD s.mil.plies none k

/-! ### Steps (R481) -/

/-- Chunk `j` of `n` of a run of elements. -/
def chunkOf (l : List Nat) (n j : Nat) : List Nat := (l.drop (j * l.length / n)).take ((j + 1) * l.length / n - j * l.length / n)
/-- The PLUS half and the MINUS half. -/
def plusHalf (l : List Nat) : List Nat := l.take ((l.length + 1) / 2)
def minusHalf (l : List Nat) : List Nat := l.drop ((l.length + 1) / 2)
/-- What member `j` holds after a reduce-scatter stage. -/
def shardOf (l : List Nat) (n j : Nat) : List Nat := chunkOf (plusHalf l) n j ++ chunkOf (minusHalf l) n j

/-- The buffer a member of given coordinates holds before stage `k`, and after all. -/
def Ply.bufAt (p : Ply) (c : Nat → Nat) (all : List Nat) (k : Nat) : List Nat := (p.stages.take k).foldl (fun l d => shardOf l (p.ext d) (c d)) all
def Ply.shard (p : Ply) (c : Nat → Nat) (all : List Nat) : List Nat := p.bufAt c all 3

/-- The rank `k` steps on from a member along a dimension (PLUS for k = 1). -/
def Ply.along (p : Ply) (c : Nat → Nat) (d k : Nat) : Nat := p.rankOf (fun e => if e = d then (c d + k) % p.ext d else c e)

/-- Reduce-scatter along a dimension: at step t, member m passes the partial of chunk m − 1 − t up the PLUS ring, of m + 1 + t down the MINUS ring. -/
def Ply.rsStage (p : Ply) (c : Nat → Nat) (d : Nat) (buf : List Nat) : List CollStep :=
  let n := p.ext d
  let m := c d
  let pl (j : Nat) : List Nat := chunkOf (plusHalf buf) n (j % n)
  let mi (j : Nat) : List Nat := chunkOf (minusHalf buf) n (j % n)
  (List.range (n - 1)).map (fun t =>
    { sends := [⟨p.along c d 1, pl (m + 2 * n - 1 - t)⟩, ⟨p.along c d (n - 1), mi (m + 1 + t)⟩]
      recvs := [⟨p.along c d (n - 1), pl (m + 2 * n - 2 - t)⟩, ⟨p.along c d 1, mi (m + 2 + t)⟩], combine := true })

/-- All-gather along a dimension of what each member holds: `plus j`, `minus j` are the two halves of member j's part. -/
def Ply.agStage (p : Ply) (c : Nat → Nat) (d : Nat) (plus minus : Nat → List Nat) : List CollStep :=
  let n := p.ext d
  let m := c d
  (List.range (n - 1)).map (fun t =>
    { sends := [⟨p.along c d 1, plus ((m + n - t) % n)⟩, ⟨p.along c d (n - 1), minus ((m + t) % n)⟩]
      recvs := [⟨p.along c d (n - 1), plus ((m + 2 * n - 1 - t) % n)⟩, ⟨p.along c d 1, minus ((m + 1 + t) % n)⟩], combine := false })

/-- A broadcast along a dimension, from coordinate 0 both ways; members whose later coordinates are not 0 take no part. -/
def Ply.bcStage (p : Ply) (c : Nat → Nat) (k : Nat) (all : List Nat) : List CollStep :=
  let d := p.stages.getD k 0
  let n := p.ext d
  let m := c d
  let on := (p.stages.drop (k + 1)).all (fun e => c e = 0)
  let msg (b : Bool) (l : List Nat) : List Nat := if b && on then l else []
  (List.range (n - 1)).map (fun t =>
    { sends := [⟨p.along c d 1, msg (m = t) (plusHalf all)⟩, ⟨p.along c d (n - 1), msg ((n - m) % n = t) (minusHalf all)⟩]
      recvs := [⟨p.along c d (n - 1), msg (m = t + 1) (plusHalf all)⟩, ⟨p.along c d 1, msg ((n - m) % n = t + 1) (minusHalf all)⟩], combine := false })

/-- Elements of rank `r` in the rank-order layout of `cnt` elements each. -/
def rankPart (cnt r : Nat) : List Nat := (List.range cnt).map (fun i => r * cnt + i)

/-- The elements of a reducing operation, in order. -/
def elems (cnt : Nat) : List Nat := List.range cnt

/-- The parts an all-gather along stage `k` passes on: of the ranks that agree with `c` outside the stages done, rank order. -/
def Ply.gathered (p : Ply) (c : Nat → Nat) (k cnt j : Nat) : List Nat :=
  let d := p.stages.getD k 0
  let done := p.stages.drop (k + 1)
  ((List.range p.members).filter (fun r => (List.range 3).all (fun e =>
    done.contains e || p.coordOf r e = (if e = d then j else c e)))).flatMap (rankPart cnt)

/-- Steps of a COLL at the member of rank coordinates `c` (R480, R481).
[DEDUCED, log entry 157] -/
def Ply.steps (p : Ply) (op cnt : Nat) (c : Nat → Nat) : List CollStep :=
  let me := p.rankOf c
  let n := p.members
  let others := (List.range n).filter (fun r => r ≠ me)
  let all := elems cnt
  let sh (r : Nat) : List Nat := p.shard (p.coordOf r) all
  if p.alg = 1 then
    if n ≤ 1 then []
    else match op with
      | 0 => [{ sends := others.map (fun r => ⟨r, all⟩), recvs := others.map (fun r => ⟨r, all⟩), combine := true }]
      | 1 => [{ sends := others.map (fun r => ⟨r, sh r⟩), recvs := others.map (fun r => ⟨r, sh me⟩), combine := true }]
      | 2 => [{ sends := others.map (fun r => ⟨r, rankPart cnt me⟩), recvs := others.map (fun r => ⟨r, rankPart cnt r⟩), combine := false }]
      | 3 => [{ sends := if me = 0 then others.map (fun r => ⟨r, all⟩) else [], recvs := if me = 0 then [] else [⟨0, all⟩], combine := false }]
      | _ => [{ sends := others.map (fun r => ⟨r, (chunkOf all n r)⟩)
                recvs := others.map (fun r => ⟨r, (chunkOf all n me).map (fun i => cnt * (r + 1) + i)⟩), combine := false }]
  else
    let rs := ((List.range 3).map (fun k => p.rsStage c (p.stages.getD k 0) (p.bufAt c all k))).flatten
    let ag := ([2, 1, 0].map (fun k =>
      let d := p.stages.getD k 0
      let buf := p.bufAt c all k
      p.agStage c d (fun j => chunkOf (plusHalf buf) (p.ext d) j) (fun j => chunkOf (minusHalf buf) (p.ext d) j))).flatten
    match op with
    | 0 => rs ++ ag
    | 1 => rs
    | 2 => ([2, 1, 0].map (fun k =>
        p.agStage c (p.stages.getD k 0) (fun j => plusHalf (p.gathered c k cnt j)) (fun j => minusHalf (p.gathered c k cnt j)))).flatten
    | _ => ((List.range 3).map (fun k => p.bcStage c k all)).flatten

/-- Elements of the input and of the result of a COLL, in order (R480). -/
def Ply.inputOf (p : Ply) (op cnt : Nat) (c : Nat → Nat) : List Nat :=
  if op = 2 then rankPart cnt (p.rankOf c) else if op = 3 && p.rankOf c ≠ 0 then [] else elems cnt
def Ply.resultOf (p : Ply) (op cnt : Nat) (c : Nat → Nat) : List Nat :=
  let me := p.rankOf c
  match op with
  | 1 => p.shard c (elems cnt)
  | 2 => (List.range p.members).flatMap (rankPart cnt)
  | 4 => (List.range p.members).flatMap (fun r => (chunkOf (elems cnt) p.members me).map (fun i => if r = me then i else cnt * (r + 1) + i))
  | _ => elems cnt

/-- Element type and reduction are ones the engine takes (R480, R482).
[DEDUCED, log entry 158] -/
def dtypeOk (op dt : Nat) : Bool :=
  let ty := dt % 16
  dt < 64 && ty ≤ 7 && (decide (2 ≤ op) || natBits dt 5 4 = 0 || (natBits dt 5 4 ≤ 2 && ty ≤ 4))

/-- ⊕ (R482): the received partial, then the member's own. -/
def collElem (dt m a : Nat) : Nat :=
  let ty := dt % 16
  match natBits dt 5 4 with
  | 0 => if ty = 7 then (xaddElem m a).1 else atomElem (if ty ≤ 3 then 0 else 1) ty m a
  | 1 => atomElem 2 ty m a
  | _ => atomElem 3 ty m a

/-! ### A COLL that runs -/

/-- Class of the engine's traffic (11_mesh_and_regulation.md R339, R340). -/
def State.collClass (s : State) (sched : Bool) : Nat := if sched then 0 else s.fld (pg cTOL 479) PgTOL.CLASS_CFG_DEFAULT_CLASS

/-- Bytes of the elements of a message, and the sectors of 32 bytes among them that carry a poisoned element. -/
def CollRun.bytesOf (c : CollRun) (idx : List Nat) : List Byte := idx.flatMap (fun i => natLe c.size (NMap.getD c.vals 0 i))
def CollRun.poisOf (c : CollRun) (idx : List Nat) : Nat :=
  ((List.range idx.length).zip idx).foldl (fun m (e : Nat × Nat) =>
    if c.pois.contains e.2 then (List.range c.size).foldl (fun m b => m ||| 2 ^ ((e.1 * c.size + b) / 32)) m else m) 0

/-- The offsets of the packets of a message. -/
def packetOffs (len : Nat) : List Nat := (List.range ((len + 255) / 256)).map (· * 256)

/-- A message of a step leaves: by COLL packets with ACKREQ (R483), or in a schedule slot of port `via.1` on its entry's strands.
[DESIGN CHOICE, log entry 156] -/
def State.collSend (s : State) (c : CollRun) (y : Ply) (k : Nat) (via : Option (Nat × SchedEnt)) : State :=
  match (c.steps[c.at_]?).bind (fun (t : CollStep) => t.sends[k]?) with
  | none => s
  | some m =>
    let data := c.bytesOf m.idx
    let pois := c.poisOf m.idx
    let dst := s.rankNode y m.rank
    (packetOffs data.length).foldl (fun (s : State) o =>
      let q : FabPkt := { ty := 5, sched := via.isSome, dl := false, ackReq := via.isNone, win := natBit y.scratch 63, dst := dst, dpart := y.part
                          src := s.node, spart := y.part, job := y.job, offset := o, e2e := o, arg16 := c.at_
                          poison := pois / 2 ^ (o / 32) % 256, hint := 0, arg32 := c.ply + k * 65536, data := (data.drop o).take 256 }
      match via with
      | none => s.e2eSend q none (some c.task) none
      | some (p, e) => (s.portSend p (e.strandOf (o / 256)) q).milCount p true) s

/-- A message of the present step has been received whole. -/
def CollRun.have (c : CollRun) (k : Nat) (m : CollMsg) : Bool :=
  decide (m.idx.length * c.size ≤ ((c.got.filter (fun g => g.1 = c.at_ && g.2.1 = k)).map (fun g => g.2.2.2.1.length)).foldl (· + ·) 0)

/-- Values a received message carries, with the elements that are poisoned. -/
def CollRun.gotVals (c : CollRun) (k : Nat) (m : CollMsg) : List (Nat × Nat) × List Nat :=
  let gs := (c.got.filter (fun g => g.1 = c.at_ && g.2.1 = k)).map (fun g => g.2.2)
  let bs := ((gs.foldl (fun (t : NMap (List Byte)) g => NMap.insert t g.1 g.2.1) []).map (fun e => e.2)).flatten
  let bad (i : Nat) : Bool := gs.any (fun g => (List.range c.size).any (fun b =>
    let o := i * c.size + b
    decide (g.1 ≤ o) && decide (o < g.1 + g.2.1.length) && natBit g.2.2 ((o - g.1) / 32)))
  (m.idx.zip (elemsOf c.size m.idx.length bs), ((List.range m.idx.length).zip m.idx).filterMap (fun (e : Nat × Nat) => if bad e.1 then some e.2 else none))

/-- What a step's messages make of the values held (R481): on a ring P ⊕ x; under DIRECT every contribution in ascending rank order. -/
def CollRun.stepVals (c : CollRun) (y : Ply) (me : Nat) (t : CollStep) : CollRun :=
  let rs := ((List.range t.recvs.length).zip t.recvs).map (fun (e : Nat × CollMsg) => (e.2.rank, c.gotVals e.1 e.2))
  let pois := c.pois ++ rs.flatMap (fun e => e.2.2)
  let set (vals : NMap Nat) (l : List (Nat × Nat)) : NMap Nat := l.foldl (fun m e => NMap.put m 0 e.1 e.2) vals
  if !t.combine then { c with vals := rs.foldl (fun v e => set v e.2.1) c.vals, pois := pois }
  else if y.alg = 0 then
    { c with pois := pois
             vals := rs.foldl (fun v e => set v (e.2.1.map (fun x => (x.1, collElem c.dtype x.2 (NMap.getD v 0 x.1))))) c.vals }
  else
    let idx := match t.recvs with | m :: _ => m.idx | [] => []
    let contrib (r i : Nat) : Nat := if r = me then NMap.getD c.vals 0 i else
      match rs.find? (fun e => e.1 = r) with | some e => ((e.2.1.find? (fun x => x.1 = i)).map (fun x => x.2)).getD 0 | none => 0
    let total (i : Nat) : Nat := (List.range (y.members - 1)).foldl (fun acc r => collElem c.dtype acc (contrib (r + 1) i)) (contrib 0 i)
    { c with pois := pois, vals := set c.vals (idx.map (fun i => (i, total i))) }

/-- Bytes combined, in units of 1,024 (R484). -/
def State.combined (s : State) (n : Nat) : State :=
  let t := s.mil.combined + n
  ({ s with mil := { s.mil with combined := t % 1024 } } : State).count pCOL PgCOL.PERF_COMBINED_KB (t / 1024)

/-- The result goes to DST (R480). -/
def State.collWrite (s : State) (c : CollRun) (y : Ply) : State :=
  let s1 := s.putColl { c with phase := 2 }
  let data := c.bytesOf c.result
  let pois := c.poisOf c.result
  let secs (o n : Nat) : Nat :=
    let hit (k : Nat) : Bool := (List.range n).any (fun i => natBit pois ((o + i) / 32) && ((c.dstBase + o + i) % 64) / 32 = k)
    b2n (hit 0) + 2 * b2n (hit 1)
  match bytesParts c.dstBase data.length (fun i => s.bufAddr y.part c.dstBase c.dstPages i) (fun o n => .write ((data.drop o).take n) (secs o n)) with
  | none => s1.collEnd c.task (if c.dstBase / 2 ^ 62 = 0 then tsXLATE_REFUSED else tsACCESS)
  | some ps => s1.serveParts (.collOut c.task) 479 y.part (s1.collClass y.sched) 0 .plain 5 ps

/-- One move of a COLL: its step's messages leave (an unscheduled ply), a step whose inputs are all there is taken, the result is written.
`none`: it waits. -/
def State.collMove (s : State) (c : CollRun) : Option State :=
  match s.ply? c.ply with
  | none => none
  | some y =>
    if c.phase ≠ 1 then none
    else match c.steps[c.at_]? with
      | none => some (s.collWrite c y)
      | some t =>
        if !y.sched && c.unsent ≠ [] then some (c.unsent.foldl (fun (s : State) k => s.collSend c y k none) (s.putColl { c with unsent := [] }))
        else if c.unsent = [] && ((List.range t.recvs.length).zip t.recvs).all (fun (e : Nat × CollMsg) => c.have e.1 e.2) then
          let c1 := c.stepVals y (s.rank y s.node) t
          let s1 := if t.combine then s.combined ((t.recvs.map (fun m => m.idx.length * c.size)).foldl (· + ·) 0) else s
          some (s1.putColl { c1 with at_ := c.at_ + 1, unsent := c.toSend (c.at_ + 1)
                                     got := c.got.filter (fun g => g.1 ≠ c.at_) })
        else none

/-- A COLL_SEND occurrence that has started and not gone sends its step's message once the engine stands at that step (R483).
[DEDUCED, log entry 157] -/
def State.collEntry (s : State) (p : Nat) (r : MilRun) : Option State :=
  match (s.milPort p).ent? r.ent with
  | none => none
  | some e =>
    if e.kind ≠ 3 || r.done || r.moved ≠ 0 then none
    else match s.mil.colls.find? (fun c => c.ply = e.src % 1024 && c.phase = 1 && c.at_ = natBits e.src 31 16) with
      | none => none
      | some c =>
        match s.ply? c.ply, c.steps[c.at_]? with
        | some y, some t =>
          match c.unsent.find? (fun k => match t.sends[k]? with | some m => s.rankNode y m.rank = e.peer % 2 ^ 18 | none => false) with
          | none => none
          | some k =>
            let n := match t.sends[k]? with | some m => m.idx.length * c.size | none => 0
            if n ≠ e.bytes then some (s.collEnd c.task tsFABRIC_ERROR)
            else
              let s1 := (s.collSend c y k (some (p, e))).putColl { c with unsent := c.unsent.erase k }
              some ((s1.setMil p ((s1.milPort p).putRun { r with moved := n })).runEnd p { r with moved := n, task := none } true)
        | _, _ => none

/-- COLLs and the slots that wait for them go on as far as they can. -/
def State.collGo (s : State) : Nat → State
  | 0 => s
  | fuel + 1 =>
    match s.mil.colls.findSome? (fun c => s.collMove c) with
    | some s1 => s1.collGo fuel
    | none =>
      match (NMap.keys s.mil.ports).findSome? (fun p => (s.milPort p).runs.findSome? (fun r => s.collEntry p r)) with
      | some s1 => s1.collGo fuel
      | none => s

/-- Moves the running COLLs can still make. -/
def State.collFuel (s : State) : Nat :=
  (s.mil.colls.map (fun c => 2 * c.steps.length + 4 + (c.steps.map (fun t => t.sends.length)).foldl (· + ·) 0)).foldl (· + ·) 1

/-- Copies and gather engines go on as far as they can. -/
def State.enginesGo (s : State) : Nat → State
  | 0 => s
  | fuel + 1 => match s.copyMove with
    | some s1 => s1.enginesGo fuel
    | none => (match s.gatherMove with
      | some s1 => s1.enginesGo fuel
      | none => s)

/-- After any happening at the homes: inbound requests that waited for earlier writes go on (17_network_ports.md R527), gather engines read what
they can (07_skein_memory.md R218), copies take up pieces (06_task_graphs.md R171), collectives whose inputs are there go on (15_milestone_schedule.md
R483), what hanks read reaches them (04_spindle_array.md R103), and doorbells whose writes are accepted are processed (06_task_graphs.md R166). -/
def State.kick (s : State) : State :=
  let s1 := (NMap.keys s.eth.qps).foldl (fun s q => s.rdmaGo q (2 * (s.qp q).inq.length + 1)) s
  let s2 := s1.gatherGo s1.gatherFuel
  let s3 := s2.enginesGo (s2.gatherFuel + (if s2.dsp.copies = [] then 0 else copyFuel))
  (s3.collGo s3.collFuel).fillsGo.bellsGo

/-! ### Collective data that arrives (R483) -/

/-- The message of a run that a packet belongs to: of its step, from the rank of its source.
[DEDUCED, log entry 160] -/
def State.collSlot (s : State) (c : CollRun) (y : Ply) (q : FabPkt) : Option Nat :=
  match c.steps[q.arg16]? with
  | none => none
  | some t =>
    let k := q.arg32 / 65536
    if y.alg = 0 then (match t.recvs[k]? with | some m => if s.rankNode y m.rank = q.src then some k else none | none => none)
    else (List.range t.recvs.length).find? (fun i => match t.recvs[i]? with | some m => s.rankNode y m.rank = q.src | none => false)

/-- Bytes of the largest message of a run. -/
def CollRun.chunk (c : CollRun) : Nat :=
  (c.steps.map (fun t => (t.recvs.map (fun m => m.idx.length * c.size)).foldl max 0)).foldl max 0

/-- COLL data reaches its ply (R438, R483): written to SCRATCH, kept for its step; a reducing COLL that meets poison ends with POISON.
A packet for a ply with no run, or for a step already taken, is not answered.
[DESIGN CHOICE, log entry 156; DEDUCED, log entry 159] -/
def State.collPacket (s : State) (a : Nat) (q : FabPkt) : State :=
  if !s.jobMatches q then s.count (pg cFAB a) PgFAB.PERF2_DROPPED 1
  else
    let k := q.arg32 % 1024
    match s.ply? k, s.mil.colls.find? (fun c => c.ply = k) with
    | some y, some c =>
      if y.part ≠ q.dpart || y.sched ≠ q.sched || 1 < c.phase || q.arg16 < c.at_ then s
      else match s.collSlot c y q with
        | none => s
        | some m =>
          let off := if q.sched then q.e2e else q.offset
          let base := y.scratch + (m % 2) * c.chunk + off
          let f (s : State) : State :=
            let s1 := if q.sched then s.recvCount a q else s
            match bytesParts base q.data.length (fun i => s.regWindow y.part (base + i)) (fun o n => .write ((q.data.drop o).take n) (packetPois base q.poison o n)) with
            | none => if q.sched then s1 else s1.applyDack a q tsACCESS
            | some ps =>
              let s2 := s1.serveParts (if q.sched then .schedIn a q else .dack a q) 479 y.part (if q.sched then 0 else 1) 0 .plain 5 ps
              match s2.coll? c.task with
              | none => s2
              | some c1 =>
                if q.poison ≠ 0 && c1.op ≤ 1 then s2.collEnd c1.task tsPOISON
                else if c1.got.any (fun g => g.1 = q.arg16 && g.2.1 = m && g.2.2.1 = off) then s2
                else s2.putColl { c1 with got := c1.got ++ [(q.arg16, m, off, q.data, q.poison)] }
          if q.sched then f s else s.onceOnly a q f
    | _, _ => s

end Sys2Proof.Machine
end

