-- ==== Sys2Proof/Machine/Sites.lean ====
section
/-! DEFINITION. The chiplet sites: training, flits, ASP messages, functions, tests (13_chiplet_sites.md). -/
namespace Sys2Proof.Machine
open Host

/-- A tenth-nanosecond tick count for 1 s (01_anatomy.md R37). -/
def siteSecond : Nat := 100000000

/-! ### Lane maps (R84, R85, R388-R393; 03_floor_plan.md R86) -/

/-- Failed lanes of a direction of an FPD 7 record. -/
def recLanes (w : Nat) : List Nat := ((List.range 4).map (fun i => natBits w (8 * i + 7) (8 * i))).filter (fun l => l ≠ 0xFF)

/-- A direction of a record: its four lowest failed lanes, rising. -/
def lanesRec (ls : List Nat) : Nat :=
  let sorted := (List.range 254).filter (fun i => ls.contains i)
  (List.range 4).foldl (fun w i => w + (sorted.getD i 0xFF) <<< (8 * i)) 0

/-- The failed lanes of a channel after a training (R85, R389): the old ones and the new ones, TX and RX. -/
def State.lanesAfter (s : State) (x : Nat) (l : LaneFail) : List Nat × List Nat :=
  let w := NMap.getD s.plan.laneEff (2 ^ 64 - 1) (x * 64 + l.ch)
  ((recLanes (w >>> 32) ++ l.tx).eraseDups, (recLanes (w % 2 ^ 32) ++ l.rx).eraseDups)

/-- Records the failed lanes of a channel in FPD 7. -/
def State.addLanes (s : State) (x : Nat) (l : LaneFail) : State :=
  let a := s.lanesAfter x l
  let e := NMap.put s.plan.laneEff (2 ^ 64 - 1) (x * 64 + l.ch) (lanesRec a.1 * 2 ^ 32 + lanesRec a.2)
  { s with plan := { s.plan with laneEff := e } }

/-- The channel loses a direction: more than four failed lanes (R86, R389). -/
def State.tooNarrow (s : State) (x : Nat) (l : LaneFail) : Bool :=
  let a := s.lanesAfter x l
  laneShort a.1 || laneShort a.2

/-- LINK.LIVE_CHANNELS follows the live floor plan; a site below MIN_CHANNELS is removed whole (R390). -/
def State.siteWidth (s : State) (x : Nat) (boot : Bool) : State :=
  let s1 := s.setFld (pg cSIT x) PgSIT.LINK_LIVE_CHANNELS (s.liveSiteChs x)
  if s1.live (.site x) && s1.liveSiteChs x < s1.fld (pg cSIT x) PgSIT.CFG_MIN_CHANNELS then
    if boot then (s1.bootRemove (.site x) .startupFail scTRAINING).setSiteLink x slFAULTED
    else s1.faultUnit (.site x) scTRAINING
  else s1

/-- The lanes a training found failed enter FPD 7, and channels too narrow are removed: at start-up, or in service as one change of the
floor plan in which a fenced site returns (R389, R390, R416). -/
def State.applyLanes (s : State) (x : Nat) (ls : List LaneFail) (boot : Bool) : State :=
  let bad := (ls.filter (fun l => l.ch < 64 && decide ((s.unit (.siteCh x l.ch)).live ≠ .faulted) && !s.absent (.siteCh x l.ch) &&
    decide ((s.unit (.siteCh x l.ch)).live ≠ .startupFail) && s.live (.router (siteChTile x l.ch)) && s.tooNarrow x l)).map LaneFail.ch
  let s1 := (ls.filter (fun l => l.ch < 64)).foldl (fun s l => s.addLanes x l) s
  let s2 :=
    if boot then bad.foldl (fun s c => s.bootRemove (.siteCh x c) .startupFail scTRAINING) s1
    else
      let r := s1.unit (.site x)
      let rst := (s1.siteSt x).resetting
      let back := (decide (r.live = .fenced) && !s1.flag (pg cSIT x) PgHDR.PAGE_CTRL_FENCE) || decide (r.live = .inTest)
        || (rst && decide (r.live = .faulted))
      let good := if rst then ((List.range 64).filter (fun c => decide ((s1.unit (.siteCh x c)).live = .faulted) &&
        !ls.any (fun l => l.ch = c && s.tooNarrow x l) && s1.live (.router (siteChTile x c)))).map (fun c => UnitId.siteCh x c) else []
      let s3 := good.foldl (fun s u => s.setUnit u { s.unit u with live := .good, sub := scNONE }) s1
      let re := if back then s3.returning (.site x) else (s3, [])
      let out := bad.map (fun c => (UnitId.siteCh x c, Cause.faulted, scTRAINING))
      let s4 := bad.foldl (fun s c => s.setUnit (.siteCh x c) ⟨(s.unit (.siteCh x c)).boot, .faulted, scTRAINING⟩) re.1
      let us := out ++ ((re.2 ++ good).filter (fun u => !(out.map Prod.fst).contains u)).map (fun u => (u, s4.backCause u))
      if us ≠ [] || s1.plan.laneEff ≠ s.plan.laneEff then s1.planChange us else s1
  s2.siteWidth x boot

/-- The hub's lane-map digest (R393): CRC-32 over the 64 FPD 7 records of the site. -/
def State.laneDigest (s : State) (x : Nat) : Nat :=
  crc32 (((List.range 64).map (fun c => natLe 8 (NMap.getD s.plan.laneEff (2 ^ 64 - 1) (x * 64 + c)))).flatten)

/-- The whole site goes into a retraining with trained parameters (R394). -/
def State.siteRetrain (s : State) (x : Nat) : State := (s.setSiteLink x slRETRAINING).sendStatus x 1

/-- The digests are exchanged (R393): equal, the map stands; different once, both sides retrain; still different, the hub imposes the union
of the failed lanes. -/
def State.laneDigests (s : State) (x digest : Nat) (peer : List LaneFail) : State :=
  let p := pg cSIT x
  let st := s.siteSt x
  let s1 := s.setFld p PgSIT.DISPUTE_PEER_DIGEST digest
  if digest = s.laneDigest x then
    if st.disputed then
      ((s1.setSite x { st with disputed := false }).count p PgSIT.DISPUTE_TRANSIENT 1).transient p scTRAINING 0
    else s1
  else if !st.disputed then (s1.setSite x { st with disputed := true }).siteRetrain x
  else
    let s2 := (((s1.setSite x { st with disputed := false }).count p PgSIT.DISPUTE_LASTING 1).setInt p 1).emit (.mgmtIrq p)
    let s3 := s2.emit (.siteMap x ((List.range 64).map (fun c => (c, NMap.getD s2.plan.laneEff (2 ^ 64 - 1) (x * 64 + c)))))
    s3.applyLanes x peer (s3.boot.sitesPend.contains x)


/-! ### Configuration requests, enumeration, binding (R412-R414) -/

/-- Sites that may hold F (12_coherence.md R356). -/
def State.siteF (s : State) (x : Nat) : State :=
  let fs := (List.range 8).filter (fun f => natBit (s.siteFuncs x) f && natBit (s.caps x f) 8)
  let ok := s.fld (pg cSIT x) PgSIT.LINK_PROTO = 1 && fs.all (fun f => natBit (s.caps x f) 9)
  let l := s.mem.fCapSites.filter (fun y => y ≠ x)
  { s with mem := { s.mem with fCapSites := if ok then l ++ [x] else l } }

/-- The enumeration has ended (R413, R416): PRESENT is recorded, and a site that was reset is IDLE. -/
def State.enumDone (s : State) (x : Nat) : State :=
  let st := s.siteSt x
  let p := pg cSIT x
  let s1 := ((s.setFld p PgSIT.FUNCS_PRESENT st.found).siteF x).setInt p 0
  let s2 := s1.setSite x { s1.siteSt x with trained := true, resetting := false, dropped := false }
  if st.resetting && s2.pageState p = stRESET then s2.pageResetDone p
  else if st.dropped && s2.pageState p = stFENCED && s2.live (.site x) then s2.setState p stIDLE
  else s2

/-- What follows a function that is left out (R413): its other enumeration requests go. -/
def State.dropFunc (s : State) (x f : Nat) : State :=
  let st := s.siteSt x
  s.setSite x { st with found := natSetBits st.found f f 0, cfg := st.cfg.filter (fun q => !(q.why = .enumerate && q.func = f)) }

/-- Function 0 does not answer: the site is removed (R413). -/
def State.noFunction0 (s : State) (x : Nat) : State :=
  if s.boot.sitesPend.contains x then (s.bootRemove (.site x) .startupFail scTRAINING).setSiteLink x slFAULTED
  else (s.removeUnit (.site x) .startupFail scTRAINING).setSiteLink x slFAULTED

/-- A configuration request ends: its answer (`none`: no answer within 10 ms), 0 OK or 1 UNSUPPORTED, data (R413, R414). -/
def State.cfgAnswer (s : State) (x : Nat) (ans : Option (Nat × Nat)) : State :=
  let st := s.siteSt x
  let p := pg cSIT x
  match st.cfg with
  | [] => s
  | q :: rest =>
    let s1 := s.setSite x { st with cfg := rest }
    let s2 := match q.why with
      | .software =>
        let s3 := match ans with
          | some (0, d) => if q.write then s1 else s1.setFld p PgSIT.CFG_DATA_DATA d
          | _ => s1
        ((s3.setFld p PgSIT.CFG_CMD_BUSY 0).setFld p PgSIT.CFG_CMD_RESULT
          (match ans with | some (c, _) => c | none => 3)).setInt p 2
      | .bind =>
        let s3 := if ans = none then s1.setInt p 5 else s1
        if st.binding && !rest.any (fun y => y.why = CfgWhy.bind) then (s3.setSite x { s3.siteSt x with binding := false }).commitDone p else s3
      | .enumerate =>
        if q.index = 1 then
          match ans with
          | some (0, d) =>
            let fs := (List.range 8).filter (fun f => natBit d f)
            let t := s1.siteSt x
            s1.setSite x { t with
              found := d % 256
              cfg := t.cfg ++ (fs.map (fun f => ([⟨.enumerate, f, 0, false⟩, ⟨.enumerate, f, 2, false⟩, ⟨.enumerate, f, 3, true⟩] : List CfgReq))).flatten }
          | _ => s1.noFunction0 x
        else if q.index = 0 then
          match ans with
          | some (0, _) => s1
          | some _ => s1.dropFunc x q.func
          | none => if q.func = 0 then s1.noFunction0 x else s1.dropFunc x q.func
        else if q.index = 2 then
          match ans with
          | some (0, d) =>
            let t := s1.siteSt x
            s1.setSite x { t with caps := NMap.put t.caps 0 q.func d }
          | _ => s1.dropFunc x q.func
        else match ans with
          | some _ => s1
          | none => s1.dropFunc x q.func
    let s4 := if q.why = .enumerate && !(s2.siteSt x).cfg.any (fun y => y.why = CfgWhy.enumerate) && s2.siteLink x = slUP then s2.enumDone x else s2
    (s4.cfgSend x).siteWork x



/-- A write of CFG_CMD.OP (R414): the lowest result code that applies, else the request goes to the function. -/
def State.cfgCmd (s : State) (r : Requester) (x func index : Nat) (wr : Bool) : State :=
  s.gateBlk r cSIT x 0x130 (fun p s =>
    if s.flag p PgSIT.CFG_CMD_BUSY then s.order p r 0x130
    else
      let s1 := (s.setFld p PgSIT.CFG_CMD_FUNC func).setFld p PgSIT.CFG_CMD_INDEX index
      let fail (code : Nat) := (s1.setFld p PgSIT.CFG_CMD_RESULT code).setInt p 2
      if wr && index % 512 ≤ 3 then fail 1
      else if !natBit (s.siteFuncs x) (func % 8) then fail 2
      else (s1.setFld p PgSIT.CFG_CMD_BUSY 1).cfgPush x [⟨.software, func % 8, index % 512, wr⟩])

def execSiteCfgRead (r : Requester) (x func index : Nat) (s : State) : Outcome State Fault Refusal := .next (s.cfgCmd r x func index false)
def execSiteCfgWrite (r : Requester) (x func index : Nat) (s : State) : Outcome State Fault Refusal := .next (s.cfgCmd r x func index true)

/-! ### Training and status (R387, R391, R392, R400, R419) -/

/-- A site that fails its training is removed (R387, R392, R400). -/
def State.siteFail (s0 : State) (x : Nat) : State :=
  let st := s0.siteSt x
  let s := s0.setSite x { st with resetting := false, dropped := false }
  if s.boot.sitesPend.contains x then (s.bootRemove (.site x) .startupFail scTRAINING).setSiteLink x slFAULTED
  else s.faultUnit (.site x) scTRAINING

/-- The protocol the hub chooses (R387): 0 none, 1 ASP, 2 CXL 3.1. -/
def siteProto (pref protos : Nat) : Nat :=
  let asp := natBit protos 0
  let cxl := natBit protos 1
  if pref = 1 then (if asp then 1 else 0)
  else if pref = 2 then (if cxl then 2 else 0)
  else if asp then 1 else if cxl then 2 else 0

/-- Training has reached READY and credits are exchanged (R392 T4): the protocol is up, and the enumeration begins (R413). -/
def State.siteTrained (s : State) (x : Nat) (t : SiteTraining) : State :=
  let p := pg cSIT x
  let proto := siteProto (s.fld p PgSIT.CFG_PROTO_PREF) t.protos
  let poor := (List.range 7).any (fun i => decide (t.credits.getD i 0 < aspMinCredits.getD i 0))
  if t.timeout || t.ucie < 0x20 || proto = 0 || poor then s.siteFail x
  else
    let s1 := s.applyLanes x t.lanes (s.boot.sitesPend.contains x)
    if !s1.live (.site x) && (s1.unit (.site x)).live ≠ .fenced then s1
    else
      let st := s1.siteSt x
      let fresh : NMap AspChan := ((List.range 64).filter (fun c => s1.chanIn x c)).map (fun c =>
        (c, ({ cr := t.credits } : AspChan)))
      let s2 := s1.setSite x { st with chans := fresh, peer := 2, cfg := [], invs := [], handed := [], found := 0, caps := [] }
      let s3 := (((s2.setFld p PgSIT.LINK_PROTO proto).setFld p PgSIT.LINK_PEER_UCIE t.ucie).setSiteLink x slUP).sendStatus x 2
      s3.cfgPush x [⟨.enumerate, 0, 1, false⟩]

/-- The chiplet drops READY (R419): the site is fenced, to retrain if it returns within 100 ms. -/
def State.siteDrop (s : State) (x : Nat) : State :=
  let s1 := s.setSite x { s.siteSt x with dropped := true }
  ((s1.removeUnit (.site x) .fenced scLINK).agentGone x).setInt (pg cSIT x) 0

/-- A new sideband status of the chiplet (R391, R416, R419); 5 to 15 read as NOT_READY. -/
def State.siteStatus (s : State) (x status : Nat) : State :=
  let v := if 4 < status then 0 else status
  let st := s.siteSt x
  let s1 := s.setSite x { st with peer := v }
  if st.peer = 2 && v ≠ 2 && s.siteLink x = slUP then s1.siteDrop x
  else if st.dropped && v = 2 then (s1.siteVoid x).siteRetrain x
  else if st.resetting && v = 3 then (s1.setSiteLink x slRETRAINING).sendStatus x 1
  else s1

def execSiteStatusChange (x status : Nat) (s : State) : Outcome State Fault Refusal :=
  if 4 ≤ x || s.absent (.site x) then .next s else .next (s.siteStatus x status)

/-- No sideband traffic for 1 ms reads as NOT_READY (R391). -/
def execSidebandSilence (x : Nat) (s : State) : Outcome State Fault Refusal :=
  if 4 ≤ x || s.absent (.site x) then .next s else .next (s.siteStatus x 0)

/-- The chiplet has not returned within 100 ms (R419): the site is FAULTED, sub-cause LINK. -/
def execSiteReadyTimeout (x : Nat) (s : State) : Outcome State Fault Refusal :=
  if 4 ≤ x || !(s.siteSt x).dropped then .next s
  else .next ((s.setSite x { s.siteSt x with dropped := false }).faultUnit (.site x) scLINK)

/-! ### Channel retrains (R394) -/

/-- A write of SIT.RETRAIN: each bit retrains a live channel while the others run. -/
def execChannelRetrain (r : Requester) (x mask : Nat) (s : State) : Outcome State Fault Refusal :=
  .next (s.gateBlk r cSIT x 0x218 (fun _ s =>
    (List.range 64).foldl (fun s c => if natBit mask c then s.chanRetrain x c false else s) s))

/-- A channel's retrain ends (R389, R394, R396): nothing is lost; a success after a fault is transient; a failure removes the channel. -/
def State.chanTrained (s : State) (x c : Nat) (ok : Bool) (l : LaneFail) : State :=
  let p := pg cSIT x
  let h := s.chan x c
  let s1 := (s.setChan x c { h with retraining := false, faulty := false, naked := false, badSeq := none }).setFld p PgSIT.RETRAIN_CHANNELS
    (natSetBits (s.fld p PgSIT.RETRAIN_CHANNELS) c c 0)
  let s2 := s1.applyLanes x [{ l with ch := c }] false
  if !ok then
    if s2.chanIn x c then ((s2.planChange [(.siteCh x c, .faulted, scTRAINING)]).siteWidth x false).setInt p 0 else s2.setInt p 0
  else if s2.chanIn x c then
    let s3 := if h.faulty then s2.transient p scTRAINING c else s2
    (s3.aspResend x c).aspGo x c
  else s2.setInt p 0

def execChannelRetrainDone (x c : Nat) (ok : Bool) (lanes : LaneFail) (s : State) : Outcome State Fault Refusal :=
  if 4 ≤ x || 64 ≤ c || !(s.chan x c).retraining then .next s else .next (s.chanTrained x c ok lanes)

/-! ### Flits (R395, R396, R400, R401) -/

/-- A protocol error (R401): the channel retrains; a second on the site within 1 s makes the site FAULTED. -/
def State.aspError (s : State) (x c : Nat) : State :=
  let st := s.siteSt x
  let s1 := s.setSite x { st with lastProto := s.clock + 1 }
  if st.lastProto ≠ 0 && s.clock < st.lastProto + siteSecond then s1.faultUnit (.site x) scLINK else s1.chanRetrain x c true

/-- A message of a flit takes its buffer; a reserved opcode or an overrun of credits is a protocol error. -/
def State.aspTake (s : State) (x c : Nat) (m : AspMsg) : Option State :=
  let h := s.chan x c
  let k := aspClass m.op
  if m.op = 0 then some s
  else if !aspUp m.op || aspHubCredits.getD k 0 < h.used.getD k 0 + aspCost m then none
  else some (s.setChan x c { h with used := credAdd h.used k (aspCost m) })

/-- The messages of a flit in order. -/
def State.aspTakeAll (s : State) (x c : Nat) : List AspMsg → State
  | [] => s
  | m :: ms =>
    match s.aspTake x c m with
    | some s1 => s1.aspTakeAll x c ms
    | none => s.aspError x c

/-- Flits up to an acknowledged SEQ leave the window. -/
def ackFlits (ack : Nat) (fs : List AspFlit) : List AspFlit :=
  if fs.any (fun f => f.seq = ack) then (fs.dropWhile (fun f => f.seq ≠ ack)).drop 1 else fs

/-- A flit is received (R396): a CRC error is answered with NAK and a second one at the same SEQ retrains the channel. -/
def State.flitIn (s : State) (x c : Nat) (f : AspFlit) (crcOk : Bool) : State :=
  let h := s.chan x c
  if !crcOk then
    let s1 := (s.setChan x c { h with naked := true, badSeq := some h.rxSeq }).emit
      (.aspFlit x c { seq := h.txSeq, ack := (h.rxSeq + 127) % 128, nak := true })
    if h.badSeq = some h.rxSeq then s1.chanRetrain x c true else s1
  else
    let cr := match f.link with
      | some l => (List.range 7).map (fun i => if f.init then l.getD i 0 else h.cr.getD i 0 + l.getD i 0)
      | none => h.cr
    let s1 := s.setChan x c { h with unacked := ackFlits f.ack h.unacked, cr := cr }
    let s2 := if f.nak then s1.aspResend x c else s1
    let s3 :=
      if f.bad then s2.aspError x c
      else if f.msgs = [] then s2
      else if f.seq ≠ h.rxSeq then s2
      else
        let h2 := s2.chan x c
        let s4 := s2.setChan x c { h2 with rxSeq := (h.rxSeq + 1) % 128, naked := false, badSeq := none }
        (s4.emit (.aspFlit x c { seq := h2.txSeq, ack := h.rxSeq })).aspTakeAll x c f.msgs
    s3.aspGo x c

def execAspFlitReceive (x c : Nat) (f : AspFlit) (crcOk : Bool) (s : State) : Outcome State Fault Refusal :=
  if 4 ≤ x || 64 ≤ c || !s.chanUp x c then .next s else .next (s.flitIn x c f crcOk)

/-- No ACK within 2 µs (R396). -/
def execAspReplayTimeout (x c : Nat) (s : State) : Outcome State Fault Refusal :=
  if 4 ≤ x || 64 ≤ c || !s.chanUp x c || (s.chan x c).unacked = [] then .next s else .next (s.aspResend x c)

/-! ### Requests of a site (R398, R401-R403, R407, R408) -/

/-- A request of a chiplet arrives on a channel (R401, R415): beyond 256 awaiting a response, to a fenced site, or for a function that is
absent or not enabled it is refused with Err; else it goes on. `resp`: it has a response.
[DEDUCED, log entry 182] -/
def State.aspReq (s : State) (x c : Nat) (m : AspMsg) (resp : Bool) (k : Nat → State → State) : State :=
  let s0 := s.aspFree x c 0 (aspCost m)
  let h := s0.chan x c
  let p := s0.funcPart x m.func
  if resp && (256 ≤ h.tags.length || h.tags.contains m.tag) then
    (s0.count (pg cSIT x) PgHDR.ERR_COUNT_CORRECTED 1).aspSend x c { op := 0x3C, tag := m.tag, arg8 := tsACCESS }
  else if !s0.live (.site x) || !s0.funcBound x m.func p then s0.aspSend x c { op := 0x3C, tag := m.tag, arg8 := tsACCESS }
  else if resp then (k p (s0.setChan x c { h with tags := h.tags ++ [m.tag] })).siteWork x
  else (k p s0).siteWork x

/-- The gate of every message row: the channel carries messages and the opcode is the row's. -/
def State.aspRow (s : State) (x c op : Nat) (m : AspMsg) (k : State → State) : State :=
  if 4 ≤ x || 64 ≤ c || !s.chanUp x c || m.op ≠ op then s else k s

/-- A PHYS address (R407): a DPA, or a host physical address that a translation of the function's port covers. -/
def State.physAddr (s : State) (x : Nat) (m : AspMsg) (a : Nat) : Option Addr :=
  if a < 2 ^ 63 then some (.dpa a)
  else
    let h := a - 2 ^ 63
    if (s.siteSt x).handed.any (fun e => e.1 = m.func % 4 && decide (e.2.base ≤ h) &&
        decide (h < e.2.base + (if e.2.big then 2 ^ 30 else 2 ^ 21)) && (!aspWrites m || e.2.w) && (!aspReads m || e.2.r))
    then some (.hpa h) else none

/-- A coherent request (R403): AK PHYS, a T2 or T3 line. -/
def State.aspCoh (s : State) (x c : Nat) (m : AspMsg) (coh : CohKind) : State :=
  s.aspReq x c m true (fun p s =>
    let w := { m with op := if coh = .rdShared then 0x04 else 0x09 }
    match if m.ak = 3 then s.physAddr x w (m.addr / 64 * 64) else none with
    | none => s.aspErr x c m.tag tsACCESS
    | some a => s.enter { acc := ⟨aspId c m.tag, 400 + x, p, none, a, 64, s.siteClass x m, 0, false, none, false⟩
                          op := .read, coh := coh, agent := x })

def execAspRdshared (x c : Nat) (m : AspMsg) (s : State) : Outcome State Fault Refusal :=
  .next (s.aspRow x c 0x01 m (fun s => s.aspCoh x c m .rdShared)).kick
def execAspRdown (x c : Nat) (m : AspMsg) (s : State) : Outcome State Fault Refusal :=
  .next (s.aspRow x c 0x02 m (fun s => s.aspCoh x c m .rdOwn)).kick
def execAspUpgrade (x c : Nat) (m : AspMsg) (s : State) : Outcome State Fault Refusal :=
  .next (s.aspRow x c 0x03 m (fun s => s.aspCoh x c m .upgrade)).kick

/-- Translates the pages of a request by the function's port (R407, R408). -/
def State.aspTranslate (s : State) (x p : Nat) (m : AspMsg) (len : Nat) (rd wr : Bool) (u : XUse) : State :=
  let client := 65 + 4 * x + m.func % 4
  let id := s.nextWait
  let first := m.addr / 2 ^ 21
  let last := (m.addr + max 1 len - 1) / 2 ^ 21
  let pages := (List.range (last + 1 - first)).map (fun i => first + i)
  let w : XWait := { client := client, id := id, part := p, pasid := m.pasid, need := pages, got := [], use_ := u }
  let s1 : State := { s with xwaits := s.xwaits ++ [w], nextWait := s.nextWait + 1 }
  pages.foldl (fun s v => s.translate m.pasid ⟨client, id, none, p, max m.addr (v * 2 ^ 21), rd, wr⟩) s1

/-- An uncached request (R398, R407): its addresses are found by AK, and it is served. -/
def State.aspUncached (s : State) (x c : Nat) (m : AspMsg) : State :=
  s.aspReq x c m true (fun p s =>
    let bad := ((m.op = 0x04 || m.op = 0x05) && (m.len = 0 || 4 < m.len || m.addr % 64 ≠ 0)) || (m.op = 0x06 && m.addr % 64 ≠ 0) ||
      ((m.op = 0x07 || m.op = 0x08) && m.addr % 32 ≠ 0) || (m.op = 0x09 && (m.len < 4 || 64 < m.len))
    if bad then s.aspErr x c m.tag tsACCESS
    else if m.ak = 0 then
      if s.ownsPasid p m.pasid then s.aspTranslate x p m (aspLen m) (aspReads m) (aspWrites m) (.asp x c m)
      else s.aspErr x c m.tag tsXLATE_REFUSED
    else s.aspServe x c m (fun i =>
      let a := m.addr + i
      if m.ak = 1 then windowT0 a else if m.ak = 2 then s.windowT2 p a else s.physAddr x m a))

def execAspRdcur (x c : Nat) (m : AspMsg) (s : State) : Outcome State Fault Refusal :=
  .next (s.aspRow x c 0x04 m (fun s => s.aspUncached x c m)).kick
def execAspWr (x c : Nat) (m : AspMsg) (s : State) : Outcome State Fault Refusal :=
  .next (s.aspRow x c 0x05 m (fun s => s.aspUncached x c m)).kick
def execAspWrpart (x c : Nat) (m : AspMsg) (s : State) : Outcome State Fault Refusal :=
  .next (s.aspRow x c 0x06 m (fun s => s.aspUncached x c m)).kick
def execAspSecrd (x c : Nat) (m : AspMsg) (s : State) : Outcome State Fault Refusal :=
  .next (s.aspRow x c 0x07 m (fun s => s.aspUncached x c m)).kick
def execAspSecwr (x c : Nat) (m : AspMsg) (s : State) : Outcome State Fault Refusal :=
  .next (s.aspRow x c 0x08 m (fun s => s.aspUncached x c m)).kick
def execAspAtomic (x c : Nat) (m : AspMsg) (s : State) : Outcome State Fault Refusal :=
  .next (s.aspRow x c 0x09 m (fun s => s.aspUncached x c m)).kick

/-- XlateReq (R408): a lookup of the port; XlateCpl goes when it resolves. -/
def execAspXlatereq (x c : Nat) (m : AspMsg) (s : State) : Outcome State Fault Refusal :=
  .next (s.aspRow x c 0x0A m (fun s => s.aspReq x c m true (fun p s =>
    s.aspTranslate x p m 1 (natBit m.arg8 0) (natBit m.arg8 1) (.aspXlate x c m)))).kick

/-- Doorbell (R166, R410): dropped and counted where the queue's SITE_MASK leaves the site out. -/
def execAspDoorbell (x c : Nat) (m : AspMsg) (s : State) : Outcome State Fault Refusal :=
  .next (s.aspRow x c 0x0B m (fun s => s.aspReq x c m true (fun _ s =>
    let q := natBits m.addr 43 32
    let s1 := if natBit (s.queue q).siteMask x then s.ring (some x) q none (m.addr % 2 ^ 32) else s.count (pg cSIT x) PgHDR.ERR_COUNT_CORRECTED 1
    s1.aspReply x c { op := 0x3A, tag := m.tag })))

/-- Event (R180, R410), for the function's partition. -/
def execAspEvent (x c : Nat) (m : AspMsg) (s : State) : Outcome State Fault Refusal :=
  .next (s.aspRow x c 0x0C m (fun s => s.aspReq x c m true (fun p s =>
    (s.eventInc p (m.addr % 2 ^ 14) false).aspReply x c { op := 0x3A, tag := m.tag })))

/-- TaskDone (R409): the task ends, and a credit returns; a task that has expired only gives its credit back. -/
def State.siteTaskDone (s : State) (x tag status : Nat) : State :=
  let st := s.siteSt x
  match st.tasks.find? (fun t => t.handle = tag) with
  | none => s
  | some t =>
    let s1 := s.setSite x { st with tasks := st.tasks.filter (fun u => u.handle ≠ tag) }
    if t.late then s1 else s1.taskDone t.task (if status = 0 then tsOK else tsSITE_ERROR)

def execAspTaskdone (x c : Nat) (m : AspMsg) (s : State) : Outcome State Fault Refusal :=
  .next (s.aspRow x c 0x0D m (fun s => (s.aspFree x c 0 (aspCost m)).siteTaskDone x m.tag m.arg8))

/-- Intr (R410): the vector SIT.INTMAP gives for the function and vector; an entry with EN = 0 drops and counts it. -/
def State.siteIntr (s : State) (x : Nat) (m : AspMsg) : State :=
  let p := pg cSIT x
  let v := m.arg8 % 8
  let w := (s.word p (0x198 + 8 * (2 * (m.func % 8) + v / 4))).toNat
  if natBit w (16 * (v % 4) + 15) then s.sendVector (natBits w (16 * (v % 4) + 10) (16 * (v % 4))) else s.count p PgHDR.ERR_COUNT_CORRECTED 1

def execAspIntr (x c : Nat) (m : AspMsg) (s : State) : Outcome State Fault Refusal :=
  .next (s.aspRow x c 0x0E m (fun s => (s.aspFree x c 0 (aspCost m)).siteIntr x m))

/-- The home and line key of a PHYS line for a function's partition (R403). -/
def State.siteHome (s : State) (x : Nat) (m : AspMsg) (wr : Bool) : Option (Nat × Nat × Nat) :=
  match if m.ak = 3 then s.physAddr x m (m.addr / 64 * 64) else none with
  | none => none
  | some a =>
    match s.locate ⟨0, 400 + x, s.funcPart x m.func, none, a, 64, 0, 0, false, none, false⟩ wr with
    | .home n line part _ _ => some (n, line, part)
    | _ => none

/-- CleanEvict (R357, R362): no response but Err. -/
def execAspCleanevict (x c : Nat) (m : AspMsg) (s : State) : Outcome State Fault Refusal :=
  .next (s.aspRow x c 0x0F m (fun s => s.aspReq x c m false (fun _ s =>
    match s.siteHome x m false with
    | some (n, line, _) => s.cleanEvict n line x
    | none => s.aspErr x c m.tag tsACCESS)))

/-- WrBack (R362, R370). -/
def execAspWrback (x c : Nat) (m : AspMsg) (s : State) : Outcome State Fault Refusal :=
  .next (s.aspRow x c 0x10 m (fun s =>
    let s0 := s.aspFree x c 1 (aspCost m)
    (match s0.siteHome x m false with
     | some (n, line, part) => s0.wrBack n line part x (aspId c m.tag) m.data m.poison
     | none => s0.aspErr x c m.tag tsACCESS).siteWork x)).kick

/-! ### Answers of a site (R363, R370, R404, R405, R408) -/

/-- The open transaction a TAG of the hub names, while it awaits this site (R401). -/
def State.txnByTag (s : State) (x tag : Nat) : Option Txn :=
  s.mem.txns.find? (fun t => t.slice = tag / 128 && t.idx = tag % 128 && t.snoops.any (fun w => w.agent = x))

/-- A snoop response: whether data was forwarded, dirty data, whether a WrBack is on its way. -/
def State.siteAnswer (s : State) (x c : Nat) (m : AspMsg) (fwd : Bool) (dirty : Option (List Byte × Nat)) (wb : Bool) : State :=
  let s0 := s.aspFree x c (aspClass m.op) (aspCost m)
  match s0.txnByTag x m.tag with
  | none => s0
  | some t => if t.phase = .place then s0 else (s0.snoopAnswer t.line x fwd dirty wb).siteWork x

def execAspRspi (x c : Nat) (m : AspMsg) (s : State) : Outcome State Fault Refusal :=
  .next (s.aspRow x c 0x30 m (fun s => s.siteAnswer x c m false none false)).kick
def execAspRsps (x c : Nat) (m : AspMsg) (s : State) : Outcome State Fault Refusal :=
  .next (s.aspRow x c 0x31 m (fun s => s.siteAnswer x c m false none false)).kick
def execAspRspfwds (x c : Nat) (m : AspMsg) (s : State) : Outcome State Fault Refusal :=
  .next (s.aspRow x c 0x32 m (fun s => s.siteAnswer x c m true none false)).kick
def execAspRspfwdi (x c : Nat) (m : AspMsg) (s : State) : Outcome State Fault Refusal :=
  .next (s.aspRow x c 0x33 m (fun s => s.siteAnswer x c m true none false)).kick
def execAspRspfwdcur (x c : Nat) (m : AspMsg) (s : State) : Outcome State Fault Refusal :=
  .next (s.aspRow x c 0x34 m (fun s => s.siteAnswer x c m true none false)).kick
def execAspRspwbissued (x c : Nat) (m : AspMsg) (s : State) : Outcome State Fault Refusal :=
  .next (s.aspRow x c 0x35 m (fun s => s.siteAnswer x c m false none true)).kick
def execAspRspidata (x c : Nat) (m : AspMsg) (s : State) : Outcome State Fault Refusal :=
  .next (s.aspRow x c 0x40 m (fun s => s.siteAnswer x c m false (some (m.data, m.poison)) false)).kick

/-- CmpAck closes the transaction whose Grant it answers (R358, R403). -/
def execAspCmpack (x c : Nat) (m : AspMsg) (s : State) : Outcome State Fault Refusal :=
  .next (s.aspRow x c 0x36 m (fun s =>
    let s0 := s.aspFree x c 3 (aspCost m)
    match s0.mem.txns.find? (fun t => t.phase = .ack && (match t.req with | some r => r.agent = x && r.acc.id = aspId c m.tag | none => false)) with
    | none => s0
    | some t => (s0.cmpAck t.line x).siteWork x)).kick

/-- A Fwd (R404): to the requester as Grant, or to the home, which relays a copy, and keeps data that comes from M. -/
def State.siteFwd (s : State) (x : Nat) (m : AspMsg) : State :=
  if !natBit m.fwdTo 7 then
    let y := m.fwdSite % 4
    let h := m.fwdTo % 64
    let s := { s with mem := { s.mem with txns := s.mem.txns.map (fun t =>
      if t.req.any (fun r => r.agent = y && r.acc.id = aspId h m.fwdTag) && t.phase = .snoop then { t with fwdM := decide (m.arg8 = 4) } else t) } }
    if s.siteUp y && s.chanIn y h then s.aspReply y h { op := 0x42, tag := m.fwdTag, arg8 := m.arg8, addr := m.addr, data := m.data, poison := m.poison } else s
  else match s.txnByTag x m.tag with
    | none => s
    | some t =>
      let kind := match t.snoops.find? (fun w => w.agent = x) with | some w => w.kind | none => .fwdCur
      let inner : Bool := match t.req with | some r => decide (4 ≤ r.agent) || decide (r.coh = .rdCur) | none => true
      let t1 := if inner || s.cxlSite x then { t with relay := some (m.data, m.poison), fwdM := decide (m.arg8 = 4) } else t
      s.putTxn (if kind = .fwdCur then t1 else { t1 with dirty := some (m.data, m.poison) })

def execAspFwd (x c : Nat) (m : AspMsg) (s : State) : Outcome State Fault Refusal :=
  .next (s.aspRow x c 0x41 m (fun s => (s.aspFree x c 4 (aspCost m)).siteFwd x m))

/-- A site answers a hint (R367, R368, R405): it holds the line in E, or the line stays at the home. -/
def State.hintAnswer (s : State) (x tag : Nat) (accept : Bool) : State :=
  match s.txnByTag x tag with
  | none => s
  | some t =>
    if t.phase ≠ .place then s
    else
      let c := pg cCOH t.slice
      let s1 := if accept then (s.setFilter t.slice t.line (some ⟨t.line, t.part, .o x, 2 ^ x⟩)).count c PgCOH.PERF2_HINT_PLACED 1
        else s.count c PgCOH.PERF2_HINT_DECLINED 1
      ((s1.closeTxn t.id).settle t.slice).siteWork x

def execAspHintaccept (x c : Nat) (m : AspMsg) (s : State) : Outcome State Fault Refusal :=
  .next (s.aspRow x c 0x37 m (fun s => (s.aspFree x c 3 (aspCost m)).hintAnswer x m.tag true)).kick
def execAspHintdecline (x c : Nat) (m : AspMsg) (s : State) : Outcome State Fault Refusal :=
  .next (s.aspRow x c 0x38 m (fun s => (s.aspFree x c 3 (aspCost m)).hintAnswer x m.tag false)).kick

def execAspXlateinvdone (x c : Nat) (m : AspMsg) (s : State) : Outcome State Fault Refusal :=
  .next (s.aspRow x c 0x39 m (fun s => ((s.aspFree x c 3 (aspCost m)).siteInvEnd x m.tag).atuWork))

/-! ### Timeouts (R406, R409) -/

/-- A site misses a timeout (R406): the channel retrains and AGENT_FAULT is set; a second within 1 s makes the site FAULTED. -/
def State.siteMiss (s : State) (x : Nat) (c : Option Nat) : State :=
  let st := s.siteSt x
  let s1 := (s.setSite x { st with lastMiss := s.clock + 1 }).setInt (pg cSIT x) 5
  if st.lastMiss ≠ 0 && s.clock < st.lastMiss + siteSecond then
    let keys := (st.invs.map (fun i => i.2.1)).eraseDups
    let s2 := s1.faultUnit (.site x) scLINK
    keys.foldl (fun s k => if s.atu.invReady.contains k then s.invDone k else s) s2
  else match c with
    | some c => s1.chanRetrain x c true
    | none => s1

/-- No XlateInvDone within 1 ms (R406). -/
def execXlateinvTimeout (x tag : Nat) (s : State) : Outcome State Fault Refusal :=
  match (s.siteSt x).invs.find? (fun i => i.1 = tag) with
  | none => .next s
  | some i => .next (s.siteMiss x (some i.2.2)).atuWork

/-- TASK_TIMEOUT_MS expires (R409): the task ends with SITE_ERROR; its credit returns with its TaskDone. -/
def execSiteTaskTimeout (x handle : Nat) (s : State) : Outcome State Fault Refusal :=
  match (s.siteSt x).tasks.find? (fun t => t.handle = handle && !t.late) with
  | none => .next s
  | some t =>
    if 4 ≤ x || s.fld (pg cSIT x) PgSIT.TASK_CFG_TASK_TIMEOUT_MS = 0 then .next s
    else
      let st := s.siteSt x
      let s1 := s.setSite x { st with tasks := st.tasks.map (fun (u : SiteTask) => if u.handle = handle then { u with late := true } else u) }
      .next ((s1.taskEnd t.task tsSITE_ERROR).setInt (pg cSIT x) 6)

/-! ### Loop-back test (R417) -/

/-- A write of TEST.START: only while the site is FENCED, or IDLE with QUIESCE_REQ, no test runs and no commit is pending (R420). -/
def execSiteTestStart (r : Requester) (x : Nat) (s : State) : Outcome State Fault Refusal :=
  .next (s.gateBlk r cSIT x 0x148 (fun p s =>
    let ok := s.pageState p = stFENCED || (s.pageState p = stIDLE && s.flag p PgHDR.PAGE_CTRL_QUIESCE_REQ)
    if !ok || s.flag p PgSIT.TEST_START || s.flag p PgHDR.PAGE_STATE_COMMIT_BUSY then s.order p r 0x148
    else ((((s.setFld p PgSIT.TEST_START 1).setFld p PgSIT.TEST_DONE 0).setSiteLink x slTEST).sendStatus x 4).agentGone x))

/-- The test ends: its results, then the site retrains. -/
def State.siteTested (s : State) (x : Nat) (fail : List LaneFail) : State :=
  let p := pg cSIT x
  let lanes := (fail.map (fun l => l.tx.length + l.rx.length)).foldl (· + ·) 0
  let chs := fail.filter (fun l => l.tx ≠ [] || l.rx ≠ [])
  let s1 := ((((s.setFld p PgSIT.TEST_START 0).setFld p PgSIT.TEST_DONE 1).setFld p PgSIT.TEST_PASS (b2n (lanes = 0))).setFld p
    PgSIT.TEST_ERR_LANES (min lanes 0xFFFF)).setFld p PgSIT.TEST_FAIL_CHANNELS (maskOf 64 (fun c => chs.any (fun l => l.ch = c)))
  ((s1.setInt p 3).siteVoid x).siteRetrain x

def execSiteTestDone (x : Nat) (fail : List LaneFail) (s : State) : Outcome State Fault Refusal :=
  if 4 ≤ x || !s.flag (pg cSIT x) PgSIT.TEST_START then .next s else .next (s.siteTested x fail)

end Sys2Proof.Machine
end

