-- ==== Sys2Proof/Machine/Tasks.lean ====
section
/-! DEFINITION. Queues, fetch, walks, events, waits, moves, site tasks, signals (06_task_graphs.md). -/
namespace Sys2Proof.Machine
open Host

/-! ### Queue commands (R161-R163) -/

/-- A write of QCMD that names a command: ignored, with ORDER, while one runs; else QUEUE is stored and the command starts (R651). -/
def State.queueCmd (s : State) (r : Requester) (p q : Nat) (f : Nat → State → State) : State :=
  s.gateBlk r cDSP p 0x108 (fun d s =>
    if s.flag d PgDSP.QCMD_BUSY then s.order d r 0x108 else f d (s.setFld d PgDSP.QCMD_QUEUE q))

/-- A queue command ends with a result. -/
def State.queueRes (s : State) (d result : Nat) : State :=
  ((s.setFld d PgDSP.QCMD_BUSY 0).setFld d PgDSP.QCMD_RESULT result).setInt d 1

/-- A command other than CREATE: BAD_QUEUE outside the range, NO_QUEUE where none exists. -/
def State.onQueue (s : State) (d p q : Nat) (f : QueueSt → State) : State :=
  if !s.queueIn p q then s.queueRes d 1
  else if (s.queue q).st = .absent then s.queueRes d 3
  else f (s.queue q)

/-- CREATE (R162). -/
def State.queueCreate (s : State) (d p q : Nat) : State :=
  let base := s.fld d PgDSP.QARG0_RING_BASE
  let log2 := s.fld d PgDSP.QARG1_LOG2_SIZE
  let mask := s.fld d PgDSP.QARG1_SITE_MASK
  let span := s.fld d PgDSP.QARG1_SPAN
  let pasid := s.fld d PgDSP.QARG1_PASID
  if !s.queueIn p q then s.queueRes d 1
  else if (s.queue q).st ≠ .absent then s.queueRes d 2
  else if !s.ownsPasid p pasid then s.queueRes d 4
  else if s.fld (pg cPRT p) PgPRT.DSP_QUOTA_TASKS < s.reserved p + span then s.queueRes d 5
  else if log2 < 4 || 16 < log2 || span < 1 || 4096 < span || base / 2 ^ 62 = 3 || base % 4096 ≠ 0
      || (List.range 4).any (fun x => natBit mask x && !s.live (.site x)) then s.queueRes d 6
  else
    ((s.setQueue q { st := .active, part := p, pasid := pasid, base := base, log2 := log2, span := span, siteMask := mask }).dspWork
      p).queueRes d 0

def execQueueCreate (r : Requester) (p q : Nat) (s : State) : Outcome State Fault Refusal :=
  .next (s.queueCmd r p (q % 4096) (fun d s => s.queueCreate d p (q % 4096)))

/-- A queue begins to end (R163): no more fetches, its doorbells are dropped, its tasks are cancelled. -/
def State.queueEnd (s : State) (q : Nat) : State :=
  (s.setQueue q { s.queue q with destroying := true }).cancelQueue q

def execQueueDestroy (r : Requester) (p q : Nat) (s : State) : Outcome State Fault Refusal :=
  .next (s.queueCmd r p (q % 4096) (fun d s => s.onQueue d p (q % 4096) (fun _ => (s.setFld d PgDSP.QCMD_BUSY 1).queueEnd (q % 4096))))

/-- Every task of a queue being destroyed has retired: the queue is gone, and DESTROY ends where it was commanded (R163). -/
def State.queueGone (s : State) (q : Nat) : State :=
  let x := s.queue q
  let d := pg cDSP x.part
  let s0 := (s.setQueue q {}).dspWork x.part
  let s1 : State := { s0 with dsp := { s0.dsp with bells := s0.dsp.bells.filter (fun b => b.queue ≠ q) } }
  if s1.flag d PgDSP.QCMD_BUSY && s1.fld d PgDSP.QCMD_QUEUE = q then s1.queueRes d 0 else s1

/-- [DEDUCED, log entry 192] -/
def execQueueDestroyComplete (q : Nat) (s : State) : Outcome State Fault Refusal :=
  if !(s.queue q).destroying || s.liveIn q ≠ 0 then .next s else .next (s.queueGone q)

def execQueueStop (r : Requester) (p q : Nat) (s : State) : Outcome State Fault Refusal :=
  .next (s.queueCmd r p (q % 4096) (fun d s => s.onQueue d p (q % 4096) (fun x =>
    if x.st ≠ .active then s.queueRes d 7 else (s.setQueue (q % 4096) { x with st := .stoppedSw }).queueRes d 0)))

def execQueueStart (r : Requester) (p q : Nat) (s : State) : Outcome State Fault Refusal :=
  .next (s.queueCmd r p (q % 4096) (fun d s => s.onQueue d p (q % 4096) (fun x =>
    if x.st = .active then s.queueRes d 7
    else (s.setQueue (q % 4096) { x with st := .active, errIndex := 0, errCode := 0 }).queueRes d 0)))

/-- QUERY writes the queue's context to QARG0, QARG1 and QARG2 (R162). -/
def State.queueQuery (s : State) (d : Nat) (x : QueueSt) : State :=
  let s1 := s.setWord d 0x110 (BitVec.ofNat 64 x.base)
  let s2 := s1.setWord d 0x118 (BitVec.ofNat 64 (x.log2 * 2 ^ 52 + x.siteMask * 2 ^ 48 + x.span * 2 ^ 32 + x.pasid))
  (s2.setWord d 0x120 (BitVec.ofNat 64 (x.tail * 2 ^ 32 + x.head))).queueRes d 0

def execQueueQuery (r : Requester) (p q : Nat) (s : State) : Outcome State Fault Refusal :=
  .next (s.queueCmd r p (q % 4096) (fun d s => s.onQueue d p (q % 4096) (fun x => s.queueQuery d x)))

/-! ### Doorbells (R164-R166, R180) -/

def execDbTail (q tail : Nat) (s : State) : Outcome State Fault Refusal :=
  if 4096 ≤ q then .next s else .next (s.hostIn (fun s => s.ring none q none tail))

def execDbEvent (q e : Nat) (s : State) : Outcome State Fault Refusal :=
  if 4096 ≤ q then .next s else .next (s.hostIn (fun s => s.ring none q (some (e % 2 ^ 14)) 0))

/-! ### Fetch (R167-R173) -/

/-- A new live task has a place (R173): in its queue's reservation, or in the pool. -/
def State.roomFor (s : State) (q : Nat) : Bool :=
  let x := s.queue q
  let p := x.part
  let pooled := (s.dsp.queues.map (fun e => if e.2.part = p then s.liveIn e.1 - e.2.span else 0)).foldl (· + ·) 0
  decide (s.liveIn q < x.span) || decide (pooled + s.reserved p < s.fld (pg cPRT p) PgPRT.DSP_QUOTA_TASKS)

/-- An object address has the form its field asks (R168). -/
def objOk (a align : Nat) : Bool := a / 2 ^ 62 ≠ 3 && natBits a 61 57 = 0 && a % align = 0

/-- A successor reference has the form R170 asks, in a queue of a span and a partition. -/
def State.refOk (s : State) (p span r : Nat) : Bool :=
  let k := r / 2 ^ 30
  let v := r % 2 ^ 30
  if k = 0 then v = 0
  else if k = 1 then 1 ≤ v && v + 1 ≤ span && v < 4096
  else if k = 2 then v < 16384 && s.eventIn p v
  else false

/-- Bytes of a descriptor from an offset to an offset are 0. -/
def zeroFrom (b : List Byte) (lo hi : Nat) : Bool := ((b.take hi).drop lo).all (fun x => x = 0)

/-- A write hint of a MOVE has the form R171 gives it. -/
def hintOk (h : Nat) : Bool :=
  let t := h / 2 ^ 13
  let i := h % 2 ^ 13
  t < 4 && (if t = 2 then i < 4 else i = 0)

/-- The BODY of a descriptor of a type has the form R171 and R172 ask. -/
def bodyOk (ty : Nat) (b : List Byte) : Bool :=
  let f := fieldAt b
  match ty with
  | 1 => objOk (f 0x30 8) 64 && f 0x38 1 < 16 && zeroFrom b 0x39 0x78
  | 2 => objOk (f 0x30 8) 1 && objOk (f 0x38 8) 1 && 1 ≤ f 0x40 4 && f 0x40 4 ≤ 2 ^ 26 && 1 ≤ f 0x44 4 && hintOk (f 0x50 2)
          && zeroFrom b 0x52 0x78
  | 3 => f 0x30 1 < 4 && f 0x31 1 < 8 && f 0x33 1 ≤ 64 && zeroFrom b 0x34 0x38
  | 4 => f 0x30 1 < 12 && f 0x31 1 < 2 && f 0x32 2 < 8192 && objOk (f 0x38 8) 1 && zeroFrom b 0x40 0x78
  | 5 => f 0x30 2 < 1024 && objOk (f 0x38 8) 1 && objOk (f 0x40 8) 1 && zeroFrom b 0x34 0x38 && zeroFrom b 0x50 0x78
  | 6 => zeroFrom b 0x32 0x34 && zeroFrom b 0x38 0x78
  | 7 => f 0x30 1 < 3 && f 0x31 1 < 2 && f 0x32 2 < 2048 && objOk (f 0x38 8) 64 && zeroFrom b 0x34 0x38 && zeroFrom b 0x40 0x78
  | 8 => f 0x30 1 < 64 && f 0x31 1 < 3 && zeroFrom b 0x32 0x34 && zeroFrom b 0x38 0x78
  | 9 => f 0x30 1 = 0 && zeroFrom b 0x31 0x78
  | _ => false

/-- Inline references of a descriptor (R169). -/
def inlineRefs (b : List Byte) : List Nat := (List.range (fieldAt b 6 1)).map (fun i => fieldAt b (0x10 + 4 * i) 4)

/-- A descriptor passes the checks of R168-R172 that stop the queue. -/
def State.formatOk (s : State) (p span : Nat) (b : List Byte) : Bool :=
  let f := fieldAt b
  f 1 1 < 8 && f 2 2 < 2 && f 6 1 ≤ 6 && f 7 1 = 0 && f 0x78 4 = 0 && (f 8 8 = 0 || objOk (f 8 8) 64)
    && (inlineRefs b).all (fun r => s.refOk p span r) && bodyOk (f 0 1) b

/-- Distinct 2 MiB regions that `n` rows of `len` bytes touch, from a row's start on; `next`: the first region not counted yet. More
than 64 are not counted on. -/
def regionCount (stride len : Nat) : Nat → Nat → Nat → Nat → Nat
  | 0, _, _, acc => acc
  | n + 1, a, next, acc =>
    if 64 < acc then acc
    else
      let lo := max next (a / 2 ^ 21)
      let hi := (a + len - 1) / 2 ^ 21
      if hi < lo then regionCount stride len n (a + stride) next acc
      else regionCount stride len n (a + stride) (hi + 1) (acc + (hi + 1 - lo))

/-- A MOVE is too large (R172). -/
def moveTooLarge (b : List Byte) : Bool :=
  let f := fieldAt b
  let len := f 0x40 4
  let rows := f 0x44 4
  if 2 ^ 26 < rows * len then true
  else
    let side (a stride : Nat) : Nat := regionCount stride len rows (a % 2 ^ 57) 0 0
    64 < side (f 0x30 8) (f 0x48 4) + side (f 0x38 8) (f 0x4C 4)

/-- A descriptor becomes a live task, and HEAD goes past its slot (R167).
[DEDUCED, log entry 189] -/
def State.taskLive (s : State) (q : Nat) (b : List Byte) : State :=
  let x := s.queue q
  let f := fieldAt b
  let id : TaskId := ⟨q, x.head⟩
  let t : TaskSt :=
    { id := id, part := x.part, pasid := x.pasid, ty := f 0 1, prio := f 1 1, ignoreErr := natBit (f 2 2) 0, pred := f 4 2
      refs := inlineRefs b, block := f 8 8, tag := f 0x28 8, body := (b.take 0x78).drop 0x30 }
  let s1 := s.setQueue q { x with head := (x.head + 1) % 2 ^ 32 }
  let s2 := ({ s1 with dsp := { s1.dsp with tasks := s1.dsp.tasks ++ [t] } } : State).dspWork x.part
  if t.ty = 2 && moveTooLarge b then s2.taskEnd id tsTILE_TOO_LARGE else s2.makeReady id

/-- The slot at HEAD of a queue has been read, or could not be (R167); a FATAL event stops fetching (22_fault_detection.md R622).
[DEDUCED, log entry 189] -/
def State.fetch (s : State) (q : Nat) (slot : Option (List Byte)) : State :=
  let x := s.queue q
  if s.saf.stopped || x.st ≠ .active || x.destroying || x.head = x.tail || !s.roomFor q then s
  else match slot with
    | none => s.stopQueue q tsRING_FAULT x.head
    | some b =>
      if b.length ≠ 128 || !Sys2Proof.Machine.checkOk b then s.stopQueue q tsTASK_CHECK x.head
      else if !s.formatOk x.part x.span b then s.stopQueue q tsTASK_FORMAT x.head
      else s.taskLive q b

/-- The slot of the index at HEAD (R160), read through the queue's PASID or its partition's windows (R167).
[DESIGN CHOICE, log entry 6] -/
def execTaskFetch (q : Nat) (slot : Option (List Byte)) (s : State) : Outcome State Fault Refusal :=
  let x := s.queue q
  .next (s.fetch q (s.readObj x.part (x.base + x.head % 2 ^ x.log2 * 128) 128 slot))

/-! ### Dispatch (R175, R178, R409 of 13_chiplet_sites.md, R181, R183) -/

/-- A DMA engine is free and the partition may use it: its own or device-wide (R171). -/
def State.dmaFree (s : State) (p d : Nat) : Bool :=
  let g := pg cDMA d
  !s.pageAbsent g && s.accepts g && (s.ownerPart g = p || s.ownerPart g = 31) &&
    !s.dsp.tasks.any (fun t => t.ty = 2 && t.phase = .dispatched && t.engine = d)

/-- Fields of a MOVE's BODY (R171). -/
def TaskSt.moveField (t : TaskSt) (o n : Nat) : Nat := fieldAt t.body (o - 0x30) n

/-- A MOVE begins on its engine (R171, 10_address_translation.md R325): the engine's copy of it, through tollgate 404 + engine.
[DEDUCED, log entry 240] -/
def State.moveStart (s : State) (t : TaskSt) (d : Nat) : State :=
  let cls := s.tolClass { tol := 404 + d, id := 0, task := some t.id, part := t.part, kind := 0, siteCls := none, bytes := 0, line := 0, lower := false }
  s.copyOpen { id := 0, for_ := .move t.id, part := t.part, pasid := t.pasid, client := 1 + d, tol := 404 + d, cls := cls, src := t.moveField 0x30 8
               dst := t.moveField 0x38 8, rowBytes := t.moveField 0x40 4, rows := t.moveField 0x44 4, srcStride := t.moveField 0x48 4
               dstStride := t.moveField 0x4C 4, hint := t.moveField 0x50 2, fill := false }

def execMoveDispatch (s : State) : Outcome State Fault Refusal :=
  match s.pick 2 (fun t => (List.range 64).any (fun d => s.dmaFree t.part d)) with
  | none => .next s
  | some (t, s) => match (List.range 64).find? (fun d => s.dmaFree t.part d) with
    | none => .next s
    | some d => .next (((s.dispatched t d).workStart (pg cDMA d)).moveStart t d).kick

/-- Credits a site function has left (13_chiplet_sites.md R409). -/
def State.taskCredits (s : State) (x f : Nat) : Nat := s.caps x f % 256 - ((s.siteSt x).tasks.filter (fun t => t.func = f)).length

/-- The first handle from `h` on that no outstanding task of a site has. -/
def freeHandle (used : List Nat) : Nat → Nat → Nat
  | 0, h => h
  | n + 1, h => if used.contains h then freeHandle used n ((h + 1) % 2 ^ 16) else h

/-- A SITE task is sent to its function, or ends with SITE_ERROR (13_chiplet_sites.md R409). -/
def State.siteTask (s : State) (t : TaskSt) : State :=
  let x := (t.body.getD 0 0).toNat
  let f := (t.body.getD 1 0).toNat
  let len := (t.body.getD 3 0).toNat
  if !s.funcBound x f t.part then s.taskEnd t.id tsSITE_ERROR
  else match s.firstChan x with
    | none => s.taskEnd t.id tsSITE_ERROR
    | some c =>
      let st := s.siteSt x
      let h := freeHandle (st.tasks.map (fun u => u.handle)) (st.tasks.length + 1) st.nextHandle
      let s1 := s.dispatched t x
      let s2 := s1.setSite x { st with
        tasks := st.tasks ++ [{ handle := h, task := t.id, part := t.part, func := f }], nextHandle := (h + 1) % 2 ^ 16 }
      let data := (t.body.drop 8).take len ++ List.replicate (64 - len) 0
      (s2.aspSend x c { op := 0x50, tag := h, func := f, arg8 := (t.body.getD 2 0).toNat, len := len, data := data }).siteWork x

def execSiteTaskDispatch (s : State) : Outcome State Fault Refusal :=
  match s.pick 3 (fun t =>
    let x := (t.body.getD 0 0).toNat
    let f := (t.body.getD 1 0).toNat
    !s.funcBound x f t.part || s.firstChan x = none || (0 < s.taskCredits x f && s.accepts (pg cSIT x))) with
  | none => .next s
  | some (t, s) => .next (s.siteTask t)

def execWaitDispatch (s : State) : Outcome State Fault Refusal :=
  match s.pick 6 (fun _ => true) with
  | none => .next s
  | some (t, s) => .next ((s.dispatched t 0).evalWait { t with phase := .dispatched })

/-- Writes issued for partition `p` that have not reached their points, by path (R183): at tollgates and homes, of sites that wait for a
translation, of RDMA peers, on the fabric, on Ethernet. -/
def State.writesOut (s : State) (p : Nat) : List (Nat × Nat) :=
  let reqs := s.mem.txns.filterMap (fun t => t.req) ++ s.mem.held.map (fun e => e.2) ++ s.mem.waitQ.map (fun e => e.2.2.2.2)
  let gate := s.mesh.waiting.filterMap (fun t => t.acc)
  let home := ((gate ++ reqs).filter (fun r => r.acc.part = p && r.op ≠ .read)).map (fun r => (1, r.acc.src * 2 ^ 64 + r.acc.id))
  let site := (s.xwaits.filterMap (fun w => match w.use_ with
    | .asp x c m => if w.part = p && aspWrites m then some (5, x * 2 ^ 64 + c * 2 ^ 32 + m.tag) else none
    | _ => none))
  let rdma := (s.eth.qps.map (fun e => if e.2.part = p then (e.2.inq.filter (fun i => i.kind ≠ 1)).map (fun i => (6, e.1 * 2 ^ 32 + i.req.psn))
    else [])).flatten
  let fab := (s.fab.e2e.filter (fun e => e.pkt.spart = p)).map (fun e => (3, e.id))
  let eth := (s.eth.qps.map (fun e => if e.2.part = p then (e.2.runs.filter (fun w => w.op < 4)).map (fun w => (4, e.1 * 2 ^ 40 + w.idx))
    else [])).flatten
  home ++ site ++ rdma ++ fab ++ eth

/-- Writes still under way that a fence may cover: a site's write that waited for its translation counts until it is accepted. -/
def State.writesLeft (s : State) (p : Nat) : List (Nat × Nat) :=
  s.writesOut p ++ s.joins.filterMap (fun j => match j.kind with | .asp x c tag _ => some (5, x * 2 ^ 64 + c * 2 ^ 32 + tag) | _ => none)

/-- The SCOPE of a SIGNAL (R183). -/
def TaskSt.scope (t : TaskSt) : Nat := (t.body.getD 0 0).toNat

/-- A SIGNAL's fence point (R183): what it covers is noted; beyond LOCAL a zero-length read goes to the last covered
host-memory write, with ALL_PATHS also one to each peer aperture written (16_host_endpoint.md R502).
[DEDUCED, log entry 190] -/
def State.fenceStart (s : State) (t : TaskSt) : State :=
  let cover := (s.writesOut t.part).filter (fun k => k.1 = 1 || k.1 = 5 || k.1 = 6 || t.scope = 2)
  let s1 := s.dispatched { t with cover := cover } 0
  if t.scope = 0 then s1
  else
    let s2 := s1.flushLast t.part (some t.id)
    if t.scope = 2 then (List.range 8).foldl (fun s k => s.flushAt (NMap.find? s.host.peerW (8 * t.part + k)) (some t.id) none) s2 else s2

def execSignalDispatch (s : State) : Outcome State Fault Refusal :=
  match s.pick 7 (fun _ => (s.dsp.tasks.filter (fun t => t.ty = 7 && t.phase = .dispatched)).length < 16) with
  | none => .next s
  | some (t, s) => .next (s.fenceStart t)

/-- The fence of a SIGNAL is complete (R183).
[DEDUCED, log entry 190] -/
def State.fenceDone (s : State) (t : TaskSt) : Bool :=
  let out := s.writesLeft t.part
  !t.cover.any (fun k => out.contains k) &&
    !(s.host.reads ++ s.host.held).any (fun q => q.kind = .flush && q.task = some t.id)

/-- The 64 bytes of a completion record (R184). -/
def State.recordBytes (s : State) (t : TaskSt) : List Byte :=
  let o : ErrOrigin := match t.predErr with | some (_, o) => o | none => ⟨0, 0, 0⟩
  natLe 8 t.tag ++ natLe 4 t.id.index ++ natLe 2 t.id.queue ++ natLe 1 (if t.predErr = none then tsOK else tsPRED_FAILED)
    ++ natLe 1 t.scope ++ natLe 1 o.code ++ natLe 1 0 ++ natLe 2 o.queue ++ natLe 4 o.seq ++ natLe 4 t.arith
    ++ natLe 2 t.failedPreds ++ natLe 2 0 ++ natLe 8 (s.fld pGLB PgGLB.MS_NOW_COUNT) ++ natLe 16 0
    ++ natLe 8 (t.id.index * 2 ^ 32 + 1)

/-- The record goes to host memory (R184): its body, then FLAG; while they are held the SIGNAL waits. -/
def State.recordHost (s : State) (t : TaskSt) (a : Nat) (untr : Bool) (b : List Byte) : State :=
  let s1 := (s.hostWrite t.part (some t.id) t.pasid a untr false (b.take 56)).hostWrite t.part (some t.id) t.pasid (a + 56) untr false (b.drop 56)
  if s1.host.held.any (fun q => q.task = some t.id) then s1.putTask { t with sent := true } else s1.recordDone t.id tsOK

/-- The record is written (R184): bytes 0x00-0x37, then FLAG. `page`: the 2 MiB page REC_ADDR lies in, where its SPACE is 0. -/
def State.recordWrite (s : State) (t : TaskSt) (page : Option Addr) : State :=
  let o := leNat ((t.body.drop 8).take 8)
  let b := s.recordBytes t
  let at_ (a : Addr) (i : Nat) : Addr := match a with | .dpa n => .dpa (n + i) | .hpa n => .hpa (n + i) | .hva q n => .hva q (n + i) | .t0 n => .t0 (n + i)
  let home (a : Addr) : State :=
    s.serveParts (.record t.id) 477 t.part 1 0 .plain 5
      [{ addr := a, len := 56, op := .write (b.take 56) 0 }, { addr := at_ a 56, len := 8, op := .write (b.drop 56) 0 }]
  if o / 2 ^ 62 = 0 then
    match page with
    | none => s.taskEnd t.id tsXLATE_REFUSED
    | some (.hpa n) => s.recordHost t (n + o % 2 ^ 21) false b
    | some (.hva _ n) => s.recordHost t (n + o % 2 ^ 21) true b
    | some a => home (at_ a (o % 2 ^ 21))
  else match s.objWindow t.part o with
    | none => s.taskEnd t.id tsACCESS
    | some a => home a

/-- FENCE_COMPLETE: while a FATAL event stops completion records none is written (22_fault_detection.md R622), nor any of a queue that is being
destroyed (R163, R193). -/
def execFenceComplete (t : TaskId) (page : Option Addr) (s : State) : Outcome State Fault Refusal :=
  match s.task? t with
  | none => .next s
  | some x =>
    if x.ty ≠ 7 || x.phase ≠ .dispatched || x.sent || s.saf.stopped || (s.queue t.queue).destroying || !s.fenceDone x
        || s.joins.any (fun j => j.kind = JoinKind.record t) then .next s
    else .next (s.recordWrite x page).kick

/-! ### DONE, walks, aging (R171, R174, R175) -/

/-- A gathering of answers is of a task. -/
def State.joinOf (s : State) (t : TaskId) (j : Join) : Bool :=
  match j.kind with
  | .drain _ k _ _ _ => (match s.spin? k with | some r => r.members.any (fun m => m.task = t) | none => false)
  | .fill k => s.dsp.fills.any (fun f => f.id = k && (match s.spin? f.spin with | some r => r.members.any (fun m => m.task = t) | none => false))
  | .copyIn k => (match s.copy? k with | some c => c.for_ = .move t | none => false)
  | .copyOut k => (match s.copy? k with | some c => c.for_ = .move t | none => false)
  | .collIn u => u = t
  | .collOut u => u = t
  | .record u => u = t
  | _ => false

/-- Nothing of a task is under way (R177): no read or held write of it on the host link, no access of it at a tollgate or a home, none whose
answer an engine awaits. -/
def State.taskQuiet (s : State) (t : TaskId) : Bool :=
  !s.joins.any (s.joinOf t) && !(s.mesh.waiting.any (fun w => w.acc.isSome && w.req.task = some t)) && !(s.host.reads ++ s.host.held).any (fun q => q.task = some t) &&
    !(s.mem.txns.any (fun x => match x.req with | some r => r.acc.task = some t | none => false)) &&
    !(s.mem.held.any (fun e => e.2.acc.task = some t)) && !(s.mem.waitQ.any (fun e => e.2.2.2.2.acc.task = some t))

/-- Every tile of a SPIN's run is written (R171), or it was stopped and no hank holds a tile or drain of it (09_memory_integrity.md
R279): in a batch, none that started before its member was. -/
def State.spinDone (s : State) (t : TaskId) : Bool :=
  s.dsp.spins.any (fun r => r.members.any (fun m => m.task = t) && (r.done = r.total ||
    ((r.stop || r.members.any (fun m => m.task = t && m.stop)) && !s.dsp.hanks.any (fun e =>
      (match e.2.run with | some x => x.spin = r.id && (r.stop || r.members.any (fun m => m.task = t && !x.pois.contains m.num)) | none => false)
        || e.2.drains.any (fun d => d.spin = r.id)))))

/-- A dispatched task may report success (R171): a MOVE, SPIN, XFER, COLL or a SIGNAL whose held record writes have left.
[DEDUCED, log entry 191] -/
def State.mayEnd (s : State) (t : TaskSt) : Bool :=
  match t.ty with
  | 1 => s.spinDone t.id && s.taskQuiet t.id
  | 2 => s.copied (.move t.id) && s.taskQuiet t.id
  | 4 => t.sent && !s.fab.e2e.any (fun e => e.task = some t.id)
  | 5 => s.taskQuiet t.id && !s.fab.e2e.any (fun e => e.task = some t.id)
  | 7 => t.sent && !s.host.held.any (fun q => q.task = some t.id)
  | _ => false

/-- TASK_DONE: a failure ends the task as it is reported, once nothing of it is under way (R177); a task of a queue being destroyed ends
CANCELLED whatever is reported.
[DEDUCED, log entry 191] -/
def State.engineDone (s : State) (t : TaskSt) (status : Nat) : State :=
  if t.ty = 7 && status = 0 && !(s.queue t.id.queue).destroying then s.recordDone t.id tsOK else s.taskDone t.id status

def execTaskDone (t : TaskId) (status : Nat) (s : State) : Outcome State Fault Refusal :=
  match s.task? t with
  | none => .next s
  | some x =>
    let own := x.ty = 1 || x.ty = 2 || x.ty = 4 || x.ty = 5 || x.ty = 7
    if x.phase ≠ .dispatched then .next s
    else if ((s.queue t.queue).destroying && s.taskQuiet t) || (own && ((status % 256 ≠ 0 && s.taskQuiet t) || s.mayEnd x)) then
      .next (s.engineDone x (status % 256))
    else .next s

/-- A TASK reference is delivered (R174, R188): a target not fetched pauses the walk (none). -/
def State.deliverTask (s : State) (t : TaskSt) (d : Nat) : Option State :=
  let q := t.id.queue
  let id : TaskId := ⟨q, (t.id.index + d) % 2 ^ 32⟩
  match s.task? id with
  | none => if (s.queue q).fetched id.index then some (s.stopQueue q tsCOUNT_ERROR t.id.index) else none
  | some u =>
    if u.pred = 0 then some (s.stopQueue q tsCOUNT_ERROR t.id.index)
    else
      let u1 := { u with pred := u.pred - 1, arith := if t.ty = 1 && u.ty = 7 then arithJoin u.arith t.arith else u.arith }
      let u2 := match t.origin with | some o => u1.mark t.id.index o | none => u1
      some ((s.putTask u2).makeReady id)

/-- The walk of a task ends where nothing is left (R174), with SUCC_FAULT where a bad reference is next (R170). -/
def State.walkEnd (s : State) (id : TaskId) : State :=
  match s.task? id with
  | none => s
  | some t =>
    if t.refs ≠ [] then s
    else if t.block = 2 ^ 64 then (s.stopQueue id.queue tsSUCC_FAULT id.index).retire t
    else if t.block = 0 then s.retire t
    else s

/-- One reference of a walk is delivered. -/
def State.deliver (s : State) (t : TaskSt) : State :=
  match t.refs with
  | [] => s
  | r :: rest =>
    let k := r / 2 ^ 30
    let s1 := s.putTask { t with refs := rest }
    if k = 1 then
      match s1.deliverTask t (r % 4096) with
      | none => s
      | some s2 => s2.walkEnd t.id
    else if k = 2 then (s1.eventInc t.part (r % 2 ^ 14) (t.status ≠ 0)).walkEnd t.id
    else s1.walkEnd t.id

/-- What the Dispatcher's task or event store meets as an entry is used (09_memory_integrity.md R268, R269): corrected and transient errors are
counted in the partition's DSP page and logged under structure 6; a lasting one is a FATAL fault of the device, and the entry is not used.
[DEDUCED, log entry 230] -/
def State.storeErr (s : State) (p entry : Nat) (e : SramErr) (f : State → State) : State :=
  let loc := 6 <<< 24 + entry % 2 ^ 24
  match e with
  | .good => f s
  | .corrected _ b => f (s.arrayErr (pg cDSP p) 2 p 5 loc ceCORRECTED (b / 4))
  | .transient _ => f (s.arrayErr (pg cDSP p) 2 p 5 loc ceTRANSIENT 31)
  | .lasting _ => s.storeFatal (pg cDSP p) p loc

def execReferenceDelivery (t : TaskId) (err : SramErr) (s : State) : Outcome State Fault Refusal :=
  match s.task? t with
  | none => .next s
  | some x => if x.phase ≠ .walking then .next s else .next (s.storeErr x.part (x.id.queue * 4096 + x.id.index % 4096) err (fun s => s.deliver x))

/-- A successor block has been read, or could not be (R170): the references before a bad one are delivered first. -/
def State.blockRead (s : State) (t : TaskSt) (data : Option (List Byte)) : State :=
  let span := (s.queue t.id.queue).span
  match data with
  | none => (s.putTask { t with block := 2 ^ 64 }).walkEnd t.id
  | some b =>
    let all := (List.range 14).map (fun i => fieldAt b (4 * i) 4)
    let good := all.takeWhile (fun r => s.refOk t.part span r)
    let next := fieldAt b 0x38 8
    let bad := good.length < 14 || (next ≠ 0 && (!objOk next 64 || 16 ≤ t.blocks + 1))
    (s.putTask { t with refs := good, blocks := t.blocks + 1, block := if bad then 2 ^ 64 else next }).walkEnd t.id

def execSuccBlockRead (t : TaskId) (data : Option (List Byte)) (s : State) : Outcome State Fault Refusal :=
  match s.task? t with
  | none => .next s
  | some x =>
    if x.phase ≠ .walking || x.refs ≠ [] || x.block = 0 || x.block = 2 ^ 64 then .next s
    else .next (s.blockRead x (s.readObj x.part x.block 64 data))

/-- A ready task has waited AGE_US once more (R175). -/
def execTaskAging (t : TaskId) (s : State) : Outcome State Fault Refusal :=
  match s.task? t with
  | none => .next s
  | some x =>
    if x.phase ≠ .ready || s.fld (pg cDSP x.part) PgDSP.CFG_AGE_US = 0 then .next s
    else .next (s.putTask { x with prio := x.prio - 1 })

/-! ### Event commands (R161, R180, R182) -/

/-- An event command acts on an event of the partition's range; EVENT is stored.
[DEDUCED, log entry 186] -/
def State.eventDo (s : State) (d p e : Nat) (f : State → State) : State :=
  let s1 := s.setFld d PgDSP.EVT_CMD_EVENT e
  (if s1.eventIn p e then f s1 else s1.count d PgHDR.ERR_COUNT_CORRECTED 1).setInt d 1

/-- A write of EVT_CMD.OP.
[DEDUCED, log entry 186] -/
def State.eventCmd (s : State) (r : Requester) (p e : Nat) (f : Nat → State → State) : State :=
  s.gateBlk r cDSP p 0x130 (fun d s => s.eventDo d p e (f d))

/-- READ: the event's state in EVT_DATA.
[DEDUCED, log entry 187] -/
def State.eventRead (s : State) (d e : Nat) : State :=
  let x := s.event e
  let node : Nat := match x.fwd with | some (n, _) => n % 2 ^ 18 * 2 ^ 36 + n / 2 ^ 18 % 16 * 2 ^ 32 | none => 0
  s.setWord d 0x138 (BitVec.ofNat 64 (b2n x.err * 2 ^ 63 + b2n x.fwd.isSome * 2 ^ 62 + node + x.count))

def execEventRead (r : Requester) (p e : Nat) (err : SramErr) (s : State) : Outcome State Fault Refusal :=
  .next (s.eventCmd r p (e % 2 ^ 14) (fun d s => s.storeErr p (e % 2 ^ 14) err (fun s => s.eventRead d (e % 2 ^ 14))))

def execEventSet (r : Requester) (p e : Nat) (s : State) : Outcome State Fault Refusal :=
  .next (s.eventCmd r p (e % 2 ^ 14) (fun d s =>
    (s.setEvent (e % 2 ^ 14) { count := s.fld d PgDSP.EVT_DATA_COUNT }).evalWaits (e % 2 ^ 14)))

/-- FORWARD: bits [31:14] of COUNT must be 0; else the write is ignored with ORDER. -/
def execEventForward (r : Requester) (p e : Nat) (s : State) : Outcome State Fault Refusal :=
  .next (s.gateBlk r cDSP p 0x130 (fun d s0 =>
    if 2 ^ 14 ≤ s0.fld d PgDSP.EVT_DATA_COUNT then s0.order d r 0x130
    else s0.eventDo d p (e % 2 ^ 14) (fun s =>
      let dst := s.fld d PgDSP.EVT_DATA_NODE + s.fld d PgDSP.EVT_DATA_PART * 2 ^ 18
      (s.setEvent (e % 2 ^ 14) { fwd := some (dst, s.fld d PgDSP.EVT_DATA_COUNT) }).evalWaits (e % 2 ^ 14))))

end Sys2Proof.Machine
end

