-- ==== Sys2Proof/Machine/Array.lean ====
section
/-! DEFINITION. SPIN dispatch, tile queues, hank steps and their check, drains, lists, the distaff, spindle fences (04_spindle_array.md;
06_task_graphs.md R178, R179). -/
namespace Sys2Proof.Machine
open Host

/-! ### Runs and their units (R121, R152) -/

/-- A unit by M tile and segment. -/
def PatDesc.unitOf (d : PatDesc) (mt g : Nat) : Nat := if d.nMajor then mt * d.segs + g else g * d.mTiles + mt

/-- The `i`-th unit of hank number `j` of an AFFINE or FIXED set of `h` hanks. -/
def PatDesc.nthUnit (d : PatDesc) (h j i : Nat) : Option Nat :=
  if d.place = 1 then
    let mt := j + h * (i / d.segs)
    if mt < d.mTiles then some (d.unitOf mt (i % d.segs)) else none
  else
    let u := j + h * i
    if u < d.units then some u else none

/-- What a hank of a run takes next, and the run after it has. -/
def SpinRun.takeUnit (r : SpinRun) (n : Nat) : Option (Nat × SpinRun) :=
  let d := r.desc
  let h := r.hanks.length
  let own (j : Nat) : Option (Nat × SpinRun) :=
    (d.nthUnit h j (NMap.getD r.pos 0 j)).map (fun u => (u, { r with pos := NMap.put r.pos 0 j (NMap.getD r.pos 0 j + 1) }))
  let again : Option (Nat × SpinRun) := match r.requeue with
    | u :: us => some (u, { r with requeue := us })
    | [] => none
  if r.stop then none
  else if d.place = 0 then
    match again with
    | some x => some x
    | none => if r.next < d.units then some (r.next, { r with next := r.next + 1 }) else none
  else match (List.range h).find? (fun j => r.hanks[j]? = some n) with
    | none => none
    | some j => match own j with
      | some x => some x
      | none => if d.place = 2 then none else match again with
        | some x => some x
        | none => r.orphans.findSome? own

/-- Class of a hank's accesses for a run (11_mesh_and_regulation.md R340). -/
def State.runClass (s : State) (n : Nat) (r : SpinRun) : Nat :=
  let rt := s.fld (pg cTOL (496 + r.part)) PgTSH.DSP_SHARE_RT_LEVELS
  if r.members.any (fun m => match s.task? m.task with | some t => t.prio < rt | none => false) then 1
  else s.fld (pg cTOL n) PgTOL.CLASS_CFG_DEFAULT_CLASS

/-! ### Dispatch (06_task_graphs.md R178, R179; R108, R112) -/

/-- Owned by the partition and live. -/
def State.hankMine (s : State) (p n : Nat) : Bool := s.ownerPart (pg cHNK n) = p && s.live (.hank n)

/-- The hanks a SPIN gets, or the code it ends with (R178). -/
def State.hankSet (s : State) (p k : Nat) (d : PatDesc) : List Nat × Nat :=
  let hs := s.hsetBits p k
  if d.place = 2 then
    if hs = [] then ([], tsHSET_EMPTY) else if hs.all (s.hankMine p) then (hs, 0) else ([], tsFIXED_SET_LOST)
  else
    let e := hs.filter (s.hankMine p)
    (e, if e = [] then tsHSET_EMPTY else 0)

/-- Distaff-eligible (R108). -/
def PatDesc.eligible (d : PatDesc) : Bool := d.thin && 1 ≤ d.n && d.n ≤ 15

/-- Requests pending at the distaff of a lead hank (R112).
[DEDUCED, log entry 234] -/
def State.pendingReqs (s : State) (l : Nat) : Nat :=
  ((s.dsp.batches.filter (fun b => s.lead b.hanks = l)).map (fun b => b.reqs.length)).foldl (· + ·) 0 +
    (s.dsp.arriving.filter (fun a => s.lead a.hanks = l)).length

/-- SPINs in a tile queue (R179). -/
def State.queued (s : State) (p k : Nat) : Nat := (s.dsp.spins.filter (fun r => r.part = p && r.hset = k)).length

/-- A run takes its place among the others: older first. -/
def spinInsert (r : SpinRun) : List SpinRun → List SpinRun
  | [] => [r]
  | x :: xs => if r.id < x.id then r :: x :: xs else x :: spinInsert r xs

/-- HSET of a SPIN. -/
def TaskSt.hset (t : TaskSt) : Nat := (t.body.getD 8 0).toNat % 16

/-- A SPIN whose descriptor has been read may be dispatched now, be it to end at once. -/
def State.spinCan (s : State) (pds : List PdRead) (t : TaskSt) : Bool :=
  match pds.find? (fun x => x.task = t.id) with
  | none => false
  | some x =>
    if x.status ≠ 0 || s.patCheck t.part x.data ≠ 0 then true
    else
      let d := patOf x.data
      let hs := s.hankSet t.part t.hset d
      if hs.2 ≠ 0 then true
      else if d.eligible then s.pendingReqs (s.lead hs.1) < 64
      else s.queued t.part t.hset < 8

/-- A SPIN is placed (R178): ended with its read's status, the descriptor's code or its set's, sent to its distaff, or queued. -/
def State.spinPlace (s : State) (t : TaskSt) (x : PdRead) : State :=
  let code := if x.status ≠ 0 then x.status else s.patCheck t.part x.data
  if code ≠ 0 then s.taskEnd t.id code
  else
    let d := patOf x.data
    let hs := s.hankSet t.part t.hset d
    if hs.2 ≠ 0 then s.taskEnd t.id hs.2
    else
      let s1 := s.dispatched t t.hset
      if d.eligible then { s1 with dsp := { s1.dsp with arriving := s1.dsp.arriving ++ [⟨t.id, t.part, t.hset, d, hs.1⟩] } }
      else
        let r : SpinRun := { id := s1.dsp.nextSpin, part := t.part, hset := t.hset, members := [{ task := t.id, desc := d, col0 := 0 }], desc := d, hanks := hs.1 }
        { s1 with dsp := { s1.dsp with spins := spinInsert r s1.dsp.spins, nextSpin := s1.dsp.nextSpin + 1 } }

/-- The pattern descriptor of a SPIN as its read finds it (R172, 09_memory_integrity.md R279): in a window what memory holds, ACCESS where the read
is refused, POISON where it is poisoned; else as the read reports it. -/
def State.pdOf (s : State) (t : TaskSt) (pds : List PdRead) : Option PdRead :=
  let o := fieldAt t.body 0 8
  let given := pds.find? (fun x => x.task = t.id)
  if o / 2 ^ 62 = 0 then given
  else match s.peek t.part o 256 (fun i => s.objWindow t.part (o + i)) with
    | none => given
    | some none => some { task := t.id, data := [], status := tsACCESS }
    | some (some (b, bad)) => some { task := t.id, data := b, status := if bad then tsPOISON else 0 }

/-- The descriptors of the ready SPINs. -/
def State.pdsOf (s : State) (pds : List PdRead) : List PdRead :=
  (s.dsp.tasks.filter (fun t => t.ty = 1 && t.phase = .ready)).filterMap (fun t => s.pdOf t pds)

/-- [DESIGN CHOICE, log entry 6] -/
def execSpinDispatch (pds : List PdRead) (s0 : State) : Outcome State Fault Refusal :=
  let xs := s0.pdsOf pds
  match s0.pick 1 (s0.spinCan xs) with
  | none => .next s0
  | some (t, s) => match xs.find? (fun x => x.task = t.id) with
    | none => .next s
    | some x => .next (s.spinPlace t x)

/-! ### The distaff (R108-R113) -/

/-- The weight-side fields of a descriptor (R108, 05_spindle_arithmetic.md R153). -/
def PatDesc.weightSide (d : PatDesc) : PatDesc :=
  { d with n := 0, bBase := 0, bScale := 0, bStride := 0, cBase := 0, cStride := 0, csBase := 0, indexBase := 0, resBase := 0
           resStride := 0, seed := 0 }

def Batch.cols (b : Batch) : Nat := (b.reqs.map (fun q => q.2.n)).foldl (· + ·) 0

/-- Members of a batch in order of arrival, in consecutive columns (R109). -/
def membersOf : Nat → Nat → List (TaskId × PatDesc) → List SpinMember
  | _, _, [] => []
  | k, c, q :: qs => { task := q.1, desc := q.2, col0 := c, num := k } :: membersOf (k + 1) (c + q.2.n) qs

/-- A batch is released: it runs as one SPIN, in the order of its first request's arrival (R110). -/
def State.release (s : State) (b : Batch) : State :=
  match b.reqs with
  | [] => s
  | q :: _ =>
    let r : SpinRun := { id := b.id, part := b.part, hset := b.hset, members := membersOf 0 0 b.reqs, desc := { q.2 with n := b.cols }, hanks := b.hanks }
    { s with dsp := { s.dsp with batches := s.dsp.batches.filter (fun x => x.id ≠ b.id), spins := spinInsert r s.dsp.spins } }

/-- A field of DST_CFG as a lead hank uses it (R67, R119): inside a segment the value the segment found at its start. -/
def State.dstFld (s : State) (n : Nat) (f : Fld) : Nat :=
  let h := s.hank n
  match h.run with
  | some t => if t.step % 1024 = 0 then s.fld (pg cHNK n) f else natBits h.dst f.hi f.lo
  | none => s.fld (pg cHNK n) f

/-- A request opens a batch; it is released at once when it is full, or WINDOW is 0. -/
def State.openBatch (s : State) (a : DistaffReq) : State :=
  let b : Batch := ⟨s.dsp.nextSpin, a.part, a.hset, [(a.task, a.desc)], s.clock, a.hanks⟩
  let l := s.lead a.hanks
  let s1 : State := { s with dsp := { s.dsp with batches := s.dsp.batches ++ [b], nextSpin := s.dsp.nextSpin + 1 } }
  if s.dstFld l PgHNK.DST_CFG_WINDOW = 0 || s.dstFld l PgHNK.DST_CFG_FILL ≤ a.desc.n then s1.release b else s1

/-- A request reaches its distaff (R109, R110). -/
def State.arrive (s : State) (a : DistaffReq) : State :=
  let l := s.lead a.hanks
  let mine := s.dsp.batches.filter (fun b => s.lead b.hanks = l)
  match mine.find? (fun b => b.part = a.part && b.hset = a.hset && match b.reqs with | q :: _ => q.2.weightSide = a.desc.weightSide | [] => false) with
  | some b =>
    if b.cols + a.desc.n ≤ 16 then
      let b1 := { b with reqs := b.reqs ++ [(a.task, a.desc)] }
      let s1 : State := { s with dsp := { s.dsp with batches := s.dsp.batches.map (fun x => if x.id = b.id then b1 else x) } }
      if s.dstFld l PgHNK.DST_CFG_FILL ≤ b1.cols then s1.release b1 else s1
    else (s.release b).openBatch a
  | none =>
    let s1 := if s.dstFld l PgHNK.DST_CFG_MAX_OPEN ≤ mine.length then (match mine with | b :: _ => s.release b | [] => s) else s
    s1.openBatch a

def execDistaffArrival (t : TaskId) (s : State) : Outcome State Fault Refusal :=
  match s.dsp.arriving.find? (fun a => a.task = t) with
  | none => .next s
  | some a => .next (({ s with dsp := { s.dsp with arriving := s.dsp.arriving.filter (fun x => x.task ≠ t) } } : State).arrive a)

/-- WINDOW × 100 ns have passed since a batch's first request (R110). -/
def execDistaffWindowExpire (b : Nat) (s : State) : Outcome State Fault Refusal :=
  match s.dsp.batches.find? (fun x => x.id = b) with
  | none => .next s
  | some x =>
    if s.clock < x.tick + 10 * s.dstFld (s.lead x.hanks) PgHNK.DST_CFG_WINDOW then .next s else .next (s.release x)

/-! ### Taking a tile (R101, R121, R122, R179) -/

/-- A pass of a tile starts on a hank with nothing under way for it. -/
def State.startPass (s : State) (n : Nat) (d : PatDesc) (h : HankSt) (t : TileRun) : State :=
  (s.dropFills n false).setHank n { d.load (s.spindles n) h t with run := some t }

/-- A tile or strip is taken. Its walk starts at chunk `start` where the column bobbins hold that chunk and the order is free (05_spindle_arithmetic.md
R140); a strip without N tiles ends as it is taken: its lists hold fillers only (R152). -/
def State.takeTile (s : State) (n start : Nat) (r : SpinRun) (u : Nat) : State :=
  let d := r.desc
  let h := s.hank n
  let (mt, g) := d.unitAt u
  let t0 : TileRun := { spin := r.id, unit := u, mt := mt, seg := g, nt := d.seg0 g, set := h.nextSet, pois := r.stopped }
  let free := !(d.fixedOrder || d.shift || d.colBob = 0) && d.holdsChunk (s.spindles n) h t0 start
  let t := { t0 with start := if free then start else 0 }
  let h1 := { h with nextSet := 1 - h.nextSet, lists := [], tileIn := [], bobFail := false, lastSet := r.part * 16 + r.hset }
  (if d.lists && d.seg0 (g + 1) ≤ d.seg0 g then s.setHank n { h1 with drains := h1.drains ++ [r.stripDrain t []] }
   else s.startPass n d h1 t).hankWork n

/-- Runs a hank may take a tile of: the oldest of each set that has one, with what it takes. -/
def State.offers (s : State) (n : Nat) : List (Nat × Nat × SpinRun) :=
  s.dsp.spins.foldl (fun (l : List (Nat × Nat × SpinRun)) r =>
    let k := r.part * 16 + r.hset
    if !r.hanks.contains n || l.any (fun x => x.1 = k) then l
    else match r.takeUnit n with
      | some (u, r1) => l ++ [(k, u, r1)]
      | none => l) []

/-- The set served next after `last`, in turn (R179). -/
def nextOffer (last : Nat) (l : List (Nat × Nat × SpinRun)) : Option (Nat × Nat × SpinRun) :=
  let key (x : Nat × Nat × SpinRun) : Nat := (x.1 + 256 - (last + 1) % 256) % 256
  l.foldl (fun best x => match best with
    | none => some x
    | some y => if key x < key y then some x else best) none

def execTileTake (n start : Nat) (s : State) : Outcome State Fault Refusal :=
  let h := s.hank n
  let multi := decide (1 < passes (s.spindles n))
  if 400 ≤ n || h.run.isSome || h.check ≠ 0 || h.unfence ≠ [] || !s.live (.hank n) || !s.accepts (pg cHNK n)
      || h.drains.any (fun d => d.set = h.nextSet || (multi && d.set < 2)) then .next s
  else match nextOffer h.lastSet (s.offers n) with
    | none => .next s
    | some (_, u, r) => .next ((s.putSpin r).takeTile n start r u)

/-! ### Operands (R102-R106) -/

/-- A fill of a hank starts (R103, R105). `contended`: a mesh-side access wants the same bank of the hank's own slice in the same step: the fill wins
while its bobbin holds fewer than LOOKAHEAD ÷ 2 steps, else it is deferred and tried again; either way one of the two waits (07_skein_memory.md
R195). [DESIGN CHOICE, log entry 228] -/
def State.operandFill (s : State) (n : Nat) (r : SpinRun) (t : TileRun) (f : Fill) (contended : Bool) : State :=
  match s.fillFor n r t f with
  | none => s
  | some x =>
    let held := match f with | .slice b => s.heldSteps n b | _ => 0
    if contended && s.fillLocal r x then
      let s1 := s.count (pg cSKN n) PgSKN.PERF_HOLD_BANK_CONFLICT 1
      if s.fld (pg cBOB n) PgBOB.CFG_LOOKAHEAD / 2 ≤ held then s1.count (pg cBOB n) PgBOB.STATUS_BANK_DEFER 1
      else s1.fillIssue r (s.runClass n r) x
    else s.fillIssue r (s.runClass n r) x

/-- [DESIGN CHOICE, log entry 228] -/
def execOperandFill (n : Nat) (f : Fill) (contended : Bool) (s : State) : Outcome State Fault Refusal :=
  if 400 ≤ n || !s.live (.hank n) || s.stopped (pg cHNK n) then .next s
  else match (s.hank n).run with
    | none => .next s
    | some t => match s.spin? t.spin with
      | none => .next s
      | some r => .next (s.operandFill n r t f contended).kick

/-! ### Steps (R98, R101, R114, R115) -/

/-- Adds to a counter kept in units of 1,024. -/
def State.kcount (s : State) (p : Nat) (f : Fld) (k : Nat) : State := if k = 1023 then s.count p f 1 else s

/-- The strip's lists are kept for the merge's FLAGGED count (R159). -/
def SpinRun.keepLists (r : SpinRun) (t : TileRun) (ls : NMap (List ListEnt)) : SpinRun :=
  { r with segLists := ls.foldl (fun m e => NMap.insert m ((t.mt * 64 + t.seg) * 512 + e.1) e.2) r.segLists }

/-- A tile of a run has ended on its hank: what it drains, and the tile of the strip that follows (R101, R152). -/
def State.tileOver (s : State) (n : Nat) (r : SpinRun) (t : TileRun) (fill : Nat) : State :=
  let h := s.hank n
  let d := r.desc
  let own := if t.pass = 0 then t.set else 1 - t.set
  if d.lists then
    let ls := r.joinLists t h.lists
    if t.nt + 1 < d.seg0 (t.seg + 1) then
      let t1 : TileRun := { t with nt := t.nt + 1, group := 0, pass := 0, step := 0, set := 1 - own, chain := [], work := [] }
      (s.startPass n d { h with lists := ls, tileIn := [], bobFail := false, nextSet := own, drains := h.drains ++ [⟨t.set, r.id, t.unit, t.mt, [], [], 1⟩] } t1)
    else (s.putSpin (r.keepLists t ls)).setHank n { h with lists := [], tileIn := [], run := none, drains := h.drains ++ [r.stripDrain t ls] }
  else
    let c := r.codes t
    let dr : Drain := ⟨t.set, r.id, t.unit, t.mt, r.runWrites t c.1 fill ++ c.2.1, c.2.2, 2⟩
    s.setHank n { h with run := none, tileIn := [], drains := h.drains ++ [dr] }

/-- A pass ends (R117): its elements go through the epilogue; another pass, another row group, or the end of the tile follows. -/
def State.passOver (s : State) (n : Nat) (r : SpinRun) (t : TileRun) : State :=
  let w := s.spindles n
  let h := s.hank n
  let d := r.desc
  let own := if t.pass = 0 then t.set else 1 - t.set
  let t1 := { t with work := r.passWork w h t }
  let go (t2 : TileRun) : State :=
    s.startPass n d { h with drains := h.drains ++ [⟨t.set, r.id, t.unit, t.mt, [], [], 0⟩] } t2
  if t.pass + 1 < passes w then go { t1 with pass := t.pass + 1, step := 0, set := 1 - own, chain := [] }
  else if t.group + 1 < groupsOf w (d.tileRows t.mt) then go { t1 with group := t.group + 1, pass := 0, step := 0, set := own, chain := [] }
  else
    let f := s.fresh
    if elemBits d.outFmt % 8 = 0 then s.tileOver n r t1 0 else f.2.tileOver n r t1 f.1.toNat

/-- A hank step is committed. -/
def State.stepCommit (s : State) (n : Nat) : State :=
  let h := s.hank n
  match h.run with
  | none => s
  | some t => match s.spin? t.spin with
    | none => s
    | some r =>
      let w := s.spindles n
      let d := r.desc
      let at_ := d.walkAt t
      let chain := if d.shift then d.chainAt t.mt at_ t.chain (match (NMap.getD h.bobs [] 20).head? with | some x => x.runs | none => []) else []
      let h0 := if t.step % 1024 = 0 then { h with dst := (s.word (pg cHNK n) 0x100).toNat } else h
      let h1 := d.consume w (d.step w h0 t chain) t
      let t1 := { t with step := t.step + 1, chain := chain }
      let s1 := (s.setHank n { h1 with run := some t1, busy := (h1.busy + 1) % 1024 }).kcount (pg cHNK n) PgHNK.PERF_BUSY_KSTEPS h1.busy
      (if t1.step < d.steps then s1 else s1.passOver n r t1).hankWork n

/-- The hank may step: its accumulator set is drained (R101), with several passes to a tile everything before it is (R118), no check holds it,
and at the start of a tile no quiesce does (R119, R124) and no spindle is to return. -/
def State.mayStep (s : State) (n : Nat) (h : HankSt) (t : TileRun) : Bool :=
  let multi := decide (1 < passes (s.spindles n))
  s.live (.hank n) && !s.stopped (pg cHNK n) && h.check = 0 && !h.drains.any (fun d => d.set = t.set || (multi && d.set < 2))
    && (!t.edge || (s.accepts (pg cHNK n) && h.unfence = []))

/-- The current tile starts again from its first step (R116). -/
def State.tileRestart (s : State) (n : Nat) : State :=
  let h := s.hank n
  match h.run with
  | none => s
  | some t => match s.spin? t.spin with
    | none => s
    | some r =>
      let t1 : TileRun := { t with group := 0, pass := 0, step := 0, set := if t.pass = 0 then t.set else 1 - t.set, chain := [], work := [] }
      s.startPass n r.desc { h with check := 0 } t1

/-- What the bobbins a step reads meet (09_memory_integrity.md R268, R269): corrected and transient errors are counted and logged under structure 3; a
lasting one restarts the tile, and a second one in it removes the hank. The Bool: the step goes on.
[DEDUCED, log entry 229] -/
def State.bobErr (s : State) (n : Nat) (e : SramErr) : State × Bool :=
  let p := pg cHNK n
  let loc (u : Nat) : Nat := 3 <<< 24 + n * 32 + u % 32
  match e with
  | .good => (s, true)
  | .corrected u b => (s.arrayErr p 2 31 5 (loc u) ceCORRECTED (b / 4), true)
  | .transient u => (s.arrayErr p 2 31 5 (loc u) ceTRANSIENT 31, true)
  | .lasting u =>
    let s1 := (s.ceLog 2 cePOISONED 31 31 5 (loc u)).2
    if (s.hank n).bobFail then (s1.faultUnit (.hank n) scBOBBIN, false)
    else ((s1.setHank n { s1.hank n with bobFail := true }).tileRestart n, false)

/-- One hank step (R98, R105, R114): it waits where an operand is missing, and only a wait on a bobbin is counted; the victim's step is committed where the check spindle agrees. -/
def State.hankStep (s0 : State) (n : Nat) (agree : Bool) (err : SramErr) (h : HankSt) (t : TileRun) (r : SpinRun) : State :=
  let b := s0.bobErr n err
  let s := if r.desc.ready (s0.spindles n) h t then b.1 else s0
  let w := s.spindles n
  let p := pg cHNK n
  if !r.desc.startReady h t || (t.step + 1 = r.desc.steps && !r.desc.epiReady h) then s
  else if !r.desc.ready w h t then
    ((s.setHank n { h with stall := (h.stall + 1) % 1024 }).kcount p PgHNK.PERF_STALL_KSTEPS h.stall).count (pg cBOB n)
      PgBOB.STATUS_EMPTY_STEPS 1
  else if !b.2 then s
  else
    let v := h.steps % 64
    let s1 := s.setHank n { h with steps := h.steps + 1 }
    if natBit w v && s.checkOk n && !agree then
      ((s1.setHank n { h with steps := h.steps + 1, check := 1 }).count p PgHNK.CHECK_MISMATCH 1).setFld p PgHNK.CHECK_LAST_VICTIM v
    else s1.stepCommit n

/-- [DEDUCED, log entry 193] -/
def execHankStep (n : Nat) (agree : Bool) (err : SramErr) (s : State) : Outcome State Fault Refusal :=
  let h := s.hank n
  match h.run with
  | none => .next s
  | some t => match s.spin? t.spin with
    | none => .next s
    | some r => if s.mayStep n h t then .next (s.hankStep n agree err h t r).kick else .next s

/-! ### The check spindle (R115, R116; 22_fault_detection.md R615) -/

/-- The replay ends (R115). -/
def State.replayDone (s : State) (n : Nat) (agree : Bool) : State :=
  let h := s.hank n
  let p := pg cHNK n
  if !agree then s.setHank n { h with check := 2 }
  else
    let s1 := (((s.setHank n { h with check := 0 }).count p PgHNK.CHECK_TRANSIENT 1).setFld p PgHNK.CHECK_LAST_OUTCOME 1).setInt p 0
    (s1.transient p scSPINDLE (s.fld p PgHNK.CHECK_LAST_VICTIM)).stepCommit n

def execCheckReplayDone (n : Nat) (agree : Bool) (s : State) : Outcome State Fault Refusal :=
  if (s.hank n).check ≠ 1 then .next s else .next (s.replayDone n agree)

/-- A hank's lasting fault takes a FIXED SPIN with it (22_fault_detection.md R621). -/
def State.endsFixed (s : State) (n : Nat) : Bool := s.dsp.spins.any (fun r => r.desc.place = 2 && r.hanks.contains n)

/-- Tiles written within the 64 steps before a lasting spindle fault are reported suspect (22_fault_detection.md R615, R621). -/
def State.suspects (s : State) (n v : Nat) : State :=
  let h := s.hank n
  let p := pg cHNK n
  ((h.recent.filter (fun e => h.steps ≤ e.2 + 64)).flatMap (fun e => e.1)).foldl (fun s t =>
    s.report true { s.ev .contained evLASTING scSPINDLE p (s.ownerPart p) v (t.queue * 2 ^ 32 + t.index) with suspect := true }) s

/-- A lasting fault in a spindle (R116); FAULTED wins over a fence that waits for it (R123). -/
def State.spindleLost (s : State) (n v : Nat) : State :=
  let p := pg cHNK n
  let part := s.ownerPart p
  let fixed := s.endsFixed n
  let s0 := (s.setWord p 0x108 (BitVec.ofNat 64 (natSetBits (s.word p 0x108).toNat v v 0))).setHank n
    { s.hank n with fence := (s.hank n).fence.filter (fun j => j ≠ v), unfence := (s.hank n).unfence.filter (fun j => j ≠ v) }
  let s1 := (s0.setSpindle n v false .faulted).count p PgHDR.ERR_COUNT_LASTING 1
  let sev : Severity := if fixed && !s1.live (.hank n) then .contained else .corrected
  let s2 := (s1.report true (s1.ev sev evLASTING scSPINDLE p part v 0)).setInt p 1
  (s2.suspects n v).tileRestart n

/-- The known-answer pattern ends (R115, R116): passed, the victim is at fault; failed, the check spindle is, and the hank is removed. -/
def State.knownAnswerDone (s : State) (n : Nat) (pass : Bool) : State :=
  let p := pg cHNK n
  let h := s.hank n
  let s1 := s.setHank n { h with check := 0 }
  if pass then (s1.setFld p PgHNK.CHECK_LAST_OUTCOME 2).spindleLost n (s.fld p PgHNK.CHECK_LAST_VICTIM)
  else
    let part := s.ownerPart p
    let sev : Severity := if s.endsFixed n then .contained else .corrected
    let s2 := (((s1.setFld p PgHNK.CHECK_LAST_OUTCOME 3).setCheckOk n false).removeUnit (.hank n) .faulted scCHECK).count p
      PgHDR.ERR_COUNT_LASTING 1
    s2.report true (s2.ev sev evLASTING scCHECK p part 0 0)

def execCheckKnownAnswerDone (n : Nat) (pass : Bool) (s : State) : Outcome State Fault Refusal :=
  if (s.hank n).check ≠ 2 then .next s else .next (s.knownAnswerDone n pass)

/-! ### Drains and lists (R101, R152) -/

/-- The parts of a write at a region address (R154 of 05_spindle_arithmetic.md): its whole bytes, and those it covers in part.
[DEDUCED, log entry 41] -/
def State.writeParts (s : State) (p : Nat) (x : Write) : Option (List Part) :=
  let whole : List (Nat × Nat × AccOp) :=
    (cutsOf x.addr x.data.length).map (fun c => (x.addr + c.1, c.2, .write ((x.data.drop c.1).take c.2) 0))
  let part : List (Nat × Nat × AccOp) := x.bits.map (fun b => (b.1, 1, .bits b.2.1 b.2.2))
  (whole ++ part).mapM (fun c => (s.regWindow p c.1).map (fun a => ({ addr := a, len := c.2.1, op := c.2.2 } : Part)))

/-- Members' status words take what was written (R159). -/
def SpinRun.addStats (r : SpinRun) (st : List (Nat × Nat × Nat)) : SpinRun :=
  { r with members := r.members.map (fun x =>
    (st.filter (fun e => e.1 = x.num)).foldl (fun (m : SpinMember) e => { m with bits := m.bits ||| e.2.1, flagged := satAdd 0xFFFF m.flagged e.2.2 })
      x) }

/-- A drain completes: its set is free, its writes go to their homes, a finished tile is counted. -/
def State.drainDone (s : State) (n : Nat) (d : Drain) (rest : List Drain) : State :=
  let h := s.hank n
  let p := pg cHNK n
  match s.spin? d.spin with
  | none => (s.setHank n { h with drains := rest }).hankWork n
  | some r =>
    let rec1 := if d.writes = [] then h.recent else
      h.recent.filter (fun e => h.steps ≤ e.2 + 64) ++ [(r.members.map (fun m => m.task), h.steps)]
    let s1 := ((s.setHank n { h with drains := rest, recent := rec1 }).putSpin (r.addStats d.stats)).hankWork n
    let s2 := if 1 ≤ d.ends && d.set < 2 then s1.setFld p PgHNK.STATUS_TILES ((s1.fld p PgHNK.STATUS_TILES + 1) % 2 ^ 32) else s1
    if d.ends < 2 then s2
    else match d.writes.mapM (fun x => s2.writeParts r.part x) with
      | none => s2.drained n d.spin d.unit d.mt d.ends tsACCESS
      | some ps => s2.serveParts (.drain n d.spin d.unit d.mt d.ends) n r.part (s2.runClass n r) 0 .plain 5 ps.flatten

def execDrainDone (n : Nat) (s : State) : Outcome State Fault Refusal :=
  if s.stopped (pg cHNK n) then .next s
  else match (s.hank n).drains with
  | [] => .next s
  | d :: rest => .next (s.drainDone n d rest).kick

/-- The hank a merge falls to reads the other lists (R152); they are merged as they come. -/
def State.mergeStart (s : State) (n : Nat) (r : SpinRun) (mt unit : Nat) : State :=
  if s.dsp.fills.any (fun f => f.fill = none && f.spin = r.id && f.mt = mt && f.goesTo.contains n) then s
  else s.fillIssue r (s.runClass n r)
    { id := s.dsp.nextFill, hank := n, spin := r.id, fill := none, at_ := 0, mt := mt, unit := unit, pieces := r.mergePieces mt unit, goesTo := [n] }

def execTopkMerge (n : Nat) (s : State) : Outcome State Fault Refusal :=
  if s.stopped (pg cHNK n) then .next s
  else match s.dsp.spins.findSome? (fun r => (r.merges.find? (fun m => m.1 = n)).map (fun m => (r, m))) with
    | none => .next s
    | some (r, m) => .next (s.mergeStart n r m.2.1 m.2.2).kick

/-! ### Spindle fences (R116, R124) -/

/-- Spindles that SP_FENCE holds out. -/
def State.fencedSpindles (s : State) (n : Nat) : List Nat := (List.range 64).filter (fun j => (s.unit (.spindle n j)).live = .fenced)

/-- A write of SP_FENCE (R124): bits of a spindle that is neither good nor fenced are dropped; too few good spindles refuse it whole. -/
def State.spFence (s : State) (r : Requester) (p n v : Nat) : State :=
  let w := s.spindles n
  let fenced := s.fencedSpindles n
  let mask := maskOf 64 (fun j => natBit v j && (natBit w j || fenced.contains j))
  let left := (List.range 64).filter (fun j => (natBit w j || fenced.contains j) && !natBit mask j)
  if left.length < 48 then s.order p r 0x108
  else
    let h := s.hank n
    (s.setWord p 0x108 (BitVec.ofNat 64 mask)).setHank n { h with
      fence := (List.range 64).filter (fun j => natBit mask j && natBit w j), unfence := fenced.filter (fun j => !natBit mask j) }

/-- A 32-bit write leaves the other half of a register. -/
def mergeHalf (old : Nat) (size : Nat) (high : Bool) (data : Nat) : Nat :=
  if size = 8 then data % 2 ^ 64
  else if high then data % 2 ^ 32 * 2 ^ 32 + old % 2 ^ 32
  else old / 2 ^ 32 * 2 ^ 32 + data % 2 ^ 32

def execSpFenceWrite (r : Requester) (n size : Nat) (high : Bool) (data : Nat) (s : State) : Outcome State Fault Refusal :=
  if 400 ≤ n then .next s
  else .next (s.gateBlk r cHNK n 0x108 (fun p s => s.spFence r p n (mergeHalf (s.word p 0x108).toNat size high data)))

def execSpindleFenceApply (n : Nat) (s : State) : Outcome State Fault Refusal :=
  let h := s.hank n
  let edge : Bool := match h.run with | some t => t.step % 1024 = 0 | none => true
  if h.fence = [] || h.check ≠ 0 || !edge then .next s
  else
    let s1 := s.setHank n { h with fence := [] }
    let js := h.fence.filter (fun j => (s.unit (.spindle n j)).live ≠ .faulted)
    .next ((js.foldl (fun s j => s.setSpindle n j false .fenced) s1).tileRestart n)

def execSpindleReturn (n : Nat) (s : State) : Outcome State Fault Refusal :=
  let h := s.hank n
  let edge : Bool := match h.run with | some t => t.edge && h.check = 0 | none => true
  if h.unfence = [] || !edge then .next s
  else
    let s1 := s.setHank n { h with unfence := [] }
    .next ((h.unfence.foldl (fun s j => s.setSpindle n j true .good) s1).tileRestart n)

end Sys2Proof.Machine
end

