-- ==== Sys2Proof/Machine/Coherence.lean ====
section
/-! DEFINITION. The host side of coherence and snoop timeouts (12_coherence.md R371, R374-R377; 16_host_endpoint.md R505). -/
namespace Sys2Proof.Machine
open Host

/-! ### CXL.mem (R375, R376; 16_host_endpoint.md R505) -/

/-- The decoder that accepts a host physical address, with the offset in its range. -/
def State.hdmFind (s : State) (hpa : Nat) : Option (Nat × Nat) :=
  (List.range 8).findSome? (fun d =>
    let x := NMap.getD s.host.hdm {} d
    if x.on && decide (x.base ≤ hpa) && decide (hpa < x.base + x.size) then some (d, hpa - x.base) else none)

/-- The partition and device address of a host address of an HDM range, through its decoder's CXL_BIND (R505). -/
def State.hdmAddr (s : State) (hpa : Nat) : Option (Nat × Addr) :=
  match s.hdmFind hpa with
  | none => none
  | some (d, o) =>
    if !s.actFlag pHEP (PgHEP.CXL_BIND_ENABLE d) then none
    else
      let p := s.actFld pHEP (PgHEP.CXL_BIND_PART d)
      (s.windowT2 p (s.actFld pHEP (PgHEP.CXL_BIND_TGT_OFFSET d) * 0x200000 + o)).map (fun a => (p, a))

/-- The access a CXL.mem request makes: a whole line, in the host endpoint's class. -/
def hdmAccess (id p : Nat) (a : Addr) : Access := ⟨id, 476, p, none, a, 64, 2, 0, false, none, false⟩

/-- An error completion with poison, counted (R505).
[DEDUCED, log entry 180] -/
def State.cxlRefuse (s : State) (id : Nat) : State := (s.emit (.cohErr 4 id)).count pHEP PgHEP.CLOSED_CNT_NP_REFUSED 1

/-- A CXL.mem request goes on where its decoder, its window and R246 accept it. -/
def State.cxlMem (s : State) (id hpa : Nat) (wr : Bool) (f : Access → Nat → State) : State :=
  if !s.cxlOn || hpa % 64 ≠ 0 then s
  else match s.hdmAddr hpa with
    | some (p, .dpa x) =>
      let a := hdmAccess id p (.dpa x)
      (match s.locate a wr with
       | .refuse => s.cxlRefuse id
       | _ => f a (x / 64))
    | _ => s.cxlRefuse id

/-- MemRd (R375): MetaValue S is RdShared, A is RdOwn, I and MemRdData are RdCur. -/
def execCxlMemrd (id hpa mv : Nat) (dataOnly : Bool) (s : State) : Outcome State Fault Refusal :=
  .next (s.cxlMem id hpa false (fun a line =>
    if dataOnly || mv = 0 then s.serveParts (.cxl line) 476 a.part 2 0 .rdCur 4 [{ addr := a.addr, len := 64, op := .read }]
    else s.enter { acc := a, op := .read, coh := if mv = 3 then .rdShared else .rdOwn, agent := 4 })).kick

/-- MemWr (R375): of the owner, a WrBack; else a write of a non-caching requester, then its MetaValue. -/
def execCxlMemwr (id hpa mv : Nat) (data : List Byte) (poison : Nat) (s : State) : Outcome State Fault Refusal :=
  .next (s.cxlMem id hpa true (fun a line =>
    match s.locate a true with
    | .home n _ part _ _ =>
      let owner := match s.filterOf n line with | some e => decide (e.st = .o 4) | none => false
      let waits := s.mem.txns.any (fun t => t.line = line && t.snoops.any (fun w => w.agent = 4))
      if owner || waits then s.wrBack n line part 4 id data poison
      else s.enter { acc := a, op := .write data poison, agent := 4, mv := mv }
    | _ => s.enter { acc := a, op := .write data poison, agent := 4, mv := mv })).kick

/-- The host answers a BISnp (R362, R363). -/
def execCxlBisnpResponse (line : Nat) (dirty : Option (List Byte)) (poison : Nat) (s : State) : Outcome State Fault Refusal :=
  .next (s.snoopAnswer line 4 false (dirty.map (fun d => (d, poison))) false).kick

/-- BIConflict (R376): the hub acknowledges it; the host's request waits behind the snoop at the ordering point. -/
def execBiconflict (line : Nat) (s : State) : Outcome State Fault Refusal :=
  if s.mem.txns.any (fun t => t.line = line && t.snoops.any (fun w => w.agent = 4)) then .next (s.emit (.biConflictAck line))
  else .next s

/-! ### CXL.cache (R377) -/

/-- Slices that cache a T3 line or whose filter lists it.
[DEDUCED, log entry 179] -/
def State.t3Holders (s : State) (line : Nat) : List Nat :=
  (List.range 400).filter (fun n => (s.findLine n line).isSome || (s.filterOf n line).isSome)

/-- A host snoop of a T3 line: applied at each slice that holds it, answered by the first; a line nobody holds is answered at once.
[DEDUCED, log entry 179] -/
def State.h2dSnoop (s : State) (hpaLine : Nat) (k : SnpKind) : State :=
  let line := t3Key hpaLine
  match s.t3Holders line with
  | [] => s.emit (.d2h 8 hpaLine [])
  | n :: rest =>
    ({ s with mem := { s.mem with h2dWait := s.mem.h2dWait ++ (n, line, k, true) :: rest.map (fun m => (m, line, k, false)) } } : State).settle n

def execH2dSnpdata (hpaLine : Nat) (s : State) : Outcome State Fault Refusal :=
  if !s.cxlOn then .next s else .next (s.h2dSnoop hpaLine .fwdShared).kick

def execH2dSnpinv (hpaLine : Nat) (s : State) : Outcome State Fault Refusal :=
  if !s.cxlOn then .next s else .next (s.h2dSnoop hpaLine .inv).kick

def execH2dSnpcur (hpaLine : Nat) (s : State) : Outcome State Fault Refusal :=
  if !s.cxlOn then .next s else .next (s.h2dSnoop hpaLine .fwdCur).kick

/-- The host answers a request of the slice for a T3 line: data and the state it grants (1 S, 2 E, 3 M; 0 an error, which fails the
request with TIER_FAIL). -/
def execCxlH2dResponse (hpaLine : Nat) (data : List Byte) (poison st : Nat) (s : State) : Outcome State Fault Refusal :=
  match s.mem.txns.find? (fun t => t.line = t3Key hpaLine && t.phase = .fill && t.gotMask = 0) with
  | none => .next s
  | some t =>
    if st = 0 then
      match t.req with
      | some r =>
        let s1 := if r.coh = CohKind.plain || r.coh = CohKind.rdCur then s.respond r.acc tsTIER_FAIL [] 0 else s.cohFail r tsTIER_FAIL
        .next ((s1.closeTxn t.id).settle t.slice).kick
      | none => .next s
    else .next (s.putTxn { t with got := data, gotMask := 3, gotPois := poison, hst := st })

/-! ### Snoop timeouts (R371) -/

/-- An agent answers no snoop in time: taken as RspI; a line it owned is poisoned, it leaves the entry, and its unit is reported.
[DEDUCED, log entry 180] -/
def State.snoopTimeout (s : State) (t : Txn) (agent : Nat) : State :=
  let s1 := s.setInt (pg cCOH t.slice) 1
  let s2 := match s1.filterOf t.slice t.line with
    | none => s1
    | some e =>
      let own := decide (e.st = FilterSt.o agent)
      let s3 := if own then s1.poisonLine t.slice t.line else s1
      let m := withoutBit e.mask agent
      s3.setFilter t.slice t.line (if m = 0 then none
        else some { e with mask := m, st := match e.st with | .sf f => if f = agent then .s else .sf f | .o o => if o = agent then .s else .o o | z => z })
  let s4 := s2.snoopAnswer t.line agent false none false
  if agent < 4 then s4.siteMiss agent (s4.nearChan agent t.slice) else s4.transient pHEP 0 0

def execSnoopTimeout (line agent : Nat) (s : State) : Outcome State Fault Refusal :=
  match s.mem.txns.find? (fun t => t.line = line && t.phase = .snoop && t.snoops.any (fun w => w.agent = agent)) with
  | none => .next s
  | some t => .next ((s.snoopTimeout t agent).kick).atuWork

def execWayMapCommit (n : Nat) (s : State) : Outcome State Fault Refusal :=
  if 400 ≤ n || !s.flag (pg cSKN n) PgHDR.PAGE_STATE_COMMIT_BUSY || 0 < s.openTxns n then .next s
  else if s.wayCommitBad n then .next ((s.commitRefuse (pg cSKN n)).releaseHeld n).kick
  else .next (s.wayMapCommit n).kick

end Sys2Proof.Machine
end

