-- ==== Sys2Proof/Machine/Ethernet.lean ====
section
/-! DEFINITION. The Ethernet ports: frames, queue pairs, memory regions, RDMA (17_network_ports.md). -/
namespace Sys2Proof.Machine
open Host

/-- The page that holds the QP and MR commands (R523). -/
def pETH : Nat := pg cETH 0

/-! ### Frames and flow control (R520, R522) -/

/-- Bytes in a port's receive buffer. -/
def EthPortSt.bytes (x : EthPortSt) : Nat := (x.buf.map (fun f => f.2)).foldl (· + ·) 0

/-- XOFF and XON of every priority with PFC enabled, as the occupancy has become (R522). -/
def State.pfcCheck (s : State) (e : Nat) : State :=
  let p := pg cETH e
  let n := (s.ethPort e).bytes
  (List.range 8).foldl (fun (s : State) i =>
    let x := s.ethPort e
    if !natBit (s.fld p PgETH.CFG_PFC_EN) i then s
    else if s.fld p PgETH.FC_XOFF_KIB * 1024 ≤ n && !x.xoff.contains i then
      ((s.setEthPort e { x with xoff := x.xoff ++ [i] }).emit (.pfc e i true)).ethCount e true 1
    else if n ≤ s.fld p PgETH.FC_XON_KIB * 1024 && x.xoff.contains i then
      ((s.setEthPort e { x with xoff := x.xoff.filter (fun y => y ≠ i) }).emit (.pfc e i false)).ethCount e true 1
    else s) s

/-- The port is BUSY while a frame waits in its buffer (R532). -/
def State.ethWork (s : State) (e : Nat) : State := s.workSet (pg cETH e) ((s.ethPort e).buf ≠ [])



/-- A frame arrives (R520, R522). `kind`: 0 a RoCEv2 packet, 1 PFC (`prio`: mask of the priorities it pauses), 2 anything else, 3 with a bad FCS or
ICRC.
[DEDUCED, log entry 108; DESIGN CHOICE, log entry 168] -/
def execEthFrameReceive (e kind prio bytes : Nat) (s : State) : Outcome State Fault Refusal :=
  if 2 ≤ e || !s.ethUp e then .next s
  else
    let s1 := s.ethCount e false 1
    let x := s1.ethPort e
    if kind = 1 then .next (s1.setEthPort e { x with paused := prio % 256 })
    else if kind ≠ 0 then .next (s1.count (pg cETH e) PgETH.PERF1_DROPPED 1)
    else if 1024 * 1024 < x.bytes + bytes then .next ((s1.count (pg cETH e) PgETH.PERF1_DROPPED 1).setInt (pg cETH e) 3)
    else .next (((s1.setEthPort e { x with buf := x.buf ++ [(prio % 8, bytes)] }).pfcCheck e).ethWork e)

/-- A packet is taken out of the receive buffer: the oldest frame leaves it.
[DEDUCED, log entry 164] -/
def State.takeFrame (s : State) (e : Nat) : State :=
  let x := s.ethPort e
  ((s.setEthPort e { x with buf := x.buf.drop 1 }).pfcCheck e).ethWork e

/-! ### Inbound requests (R525, R527) -/

def psnAdd (a n : Nat) : Nat := (a + n) % 2 ^ 24

/-- An inbound packet at its place in PSN order (R527): a packet ahead is answered NAK sequence; one already taken is acknowledged again, a READ or
atomic among them is left to the peer.
[DEDUCED, log entry 183] -/
def State.psnGate (s : State) (q : Nat) (r : RdmaReq) (k : State → State) : State :=
  let x := s.qp q
  if x.st ≠ 1 then s
  else if r.psn = x.rxPsn then k s
  else if (r.psn + 2 ^ 24 - x.rxPsn) % 2 ^ 24 < 2 ^ 23 then s.rdmaReply q x.rxPsn 1 0 []
  else s.rdmaReply q r.psn 0 0 []

/-- An inbound packet that has passed its checks joins the QP's queue; a region in SPACE 0 is translated under the QP's PASID (R525). -/
def State.rdmaQueue (s : State) (q kind n : Nat) (r : RdmaReq) (va : Option (Nat × Nat × Bool × Bool)) : State :=
  let x := s.qp q
  let s1 := s.setQp q { x with rxPsn := psnAdd x.rxPsn n, inq := x.inq ++ [{ kind := kind, req := r, pages := if va.isSome then none else some [] }] }
  match va with
  | none => s1.rdmaGo q (2 * (s1.qp q).inq.length + 1)
  | some (a, len, rd, wr) =>
    let client := 81 + x.ctx.port
    let id := s1.nextWait
    let first := a / 2 ^ 21
    let pages := (List.range ((a + max 1 len - 1) / 2 ^ 21 + 1 - first)).map (fun i => first + i)
    let w : XWait := { client := client, id := id, part := x.part, pasid := x.ctx.pasid, need := pages, got := [], use_ := .rdma q kind r }
    let s2 : State := { s1 with xwaits := s1.xwaits ++ [w], nextWait := s1.nextWait + 1 }
    pages.foldl (fun s v => s.translate x.ctx.pasid ⟨client, id, none, x.part, max a (v * 2 ^ 21), rd, wr⟩) s2

/-- A request on a memory region (R525): checked, then queued. -/
def State.rdmaRegion (s : State) (q kind bit n : Nat) (r : RdmaReq) (rd wr : Bool) : State :=
  match s.mrCheck q bit r with
  | none => s.rdmaRefuse q r.psn
  | some m =>
    let o := m.base + r.va
    s.rdmaQueue q kind n r (if o / 2 ^ 62 = 0 && r.len ≠ 0 then some (o % 2 ^ 57, r.len, rd, wr) else none)

/-- RNR NAK (R527). -/
def State.rnrNak (s : State) (q : Nat) (r : RdmaReq) : State := s.rdmaReply q r.psn 2 (s.qp q).ctx.minRnr []

/-- A work request or receive entry as its 64 bytes give it (R526): its OPCODE, and the entry; `checkOk`, its CHECK and reserved bytes hold. -/
def wqeOf (b : List Byte) : Nat × Wqe :=
  let f (o n : Nat) : Nat := fieldAt b o n
  (f 0 1, { signaled := natBit (f 1 1) 0, fence := natBit (f 1 1) 1, imm := f 4 4, addr := f 8 8, length := f 0x10 4, rkey := f 0x14 4, remoteVa := f 0x18 8
            compareAdd := f 0x20 8, swap := f 0x28 8, wrId := f 0x30 8
            checkOk := Sys2Proof.Machine.checkOk b && f 1 1 < 4 && f 2 2 = 0 && f 0x38 4 = 0 })

/-- An entry of a QP's ring at index `i` (R523, R526) as memory holds it: `none` where the ring lies in SPACE 0, or the host or a site holds it;
`some none` where the read is refused or poisoned. -/
def State.ringEntry (s : State) (q base log i : Nat) : Option (Option (Nat × Wqe)) :=
  let p := (s.qp q).part
  let o := base + 64 * (i % 2 ^ log)
  if o / 2 ^ 62 = 0 then none
  else (s.peek p o 64 (fun k => s.objWindow p (o + k))).map (fun x => x.bind (fun y => if y.2 then none else some (wqeOf y.1)))

/-- The receive entry an inbound packet takes (R526, R527): the one of the ring at RQ_BASE behind those that packets before it will consume.
[DESIGN CHOICE, log entry 6; DEDUCED, log entry 162] -/
def State.recvRead (s : State) (q : Nat) (r : RdmaReq) : RdmaReq :=
  let x := s.qp q
  match s.ringEntry q x.ctx.rqBase x.ctx.rqLog (x.rqHead + x.owed) with
  | none => r
  | some e => { r with entry := e.bind (fun y => if y.1 = 0x80 && y.2.checkOk then some y.2 else none) }

/-- A receive entry and a free CQ entry are there for a packet that needs them. -/
def State.recvRoom (s : State) (q : Nat) (r : RdmaReq) : Bool :=
  let x := s.qp q
  r.entry.isSome && decide (x.owed < x.rqFree) && decide (x.owed < x.cqFree)

def State.rdmaIn (s : State) (q : Nat) (r : RdmaReq) (k : State → State) : State :=
  if 16384 ≤ q then s else (s.takeFrame (s.qp q).ctx.port).psnGate q r k

def execRdmaWriteIn (q : Nat) (r : RdmaReq) (s : State) : Outcome State Fault Refusal :=
  .next (s.rdmaIn q r (fun s =>
    let r := if r.imm = none then r else s.recvRead q r
    if r.imm ≠ none && !s.recvRoom q r then s.rnrNak q r else s.rdmaRegion q 0 1 1 r false true)).kick

def execRdmaReadIn (q : Nat) (r : RdmaReq) (s : State) : Outcome State Fault Refusal :=
  .next (s.rdmaIn q r (fun s => s.rdmaRegion q 1 0 ((s.qp q).ctx.packets r.len) r true false)).kick

def execRdmaSendIn (q : Nat) (r : RdmaReq) (s : State) : Outcome State Fault Refusal :=
  .next (s.rdmaIn q r (fun s =>
    let r := s.recvRead q r
    if s.recvRoom q r then s.rdmaQueue q 2 1 r none else s.rnrNak q r)).kick

def execRdmaAtomicIn (q : Nat) (r : RdmaReq) (s : State) : Outcome State Fault Refusal :=
  .next (s.rdmaIn q r (fun s => s.rdmaRegion q 3 2 1 { r with len := 8 } true true)).kick

/-! ### Work requests (R526, R529) -/

/-- A work request's packets leave, while the link is up; they are lost otherwise and the timeout sends them again (R531). -/
def State.wqeSend (s : State) (q : Nat) (w : WqeRun) : State :=
  let e := (s.qp q).ctx.port
  if s.ethUp e then
    (s.emit (.rdmaReq q w.op w.psn w.packets w.wqe.remoteVa w.wqe.rkey w.wqe.imm w.data)).ethCount e true (if w.op = 4 then 1 else w.packets)
  else s

/-- Packets resent, go-back-N, from a work request on (R529). -/
def State.resendFrom (s : State) (q : Nat) (ws : List WqeRun) : State :=
  ws.foldl (fun (s : State) w => (s.wqeSend q w).count (pg cETH (s.qp q).ctx.port) PgETH.PERF1_RETRANSMITS w.packets) s

/-- Changes a work request that runs. -/
def State.putWqe (s : State) (q : Nat) (w : WqeRun) : State :=
  let x := s.qp q
  s.setQp q { x with runs := x.runs.map (fun y => if y.idx = w.idx then w else y) }

/-- PSN `a` is at or behind `b`, modulo 2^24. -/
def psnLe (a b : Nat) : Bool := decide ((b + 2 ^ 24 - a % 2 ^ 24) % 2 ^ 24 < 2 ^ 23)
def WqeRun.lastPsn (w : WqeRun) : Nat := psnAdd w.psn (w.packets - 1)

/-- Everything before a PSN is acknowledged (R529): writes and sends of it complete. -/
def State.ackUpTo (s : State) (q psn : Nat) : State :=
  ((s.qp q).runs.takeWhile (fun w => psnLe w.lastPsn psn && w.op < 4)).foldl (fun s w => s.wqeDone q w 0 w.wqe.length) s

/-- One more failure of a work request (R529): RETRY_CNT in a row end it. -/
def State.wqeRetry (s : State) (q : Nat) (w : WqeRun) (from_ : List WqeRun) : State :=
  if (s.qp q).ctx.retry ≤ w.tries + 1 then s.wqeDone q w csRETRY 0
  else (s.putWqe q { w with tries := w.tries + 1 }).resendFrom q from_

/-- An ACK or NAK (R529, R530). -/
def State.ackIn (s : State) (q psn : Nat) (a : RdmaAck) : State :=
  let s1 := s.ackUpTo q (match a with | .ack => psn | _ => (psn + 2 ^ 24 - 1) % 2 ^ 24)
  match (s1.qp q).runs with
  | [] => s1
  | w :: rest =>
    match a with
    | .ack => s1.putWqe q { w with tries := 0, rnrs := 0 }
    | .nakSeq => s1.wqeRetry q w (w :: rest)
    | .rnr =>
      let lim := (s1.qp q).ctx.rnrRetry
      if lim ≠ 7 && lim ≤ w.rnrs + 1 then s1.wqeDone q w csRNR 0 else s1.putWqe q { w with rnrs := w.rnrs + 1, rnrWait := true }
    | .nakAccess => s1.wqeDone q w csREMOTE_ACCESS 0
    | .nakOp => s1.wqeDone q w csREMOTE_OP 0
    | .resp data =>
      if w.op < 4 || w.storing || psnLe w.psn psn = false then s1
      else
        let s2 := s1.putWqe q { w with storing := true }
        let x := s1.qp q
        match bytesParts w.wqe.addr data.length (fun i => s2.bufAddr x.part w.wqe.addr w.pages i) (fun o n => .write ((data.drop o).take n) 0) with
        | none => s2.wqeDone q w tsACCESS 0
        | some ps => s2.serveParts (.wqe q w.idx) (468 + x.ctx.port) x.part 1 0 .plain 5 ps

def execRdmaAckIn (q psn : Nat) (a : RdmaAck) (s : State) : Outcome State Fault Refusal :=
  if 16384 ≤ q || (s.qp q).st ≠ 1 then .next s else .next ((s.takeFrame (s.qp q).ctx.port).ackIn q psn a).kick

def execRdmaAckTimeout (q : Nat) (s : State) : Outcome State Fault Refusal :=
  match (s.qp q).runs with
  | [] => .next s
  | w :: rest => if (s.qp q).st ≠ 1 || w.rnrWait || w.storing then .next s else .next (s.wqeRetry q w (w :: rest))

def execRnrTimer (q : Nat) (s : State) : Outcome State Fault Refusal :=
  match (s.qp q).runs with
  | [] => .next s
  | w :: rest =>
    if w.rnrWait then .next ((s.putWqe q { w with rnrWait := false }).resendFrom q ({ w with rnrWait := false } :: rest)) else .next s

/-- [DEDUCED, log entry 163] -/
def execCnpReceive (q : Nat) (s : State) : Outcome State Fault Refusal :=
  let x := s.qp q
  if x.st ≠ 1 then .next s else .next (s.setQp q { x with rate := x.rate / 2 })

/-- Every 50 µs the rate recovers by 1/16 of the line (R520).
[DEDUCED, log entry 163] -/
def execRateRecovery (q : Nat) (s : State) : Outcome State Fault Refusal :=
  let x := s.qp q
  if x.st ≠ 1 then .next s else .next (s.setQp q { x with rate := min (2 ^ 32) (x.rate + 2 ^ 28) })

/-- The verdict on a work request as fetched (R526, R530): 0, or its CQE status.
[DEDUCED, log entry 162] -/
def State.wqeCheck (s : State) (q op : Nat) (w : Wqe) (b : LocalBuf) : Nat :=
  let x := s.qp q
  if !w.checkOk then tsACCESS
  else if 64 * 2 ^ 20 < w.length || (5 ≤ op && w.length ≠ 8) then csLENGTH
  else match b with
    | .refused => if w.addr / 2 ^ 62 = 0 then tsXLATE_REFUSED else tsACCESS
    | .ok pages _ poison =>
      if poison && op < 4 then tsPOISON
      else if ((cutsOf w.addr w.length).mapM (fun c => s.bufAddr x.part w.addr pages c.1)).isNone then tsACCESS
      else 0

/-- The next work request of a QP as its send ring holds it (R523, R526), that of the command where the model does not hold the ring; one that
cannot be read, or whose OPCODE is none, fails its check.
[DESIGN CHOICE, log entry 6; DEDUCED, log entry 162] -/
def State.sendEntry (s : State) (q op : Nat) (w : Wqe) : Nat × Wqe :=
  let x := s.qp q
  match s.ringEntry q x.ctx.sqBase x.ctx.sqLog x.sqHead with
  | none => (op, w)
  | some none => (op, { w with checkOk := false })
  | some (some (o, v)) => if o < 7 then (o, v) else (op, { v with checkOk := false })

/-- The local buffer of a work request that sends (R526, R530): its bytes and their poison as memory holds them where the model does.
[DESIGN CHOICE, log entry 6] -/
def State.sendBuf (s : State) (q op : Nat) (w : Wqe) (b : LocalBuf) : LocalBuf :=
  let p := (s.qp q).part
  match b with
  | .refused => b
  | .ok pages _ _ =>
    if 4 ≤ op || 64 * 2 ^ 20 < w.length then b
    else match s.peek p w.addr w.length (fun i => s.bufAddr p w.addr pages i) with
      | none => b
      | some none => if w.addr / 2 ^ 62 = 0 then .ok [] [] false else .refused
      | some (some (d, bad)) => .ok pages d bad

/-- A work request read from its ring is issued (R529): on a QP in ERROR it completes FLUSHED; with FENCE it waits for earlier READs and atomics;
its priority must not be paused, its port not held (R532; 02_register_pages.md R63). -/
def State.wqeIssue (s : State) (q op : Nat) (w : Wqe) (b : LocalBuf) : State :=
  let x := s.qp q
  if x.st = 0 || x.sqHead = x.sqTail then s
  else if x.st = 2 then (s.setQp q { x with sqHead := (x.sqHead + 1) % 2 ^ 32 }).pushCqe q ⟨some w.wrId, op, csFLUSHED, 0, 0, false⟩
  else if !s.accepts (pg cETH x.ctx.port) then s
  else if (w.fence && x.runs.any (fun r => 4 ≤ r.op)) || natBit (s.ethPort x.ctx.port).paused x.ctx.prio then s
  else
    let n := x.ctx.packets w.length
    let r : WqeRun := { idx := x.sqHead, op := op, wqe := w, psn := x.txPsn, packets := n, pages := (match b with | .ok p _ _ => p | .refused => []),
                            data := (match b with | .ok _ d _ => if op < 4 then d else [] | .refused => []) }
    let s1 := s.setQp q { x with sqHead := (x.sqHead + 1) % 2 ^ 32, runs := x.runs ++ [r] }
    let st := s.wqeCheck q op w b
    if st ≠ 0 then s1.wqeDone q r st 0
    else (s1.setQp q { s1.qp q with txPsn := psnAdd x.txPsn n }).wqeSend q r

/-- The engine fetches the next work request of a QP (R529), which is of the row's opcode; there is no such fetch where the ring holds
another. -/
def State.wqeFetch (s : State) (q op : Nat) (w : Wqe) (b : LocalBuf) : State :=
  let e := s.sendEntry q op w
  if e.1 ≠ op then s else s.wqeIssue q op e.2 (s.sendBuf q op e.2 b)

def execWqeWrite (q : Nat) (w : Wqe) (b : LocalBuf) (s : State) : Outcome State Fault Refusal := .next (s.wqeFetch q 0 w b)
def execWqeWriteImm (q : Nat) (w : Wqe) (b : LocalBuf) (s : State) : Outcome State Fault Refusal := .next (s.wqeFetch q 1 w b)
def execWqeSend (q : Nat) (w : Wqe) (b : LocalBuf) (s : State) : Outcome State Fault Refusal := .next (s.wqeFetch q 2 w b)
def execWqeSendImm (q : Nat) (w : Wqe) (b : LocalBuf) (s : State) : Outcome State Fault Refusal := .next (s.wqeFetch q 3 w b)
def execWqeRead (q : Nat) (w : Wqe) (b : LocalBuf) (s : State) : Outcome State Fault Refusal := .next (s.wqeFetch q 4 w b)
def execWqeFetchAdd (q : Nat) (w : Wqe) (b : LocalBuf) (s : State) : Outcome State Fault Refusal := .next (s.wqeFetch q 5 w b)
def execWqeCmpSwap (q : Nat) (w : Wqe) (b : LocalBuf) (s : State) : Outcome State Fault Refusal := .next (s.wqeFetch q 6 w b)

/-! ### Completions (R528) -/

/-- A QP whose last completion has been written leaves, if DESTROY waits for it (R524). -/
def State.qpGone (s : State) (q : Nat) : State :=
  let x := s.qp q
  if x.dying && x.cqes = [] then
    ((((s.setQp q {}).setFld pETH PgETH.QP_CMD_BUSY 0).setFld pETH PgETH.QP_CMD_RESULT 0).setFld pETH PgETH.QP_CMD_STATE 0).setInt pETH 2
  else s

/-- The 32 bytes of a completion entry (R528). -/
def cqeBytes (q : Nat) (c : Cqe) (wrId : Nat) (phase : Bool) : List Byte :=
  natLe 8 (c.wrId.getD wrId) ++ natLe 2 q ++ natLe 1 c.op ++ natLe 1 c.status ++ natLe 4 c.bytes ++ natLe 4 c.imm ++ natLe 11 0 ++ natLe 1 (b2n phase)

/-- The oldest completion is written (R528): after data that went to host memory a flush read completes first (16_host_endpoint.md R502); then the
entry, and once that write is accepted the QP's event is incremented. -/
def State.cqeWrite (s : State) (q wrId : Nat) (page : Option Addr) : State :=
  let x := s.qp q
  match x.cqes with
  | [] => s
  | c :: rest =>
    let back := some (468 + x.ctx.port, q)
    if c.host && !x.flushing then (s.setQp q { x with flushing := true }).flushLast x.part none back
    else if c.host && (s.host.reads ++ s.host.held).any (fun h => h.kind = .flush && h.back = back) then s
    else if 2 ^ x.ctx.cqLog ≤ (x.cqTail + 2 ^ 32 - x.cqHead) % 2 ^ 32 then
      (if x.dying then (s.setQp q { x with cqes := [] }).qpGone q else s)
    else
      let phase := if natBit x.cqTail x.ctx.cqLog then !Config.firstPhase else Config.firstPhase
      let i := x.cqTail % 2 ^ x.ctx.cqLog
      let b := cqeBytes q c wrId phase
      let o := x.ctx.cqBase + 32 * i
      let s1 := s.setQp q { x with cqes := rest, flushing := false, cqTail := (x.cqTail + 1) % 2 ^ 32 }
      let write (s : State) (a : Addr) : State :=
        match a with
        | .hpa n => (s.hostWrite x.part none x.ctx.pasid n false false b).cqeEvent x.part x.ctx.event (c.status ≠ 0)
        | .hva q n => (s.hostWrite x.part none q n true false b).cqeEvent x.part x.ctx.event (c.status ≠ 0)
        | a => s.serveParts (.cqe x.part x.ctx.event (c.status ≠ 0)) (468 + x.ctx.port) x.part 1 0 .plain 5 [{ addr := a, len := 32, op := .write b 0 }]
      let at_ (a : Addr) (i : Nat) : Addr := match a with | .dpa n => .dpa (n + i) | .hpa n => .hpa (n + i) | .hva q n => .hva q (n + i) | .t0 n => .t0 (n + i)
      let a := if x.ctx.cqBase / 2 ^ 62 = 0 then page.map (fun a => at_ a (o % 2 ^ 21)) else s.objWindow x.part o
      let s2 := (match a with | some a => write s1 a | none => s1).emit (.cqe q i c phase)
      s2.qpGone q

def execCqeWrite (q wrId : Nat) (page : Option Addr) (s : State) : Outcome State Fault Refusal :=
  if 16384 ≤ q then .next s else .next (s.cqeWrite q wrId page).kick

/-! ### Commands of the ETH 0 page (R523-R526) -/

/-- A context that keeps R523, its CHECK apart. -/
def qpCtxOf (b : List Byte) : Option QpCtx :=
  let f (o n : Nat) : Nat := fieldAt b o n
  let c : QpCtx := { port := f 1 1, pmtu := f 2 1, prio := f 3 1, pasid := f 4 4, sqBase := f 8 8, rqBase := f 0x10 8, cqBase := f 0x18 8, sqLog := f 0x20 1
                     rqLog := f 0x21 1, cqLog := f 0x22 1, dscp := f 0x23 1, event := f 0x24 2, retry := f 0x26 1 % 8, rnrRetry := natBits (f 0x26 1) 6 4
                     timeout := f 0x27 1, destQpn := f 0x28 4, minRnr := f 0x34 1, sport := f 0x36 2, mac := f 0x38 6, vlan := f 0x3E 2
                     peerIp := f 0x40 16, localIp := f 0x50 16 }
  let objOk (a : Nat) : Bool := a / 2 ^ 62 ≠ 3 && natBits a 61 57 = 0 && a % 64 = 0
  if f 0 1 = 1 && c.port ≤ 1 && 3 ≤ c.pmtu && c.pmtu ≤ 5 && c.prio < 8 && c.pasid < 2 ^ 20 && objOk c.sqBase && objOk c.rqBase && objOk c.cqBase
      && 4 ≤ c.sqLog && c.sqLog ≤ 12 && (c.rqLog = 0 || (4 ≤ c.rqLog && c.rqLog ≤ 12)) && 4 ≤ c.cqLog && c.cqLog ≤ 14 && c.dscp < 64
      && !natBit (f 0x26 1) 7 && !natBit (f 0x26 1) 3 && 1 ≤ c.timeout && c.timeout ≤ 20 && c.destQpn < 2 ^ 24 && f 0x2C 4 < 2 ^ 24 && f 0x30 4 < 2 ^ 24
      && 1 ≤ c.minRnr && f 0x35 1 = 0 && c.vlan < 2 ^ 12 && ((b.drop 0x60).take 28).all (fun x => x = 0)
  then some c else none

/-- A write of QP_CMD with a command: it completes with a RESULT and the QP's STATE. -/
def State.qpCmd (s : State) (r : Requester) (part q : Nat) (f : State → State) : State :=
  s.gateBlk r cETH 0 0x138 (fun p s =>
    if s.flag p PgETH.QP_CMD_BUSY then s.order p r 0x138
    else f ((s.setFld p PgETH.QP_CMD_PART part).setFld p PgETH.QP_CMD_QP q))
def State.qpRes (s : State) (q result : Nat) : State :=
  ((s.setFld pETH PgETH.QP_CMD_RESULT result).setFld pETH PgETH.QP_CMD_STATE (s.qp q).st).setInt pETH 2

/-- QPs, and regions, a partition holds (R533). -/
def State.qpsOf (s : State) (p : Nat) : Nat := (s.eth.qps.filter (fun e => e.2.st ≠ 0 && e.2.part = p)).length
def State.mrsOf (s : State) (p : Nat) : Nat := (s.eth.mrs.filter (fun e => match e.2 with | some m => m.part = p | none => false)).length

/-- [DEDUCED, log entry 162] -/
def State.qpCreate (s : State) (part q : Nat) (b : Option (List Byte)) : State :=
  match b with
  | none => s.qpRes q 1
  | some b =>
    match (if Sys2Proof.Machine.checkOk (b.take 128) then qpCtxOf b else none) with
    | none => s.qpRes q 1
    | some c =>
      if !s.live (.eth c.port) || (c.event ≠ 0xFFFF && !s.eventIn part c.event) then s.qpRes q 1
      else if (s.qp q).st ≠ 0 then s.qpRes q 2
      else if s.fld (pg cPRT part) PgPRT.ETH_QUOTA_QP_LIMIT ≤ s.qpsOf part then s.qpRes q 4
      else if !s.ownsPasid part c.pasid then s.qpRes q 5
      else (s.setQp q { st := 1, part := part, ctx := c, txPsn := fieldAt b 0x2C 4, rxPsn := fieldAt b 0x30 4 }).qpRes q 0

/-- The context at QP_ARG (R524): what memory holds in the partition's windows, none where the read is refused or poisoned; the outer `none`:
a site holds it, or a gather engine gives it. -/
def State.qpCtxAt (s : State) (part : Nat) : Option (Option (List Byte)) :=
  let a := s.fld pETH PgETH.QP_ARG_CTX
  (s.peek part a 128 (fun i => s.regWindow part (a + i))).map (fun x => x.bind (fun y => if y.2 then none else some y.1))

def execQpCreate (r : Requester) (part q : Nat) (ctx : Option (List Byte)) (s : State) : Outcome State Fault Refusal :=
  .next (s.qpCmd r (part % 16) (q % 16384) (fun s => s.qpCreate (part % 16) (q % 16384) ((s.qpCtxAt (part % 16)).getD ctx)))

/-- DESTROY (R524): flushed, and freed once its completions are written.
[DEDUCED, log entry 165] -/
def State.qpDestroy (s : State) (part q : Nat) : State :=
  let x := s.qp q
  if x.st = 0 || x.part ≠ part then s.qpRes q 3
  else
    let s1 := s.qpFlush q
    let s2 := s1.setQp q { s1.qp q with st := 2, dying := true }
    (s2.setFld pETH PgETH.QP_CMD_BUSY 1).qpGone q

def execQpDestroy (r : Requester) (part q : Nat) (s : State) : Outcome State Fault Refusal :=
  .next (s.qpCmd r (part % 16) (q % 16384) (fun s => s.qpDestroy (part % 16) (q % 16384)))

def execQpQuery (r : Requester) (part q : Nat) (s : State) : Outcome State Fault Refusal :=
  .next (s.qpCmd r (part % 16) (q % 16384) (fun s =>
    let x := s.qp (q % 16384)
    if x.st ≠ 0 && x.part = part % 16 then s.qpRes (q % 16384) 0
    else ((s.setFld pETH PgETH.QP_CMD_RESULT 3).setFld pETH PgETH.QP_CMD_STATE 0).setInt pETH 2))

/-- A write of MR_CMD with a command. -/
def State.mrCmd (s : State) (r : Requester) (mr key : Nat) (f : State → Nat × State) : State :=
  s.gateBlk r cETH 0 0x148 (fun p s =>
    if s.flag p PgETH.MR_CMD_BUSY then s.order p r 0x148
    else
      let x := f ((s.setFld p PgETH.MR_CMD_MR mr).setFld p PgETH.MR_CMD_KEY key)
      (x.2.setFld p PgETH.MR_CMD_RESULT x.1).setInt p 2)

def State.setMr (s : State) (m : Nat) (x : Option MrSt) : State := { s with eth := { s.eth with mrs := NMap.put s.eth.mrs none m x } }

/-- REGISTER (R525): a region of the same partition is registered anew.
[DEDUCED, log entry 166] -/
def State.mrRegister (s : State) (mr key : Nat) : Nat × State :=
  let part := s.fld pETH PgETH.MR_ARG1_PART
  let base := s.fld pETH PgETH.MR_ARG0_BASE
  let hint := s.fld pETH PgETH.MR_ARG1_HINT
  let x : MrSt := ⟨part, key, base, s.fld pETH PgETH.MR_ARG1_ACCESS, hint, s.fld pETH PgETH.MR_ARG1_LENGTH⟩
  let t := hint / 2 ^ 13
  if base / 2 ^ 62 = 3 || natBits base 61 57 ≠ 0 || (if t = 2 then decide (4 ≤ hint % 2 ^ 13) else hint % 2 ^ 13 ≠ 0) then (1, s)
  else match s.mr mr with
    | some m => if m.part ≠ part then (3, s) else (0, s.setMr mr (some x))
    | none => if s.fld (pg cPRT part) PgPRT.ETH_QUOTA_MR_LIMIT ≤ s.mrsOf part then (4, s) else (0, s.setMr mr (some x))

def execMrRegister (r : Requester) (mr key : Nat) (s : State) : Outcome State Fault Refusal :=
  .next (s.mrCmd r (mr % 16384) (key % 256) (fun s => s.mrRegister (mr % 16384) (key % 256)))

def execMrInvalidate (r : Requester) (mr key : Nat) (s : State) : Outcome State Fault Refusal :=
  .next (s.mrCmd r (mr % 16384) (key % 256) (fun s =>
    match s.mr (mr % 16384) with
    | some m => if m.part = s.fld pETH PgETH.MR_ARG1_PART then (0, s.setMr (mr % 16384) none) else (3, s)
    | none => (3, s)))

/-- A new index of a ring (R526): within the ring and not behind, else the QP enters ERROR. -/
def State.ringIndex (s : State) (q old lo cap new : Nat) (f : QpSt → QpSt) : State :=
  let t := new % 2 ^ 32
  if (s.qp q).st = 0 || t = old then s
  else if (t + 2 ^ 32 - lo) % 2 ^ 32 ≤ cap && (t + 2 ^ 32 - old) % 2 ^ 32 < 2 ^ 31 then s.setQp q (f (s.qp q))
  else s.qpError q

/-- A write of DB. -/
def State.ethDb (s : State) (r : Requester) (f : State → State) : State := s.gateBlk r cETH 0 0x160 (fun _ s => f s)

/-- [DEDUCED, log entry 23] -/
def execEthDbSq (r : Requester) (q index : Nat) (s : State) : Outcome State Fault Refusal :=
  .next (s.ethDb r (fun s =>
    let x := s.qp (q % 16384)
    s.ringIndex (q % 16384) x.sqTail x.sqHead (2 ^ x.ctx.sqLog) index (fun x => { x with sqTail := index % 2 ^ 32 })))

/-- Receive entries; those of a QP in ERROR complete FLUSHED (R530).
[DEDUCED, log entry 23] -/
def execEthDbRq (r : Requester) (q index : Nat) (s : State) : Outcome State Fault Refusal :=
  .next (s.ethDb r (fun s =>
    let x := s.qp (q % 16384)
    let s1 := s.ringIndex (q % 16384) x.rqTail x.rqHead (if x.ctx.rqLog = 0 then 0 else 2 ^ x.ctx.rqLog) index (fun x => { x with rqTail := index % 2 ^ 32 })
    if x.st = 2 then s1.qpFlush (q % 16384) else s1))

/-- [DEDUCED, log entry 23] -/
def execEthDbCq (r : Requester) (q index : Nat) (s : State) : Outcome State Fault Refusal :=
  .next (s.ethDb r (fun s =>
    let x := s.qp (q % 16384)
    s.ringIndex (q % 16384) x.cqHead x.cqHead ((x.cqTail + 2 ^ 32 - x.cqHead) % 2 ^ 32) index (fun x => { x with cqHead := index % 2 ^ 32 })))

/-! ### Links (R531) -/

/-- The link may come up: the port is live, its domain On, its page not FENCED. -/
def State.ethMayUp (s : State) (e : Nat) : Bool :=
  s.live (.eth e) && (s.pageState (pg cETH e) = stIDLE || s.pageState (pg cETH e) = stBUSY || s.pageState (pg cETH e) = stQUIESCING)

def execEthLinkChange (e : Nat) (up : Bool) (s : State) : Outcome State Fault Refusal :=
  if 2 ≤ e || (up && !s.ethMayUp e) then .next s
  else
    let s1 := s.ethLink e up
    .next (if up then s1.setEthPort e { s1.ethPort e with lane := none } else s1)

/-- A lane loses FEC lock while the other seven hold it (R531): the port retrains once; a lane that regains none is a lasting failure. -/
def execEthLaneLockLoss (e lane : Nat) (s : State) : Outcome State Fault Refusal :=
  if 2 ≤ e || 8 ≤ lane || !s.live (.eth e) then .next s
  else
    let x := s.ethPort e
    if x.lane = some lane then
      .next (((s.setEthPort e { x with lane := none }).ethLink e false).faultUnit (.eth e) scLINK)
    else if s.ethUp e then
      .next (((s.ethLink e false).setEthPort e { x with lane := some lane }).setFld (pg cETH e) PgETH.STATUS_FEC_LOCK (0xFF - 2 ^ lane))
    else .next s

/-! ### Resets (R531) -/

/-- A partition reset destroys the partition's QPs, unwritten completions with them, and invalidates its regions. -/
def State.ethPartReset (s : State) (p : Nat) : State :=
  { s with eth := { s.eth with qps := s.eth.qps.filter (fun e => e.2.part ≠ p || e.2.st = 0)
                               mrs := s.eth.mrs.filter (fun e => match e.2 with | some m => m.part ≠ p | none => true) }
           xwaits := s.xwaits.filter (fun w => match w.use_ with | .rdma q _ _ => (s.qp q).part ≠ p | _ => true) }

/-- Both tables are emptied (R531). -/
def State.ethClear (s : State) : State :=
  { s with eth := { s.eth with qps := [], mrs := [] }
           xwaits := s.xwaits.filter (fun w => match w.use_ with | .rdma _ _ _ => false | _ => true) }

end Sys2Proof.Machine
end

