-- ==== Sys2Proof/Machine/Fabric.lean ====
section
/-! DEFINITION. The fabric: frames, packets, keys, training, faults (14_fabric_links.md). -/
namespace Sys2Proof.Machine
open Host

/-! ### Strands in trouble (R445, R448, R450) -/

/-- One second in ticks of 10 ns. -/
def tickSecond : Nat := 100000000

/-- The page of strand `g`. -/
def fabPage (g : Nat) : Nat := pg cFAB (g / 4)

/-- A strand goes into a retrain (R448). -/
def State.strandRetrain (s : State) (g : Nat) (faulty : Bool) : State :=
  if s.strandState g = ssRETRAINING then s
  else
    let x := s.strand g
    (((s.setStrand g { x with faulty := faulty }).setStrandState g ssRETRAINING).count (fabPage g) PgFAB.PERF1_RETRAINS 1).setInt (fabPage g) 0

/-- The strands placed in a port. -/
def State.portStrands (s : State) (port : Nat) : List Nat :=
  (List.range 4).filterMap (fun k => let g := 4 * (port / 2) + k; if s.portOf g = port then some g else none)

/-- The strands of a port are fenced (R445, R450): they leave the live floor plan as FENCED. -/
def State.fencePort (s : State) (port : Nat) : State :=
  s.planChange (((s.portStrands port).filter (fun g => s.live (.strand (g / 4) (g % 4)))).map (fun g =>
    (UnitId.strand (g / 4) (g % 4), Cause.fenced, scLINK)))

/-- A tag failure with clean FEC (R445): counted; more than 8 on a port within 1 s fence its strands, as a security event. -/
def State.tagFail (s : State) (g : Nat) : State :=
  let port := s.portOf g
  let p := fabPage g
  let s1 := s.count p PgFAB.SEC_TAG_FAIL 1
  let old := NMap.getD s1.fab.tags (0, 0) port
  let new := if old.1 ≠ 0 && s1.clock < old.2 + tickSecond then (old.1 + 1, old.2) else (1, s1.clock)
  let s2 : State := { s1 with fab := { s1.fab with tags := NMap.put s1.fab.tags (0, 0) port new } }
  if 8 < new.1 then
    let s3 := (s2.fencePort port).setInt p 2
    s3.report true (s3.ev .corrected evSECURITY scLINK p 31 port 0)
  else s2

/-- A protocol error on a strand (R450): it retrains; a second on its port within 1 s fences the port. -/
def State.protoError (s : State) (g : Nat) : State :=
  let port := s.portOf g
  let last := NMap.getD s.fab.proto 0 port
  let s1 : State := { s with fab := { s.fab with proto := NMap.put s.fab.proto 0 port (s.clock + 1) } }
  if last ≠ 0 && s.clock < last + tickSecond then (s1.fencePort port).emit (.mgmtIrq (fabPage g)) else s1.strandRetrain g true

/-- Lane `i` of attachment `a` has failed (R82, R448): the spare takes its place, or the strand that contains it is removed; of two lanes of one
strand the lower has the spare (R454). -/
def State.spareLane (s : State) (a i : Nat) : State :=
  let o := NMap.getD s.plan.opt {} a
  if !natBit o.laneOk i then s
  else
    let o1 := { o with laneOk := natSetBits o.laneOk i i 0 }
    let put (s : State) (o : OptRec) : State := { s with plan := { s.plan with opt := NMap.put s.plan.opt {} a o } }
    if i = 16 then
      let s1 := (put s o1).planChange [(.lane a 16, .faulted, scLINK)]
      if o.spareFor < 16 then s1.faultUnit (.strand a (o.spareFor / 4)) scLINK else s1
    else if o.spareFor = 31 && natBit o.laneOk 16 then
      ((put s { o1 with spareFor := i }).planChange [(.lane a i, .faulted, scLINK)]).setInt (pg cFAB a) 1
    else
      let o2 := if o.spareFor < 16 && o.spareFor / 4 = i / 4 && i < o.spareFor then { o1 with spareFor := i } else o1
      ((put s o2).planChange [(.lane a i, .faulted, scLINK)]).faultUnit (.strand a (i / 4)) scLINK

/-- A bad trailer (R428, R450): NAK, and DATA frames are discarded until the expected SEQ; the same SEQ failing again retrains.
[DEDUCED, log entry 167] -/
def State.badTrailer (s : State) (g : Nat) : State :=
  let x := s.strand g
  let again := x.badSeq = some x.rxSeq
  let s1 := s.setStrand g { x with naked := true, badSeq := some x.rxSeq }
  let s2 := s1.sendFrame g ⟨0, true, false, false, false, false, 0, x.txSeq, 0, 0, [], none⟩
  if again then s2.strandRetrain g true else s2

/-! ### Frames (R426-R428, R435, R444) -/

/-- Frames up to an acknowledged SEQ leave the window. -/
def ackFrames (ack : Nat) (fs : List FabFrame) : List FabFrame :=
  if fs.any (fun f => f.seq = ack) then (fs.dropWhile (fun f => f.seq ≠ ack)).drop 1 else fs

/-- The neighbour that TOPO and DIR_PORTS give for a port (R447), where they name it. -/
def State.neighbour (s : State) (port : Nat) : Option Nat :=
  let f := pg cFAB 0
  let size (d : Nat) : Nat := 1 + (if d = 0 then s.fld f PgFAB.TOPO_SZ_X else if d = 1 then s.fld f PgFAB.TOPO_SZ_Y else s.fld f PgFAB.TOPO_SZ_Z)
  ([(0, true), (0, false), (1, true), (1, false), (2, true), (2, false)] : List (Nat × Bool)).findSome? (fun e =>
    if natBit (s.dirPorts e.1 e.2) port then
      let c := natBits s.node (6 * e.1 + 5) (6 * e.1)
      let n := size e.1
      some (natSetBits s.node (6 * e.1 + 5) (6 * e.1) (if e.2 then (c + 1) % n else (c + n - 1) % n))
    else none)

/-- STRAND.SECURE of a strand. -/
def State.setStrandSecure (s : State) (g : Nat) (b : Bool) : State :=
  s.setWord (fabPage g) 0x130 (BitVec.ofNat 64 (natSetBits (s.word (fabPage g) 0x130).toNat (16 * (g % 4) + 4) (16 * (g % 4) + 4) (b2n b)))

/-- A strand is up with its peer: PEER is recorded, modes and place are compared (R441, R447). -/
def State.strandMeets (s : State) (g : Nat) (b : LinkBody) : State :=
  let p := fabPage g
  let k := g % 4
  let s1 := (((s.setFld p (PgFAB.PEER_ID k) (b.ident % 2 ^ 32)).setFld p (PgFAB.PEER_STRAND k) b.strand).setFld p
    (PgFAB.PEER_ATT k) b.att).setFld p (PgFAB.PEER_NODE k) b.node
  let x := s1.strand g
  let s2 := s1.setStrand g { x with peerMode := some b.mode }
  let st := if (s2.fabSecure (g / 4)) ≠ decide (b.mode = 1) then ssMODE_MISMATCH
    else match s2.neighbour (s2.portOf g) with
      | some n => if n = b.node then ssUP else ssMISCABLED
      | none => ssUP
  let s3 := (s2.setStrandState g st).setStrandSecure g (s2.fabSecure (g / 4) && st = ssUP)
  let s4 := if st = ssMISCABLED && s.strandState g ≠ ssMISCABLED then s3.setInt p 4 else s3
  if st = s.strandState g then s4 else s4.setInt p 0

/-- A sender moves slots whose NEXT both ends hold to the new phase (R444). -/
def State.nextPhase (s : State) (g mask : Nat) : State :=
  let port := s.portOf g
  (List.range 16).foldl (fun (s : State) k =>
    let y := NMap.getD s.fab.keys {} (port * 16 + k)
    let z : FabKey := { y with cur := y.next, next := none, fcnt := 0, phase := !y.phase }
    if natBit mask k && y.next ≠ none then
      { s with fab := { s.fab with
          keys := NMap.put s.fab.keys {} (port * 16 + k) z
          strands := s.fab.strands.map (fun e =>
            if s.portOf e.1 = port then (e.1, { e.2 with peerNext := natSetBits e.2.peerNext k k 0 }) else e) } }
    else s) s

/-- A LINK frame's body (R427, R435, R444, R448). -/
def State.linkBody (s : State) (g : Nat) (b : LinkBody) : State :=
  let x := s.strand g
  let s1 := s.setStrand g { x with cu0 := x.cu0 + b.u0, cu1 := x.cu1 + b.u1, ca0 := x.ca0 + b.a0, ca1 := x.ca1 + b.a1, peerNext := b.nextLoaded }
  let st := s.strandState g
  let s2 := if st = ssUP || st = ssMODE_MISMATCH || st = ssMISCABLED then s1.strandMeets g b else s1
  let s3 := s2.nextPhase g b.nextLoaded
  let s4 := if b.spare ≤ 16 && b.spare ≠ 31 then
      let s5 := s3.spareLane (g / 4) b.spare
      if s5.live (.strand (g / 4) (g % 4)) then s5.strandRetrain g false else s5
    else s3
  s4.pumpStrand g

/-- A packet enters a hub by a strand (R432, R435): its buffer is taken, and it goes on; S packets need none. `none`: a protocol
error.
[DEDUCED, log entry 202] -/
def State.packetIn (s : State) (g : Nat) (p : FabPkt) : Option State :=
  let n := pktSlots p
  if p.ty = 0 || 8 < p.ty || 256 < p.data.length then none
  else if pktS p then some (s.junction (g / 4) (some g) (some (g % 4)) p)
  else
    let x := s.strand g
    let x1 := if pktA p then (if p.dl then { x with ra1 := x.ra1 + n } else { x with ra0 := x.ra0 + n })
              else (if p.dl then { x with ru1 := x.ru1 + n } else { x with ru0 := x.ru0 + n })
    if 256 < x1.ru0 || 256 < x1.ru1 || 128 < x1.ra0 || 128 < x1.ra1 then none
    else some ((s.setStrand g x1).junction (g / 4) (some g) none p)

/-- The packets of a DATA frame in order; a bad one is dropped, counted, and a protocol error.
[DESIGN CHOICE, log entry 200] -/
def State.packetsIn (s : State) (g : Nat) : List FabPkt → State
  | [] => s
  | p :: ps =>
    match s.packetIn g p with
    | some s1 => s1.packetsIn g ps
    | none => ((s.count (fabPage g) PgFAB.PERF2_DROPPED 1).protoError g).packetsIn g ps

/-- A DATA frame that finds VC S full is refused with NAK, to be sent again, and is an overrun of its port (R435; 15_milestone_schedule.md
R474). -/
def State.vcOver (s : State) (g : Nat) : State :=
  let x := s.strand g
  let q := pg cMIL (s.portOf g)
  let s1 : State := s.setStrand g { x with naked := true }
  let s2 : State := { s1 with fab := { s1.fab with sOver := true } }
  ((s2.sendFrame g ⟨0, true, false, false, false, false, 0, x.txSeq, 0, 0, [], none⟩).count q PgMIL.PERF2_OVERRUNS 1).setInt q 2

/-- A DATA frame (R428): taken in order, else discarded; a SECURE attachment takes no plaintext DATA. -/
def State.dataFrame (s : State) (g : Nat) (f : FabFrame) : State :=
  let x := s.strand g
  if s.strandState g ≠ ssUP || s.pageState (fabPage g) = stFENCED then s
  else if s.fabSecure (g / 4) ≠ f.secure then s.badTrailer g
  else if f.seq ≠ x.rxSeq then s
  else if f.pkts.any pktS && 1024 < s.vcS g + ((f.pkts.filter pktS).map pktSlots).foldl (· + ·) 0 then s.vcOver g
  else (s.setStrand g { x with rxSeq := (x.rxSeq + 1) % 4096, naked := false, badSeq := none }).packetsIn g f.pkts

/-- NOTICE of a frame (R427); packets held for a strand whose peer resets are handled under R434 (R451). -/
def State.notice (s : State) (g : Nat) (f : FabFrame) : State :=
  let x := s.strand g
  let s1 := s.setStrand g { x with holdIn := f.hold }
  if f.hubReset && s.strandState g = ssUP then
    (((s1.setStrandState g ssPEER_RESET).setInt (fabPage g) 5).setInt (fabPage g) 0).strandLeft g
  else if !f.hubReset && s.strandState g = ssPEER_RESET then (s1.setStrandState g ssUP).setInt (fabPage g) 0
  else s1

/-- A frame is received (R426-R428, R445, R450).
[DEDUCED, log entry 167] -/
def State.frameIn (s : State) (g : Nat) (f : FabFrame) (c : FrameCheck) : State :=
  let s0 := s.frameCount g false
  match c with
  | .badTrailer => s0.badTrailer g
  | .tagFail => (s0.tagFail g).badTrailer g
  | .ok =>
    let s1 := s0.notice g f
    let x := s1.strand g
    let s2 := s1.setStrand g { x with unacked := ackFrames f.ack x.unacked }
    let s3 := if f.nak then s2.resend g else s2
    let s4 := match f.kind, f.link with
      | 1, _ => s3.dataFrame g f
      | 2, some b => s3.linkBody g b
      | _, _ => s3
    s4.pumpStrand g

/-- No ACK within 3 µs (R428): everything unacknowledged is sent again. -/
def execFrameAckTimeout (g : Nat) (s : State) : Outcome State Fault Refusal :=
  if (s.strand g).unacked = [] || !s.strandUp g then .next s else .next (s.resend g)

/-! ### Packets delivered into this hub (R438-R440) -/

/-- The window a packet's OFFSET is taken through (R438). -/
def State.pktAddr (s : State) (p : FabPkt) (i : Nat) : Option Addr :=
  if p.win then s.windowT2 p.dpart (p.offset + i) else windowT0 (p.offset + i)

/-- Data of a packet as parts at its destination. -/
def State.pktParts (s : State) (p : FabPkt) : Option (List Part) :=
  (cutsOf p.offset p.data.length).mapM (fun c => (s.pktAddr p c.1).map (fun a =>
    ({ addr := a, len := c.2, op := .write ((p.data.drop c.1).take c.2) (packetPois p.offset p.poison c.1 c.2) } : Part)))

/-- A PUT reaches its destination (R438): the job is checked, the window, then every line is written at its home, as REALTIME. -/
def State.putIn (s : State) (a : Nat) (p : FabPkt) : State :=
  if !s.jobMatches p then s.count (pg cFAB a) PgFAB.PERF2_DROPPED 1
  else s.onceOnly a p (fun s =>
    match s.pktParts p with
    | none => s.applyDack a p tsACCESS
    | some ps => s.serveParts (.dack a p) (470 + a) p.dpart 1 p.hint .plain 5 ps)

def execPut (a : Nat) (p : FabPkt) (s : State) : Outcome State Fault Refusal :=
  if 6 ≤ a || p.ty ≠ 1 then .next s else .next (s.putIn a p).kick

/-- A task whose writes are all issued ends when the last is acknowledged (R177, R183). -/
def State.ackedTask (s : State) (t : Option TaskId) : State :=
  match t with
  | none => s
  | some t => match s.task? t with
    | some x => if x.sent && !s.fab.e2e.any (fun e => e.task = some t) then s.taskDone t tsOK else s
    | none => s

/-- An end-to-end packet of this hub is given up (R439). -/
def State.e2eFailed (s : State) (e : E2eOut) (status : Nat) : State :=
  let s1 : State := { s with fab := { s.fab with e2e := s.fab.e2e.filter (fun x => x.id ≠ e.id) } }
  let s2 := match e.event with | some v => s1.forwardFailed v | none => s1
  match e.task with
  | some t => s2.taskEnd t status
  | none => s2

/-- A DACK arrives (R439, R440): BUSY is retried, other failures are final. -/
def State.dackIn (s : State) (p : FabPkt) : State :=
  match s.fab.e2e.find? (fun e => e.pkt.e2e = p.e2e && e.pkt.dst = p.src && e.pkt.dpart = p.spart) with
  | none => s
  | some e =>
    if p.arg32 = 0x80 then s
    else if p.arg32 = 0 then
      ({ s with fab := { s.fab with e2e := s.fab.e2e.filter (fun x => x.id ≠ e.id) } } : State).ackedTask e.task
    else s.e2eFailed e (if p.arg32 = tsACCESS || p.arg32 = tsSLICE_LOST then p.arg32 else tsFABRIC_ERROR)

def execDack (a : Nat) (p : FabPkt) (s : State) : Outcome State Fault Refusal :=
  if 6 ≤ a || p.ty ≠ 2 then .next s else .next (s.dackIn p)

/-- An EVENT packet (R182, R438): added where the partition is bound to the job and the event lies in its range; else dropped. -/
def State.eventIn_ (s : State) (a : Nat) (p : FabPkt) : State :=
  if !s.jobMatches p then s.count (pg cFAB a) PgFAB.PERF2_DROPPED 1
  else if !s.eventIn p.dpart p.arg16 then s.count (pg cDSP p.dpart) PgHDR.ERR_COUNT_CORRECTED 1
  else s.onceOnly a p (fun s => (s.eventInc p.dpart p.arg16 (natBit p.arg32 0)).applyDack a p 0)

def execEventPacket (a : Nat) (p : FabPkt) (s : State) : Outcome State Fault Refusal :=
  if 6 ≤ a || p.ty ≠ 3 then .next s else .next (s.eventIn_ a p)

/-- A message for this hub's management controller (R432). -/
def execMgmtPacket (a : Nat) (p : FabPkt) (s : State) : Outcome State Fault Refusal :=
  if 6 ≤ a || p.ty ≠ 7 then .next s
  else .next (s.onceOnly a p (fun s => (s.emit (.mgmtMsg p.src p.data)).applyDack a p 0))

/-- No DACK within TIMEOUT_US (R439): sent again with the same E2E_ID, up to RETRIES times, then given up. -/
def execE2eTimeout (id : Nat) (s : State) : Outcome State Fault Refusal :=
  match s.fab.e2e.find? (fun e => e.id = id) with
  | none => .next s
  | some e =>
    if s.fld (pg cFAB 0) PgFAB.E2E_RETRIES ≤ e.tries then .next (s.e2eFailed e tsFABRIC_ERROR)
    else
      let s1 : State := { s with fab := { s.fab with e2e := s.fab.e2e.map (fun (x : E2eOut) =>
        if x.id = id then { x with tries := x.tries + 1 } else x) } }
      .next (s1.junction 0 none none e.pkt)

/-- An applied pair has been held (RETRIES + 1) × TIMEOUT_US (R439). -/
def execAppliedPairExpire (src e2e : Nat) (s : State) : Outcome State Fault Refusal :=
  .next { s with fab := { s.fab with applied := s.fab.applied.filter (fun x => !(x.1 = src && x.2.1 = e2e)) } }

/-! ### Training, sparing, tests (R446-R450) -/

/-- Starts a loop-back test of the strands TEST.STRANDS names, FAULTED ones too (R449; 03_floor_plan.md R654). -/
def State.fabTestBegin (s : State) (a : Nat) : State :=
  let p := pg cFAB a
  let ks := (List.range 4).filter (fun k => natBit (s.fld p PgFAB.TEST_STRANDS) k &&
    (s.live (.strand a k) || decide ((s.unit (.strand a k)).live = .faulted)))
  let s1 := if ks = [] then s else s.planChange (ks.map (fun k => (UnitId.strand a k, Cause.inTest, scNONE)))
  (ks.foldl (fun s k => s.setStrandState (4 * a + k) ssTEST) s1).setInt p 0

/-- A waiting test starts once none of its strands retrains (R454). -/
def State.fabTestTry (s : State) (a : Nat) : State :=
  if s.fab.testWait.contains a && !(List.range 4).any (fun k =>
      natBit (s.fld (pg cFAB a) PgFAB.TEST_STRANDS) k && s.strandState (4 * a + k) = ssRETRAINING) then
    ({ s with fab := { s.fab with testWait := s.fab.testWait.erase a } } : State).fabTestBegin a
  else s

/-- Failed lanes of a strand that a retraining has found good again (03_floor_plan.md R654): those without the spare in their place, but for
lanes that failed package test (R77). -/
def State.lanesBack (s : State) (a k : Nat) : List Nat :=
  let o := NMap.getD s.plan.opt {} a
  ([4 * k, 4 * k + 1, 4 * k + 2, 4 * k + 3] : List Nat).filter (fun i =>
    !natBit o.laneOk i && decide (o.spareFor ≠ i) && decide ((s.unit (.lane a i)).boot ≠ .assemblyFail))

/-- A strand that was FAULTED or in test returns with its retraining, its lanes with it, in one change (03_floor_plan.md R89, R654). -/
def State.strandBack (s : State) (a k : Nat) : State :=
  let u := UnitId.strand a k
  if !s.needsMet u then s.returnUnit u
  else
    let ls := s.lanesBack a k
    let o := NMap.getD s.plan.opt {} a
    let s1 : State := { s with plan := { s.plan with opt := NMap.put s.plan.opt {} a { o with laneOk := ls.foldl withBit o.laneOk } } }
    s1.planChange ((u, .good, scNONE) :: ls.map (fun i => (.lane a i, .good, scNONE)))

/-- A retrain ends (R448, R450): a success after a fault is transient; failed lanes are spared and the strand retrains, or it is removed. -/
def State.strandRetrained (s : State) (g : Nat) (ok : Bool) (failed : List Nat) : State :=
  let a := g / 4
  let x := s.strand g
  let u := UnitId.strand a (g % 4)
  let st := if (s.fabSecure a) ≠ (match x.peerMode with | some m => decide (m = 1) | none => s.fabSecure a) then ssMODE_MISMATCH else ssUP
  if ok then
    let s1 := (s.setStrand g { x with faulty := false, naked := false, badSeq := none }).setStrandState g st
    let s2 := if x.faulty then s1.transient (pg cFAB a) scLINK (g % 4) else s1
    let s3 := if (s2.unit u).live = .faulted || (s2.unit u).live = .inTest then s2.strandBack a (g % 4) else s2
    (((s3.setInt (pg cFAB a) 0).resend g).pumpStrand g).fabTestTry a
  else
    let mine := failed.filter (fun i => i / 4 = g % 4 && i < 16)
    let s1 := mine.foldl (fun s i => s.spareLane a i) s
    if mine = [] || !s1.live u then
      ((if s1.live u || (s1.unit u).live = .inTest then s1.faultUnit u scLINK else s1).setStrandState g ssFAULTED).setInt (pg cFAB a) 0 |>.fabTestTry a
    else s1

def execStrandRetrainDone (g : Nat) (ok : Bool) (failedLanes : List Nat) (s : State) : Outcome State Fault Refusal :=
  if 24 ≤ g || s.strandState g ≠ ssRETRAINING then .next s else .next (s.strandRetrained g ok failedLanes)

/-- A strand's lane is spared in service (R448): a spare request goes to the peer, and both ends retrain with lane 16 in its place. -/
def State.spareInService (s : State) (a i : Nat) : State :=
  let o := NMap.getD s.plan.opt {} a
  let g := 4 * a + (if i = 16 then (if o.spareFor < 16 then o.spareFor / 4 else 0) else i / 4)
  let s1 := s.sendFrame g ⟨2, false, false, false, false, false, 0, (s.strand g).txSeq, 0, 0, [], some (s.ownLink g i)⟩
  let s2 := s1.spareLane a i
  if s2.live (.strand a (g % 4)) then (if i = 16 then s2 else s2.strandRetrain g false)
  else (s2.setStrandState g ssFAULTED).setInt (pg cFAB a) 0

/-- One second of a lane's FEC counts (R448, R452 LANE_Q). -/
def execLaneCeWindow (a lane corr uncorr : Nat) (s : State) : Outcome State Fault Refusal :=
  if 6 ≤ a || 17 ≤ lane then .next s
  else
    let q : Nat × Nat := (min corr 0xFFFFFFFF, min uncorr 0xFFFF)
    let s1 : State := { s with fab := { s.fab with lanes := NMap.put s.fab.lanes (0, 0) (a * 17 + lane) q } }
    if s1.fld (pg cFAB a) PgFAB.SPARE_CFG_CE_LIMIT < corr && natBit (NMap.getD s1.plan.opt {} a).laneOk lane then
      .next (s1.spareInService a lane)
    else .next s1

/-- A lane loses lock (R450): its strand retrains; a second time the lane is spared. -/
def execLostLockOnLane (a lane : Nat) (s : State) : Outcome State Fault Refusal :=
  if 6 ≤ a || 17 ≤ lane then .next s
  else
    let k := a * 17 + lane
    let o := NMap.getD s.plan.opt {} a
    let g := 4 * a + (if lane = 16 then (if o.spareFor < 16 then o.spareFor / 4 else 0) else lane / 4)
    let lost (l : List Nat) : State := { s with fab := { s.fab with lockLost := l } }
    if s.fab.lockLost.contains k then .next ((lost (s.fab.lockLost.filter (fun x => x ≠ k))).spareInService a lane)
    else if s.strandState g = ssUP then .next ((lost (s.fab.lockLost ++ [k])).strandRetrain g true)
    else .next s

/-- A training strand finds no peer within 2 s (R447). -/
def execNoPeerLock (g : Nat) (s : State) : Outcome State Fault Refusal :=
  if 24 ≤ g || s.strandState g ≠ ssTRAINING then .next s else .next ((s.setStrandState g ssNO_PEER).setInt (fabPage g) 0)

/-- A strand without a peer tries again (R447). -/
def execNoPeerRetry (g : Nat) (peer : Option LinkBody) (s : State) : Outcome State Fault Refusal :=
  if 24 ≤ g || s.strandState g ≠ ssNO_PEER then .next s
  else match peer with
    | none => .next s
    | some b => .next ((s.strandMeets g b).pumpStrand g)

/-- A write of TEST.START (R449, R452): ignored while a test runs; it waits for a strand that retrains (R454). -/
def execFabTestStart (r : Requester) (a : Nat) (s : State) : Outcome State Fault Refusal :=
  .next (s.gateBlk r cFAB a 0x158 (fun p s =>
    if s.flag p PgFAB.TEST_START then s.order p r 0x158
    else
      let s1 := (s.setFld p PgFAB.TEST_START 1).setFld p PgFAB.TEST_DONE 0
      ({ s1 with fab := { s1.fab with testWait := s1.fab.testWait ++ [a] } } : State).fabTestTry a))

/-- A loop-back test ends (R449): the results are set; failed lanes are spared, or their strand fails its test; the other strands retrain, and
return when that succeeds (03_floor_plan.md R89, R654). -/
def State.fabTestDone (s : State) (a failLanes : Nat) : State :=
  let p := pg cFAB a
  let s1 := ((((s.setFld p PgFAB.TEST_START 0).setFld p PgFAB.TEST_DONE 1).setFld p PgFAB.TEST_PASS (b2n (failLanes = 0))).setFld p
    PgFAB.TEST_FAIL_LANES failLanes).setInt p 3
  let ks := (List.range 4).filter (fun k => s.strandState (4 * a + k) = ssTEST)
  let s2 := (List.range 17).foldl (fun s i => if natBit failLanes i then s.spareLane a i else s) s1
  let o := NMap.getD s2.plan.opt {} a
  ks.foldl (fun s k =>
    let u := UnitId.strand a k
    let fails := ([4 * k, 4 * k + 1, 4 * k + 2, 4 * k + 3] : List Nat).any (fun i => natBit failLanes i && decide (o.spareFor ≠ i))
    if (s.unit u).live = .faulted then s.setStrandState (4 * a + k) ssFAULTED
    else if fails then (s.faultUnit u scLINK).setStrandState (4 * a + k) ssFAULTED
    else s.strandRetrain (4 * a + k) false) s2

def execFabTestDone (a failLanes : Nat) (s : State) : Outcome State Fault Refusal :=
  if 6 ≤ a || !s.flag (pg cFAB a) PgFAB.TEST_START || s.fab.testWait.contains a then .next s
  else .next (s.fabTestDone a (failLanes % 2 ^ 17))

/-! ### Mode and jobs (R441, R442) -/

/-- A value of FAB.CFG.MODE is refused (R441; 18_life_cycle.md R549): any while a partition is bound to a job, SECURE in FIELD_DEBUG and
RETURNED. -/
def State.fabModeBad (s : State) (secure : Bool) : Bool :=
  (List.range 16).any (fun q => s.flag (pg cPRT q) PgPRT.JOB_VALID) || (secure && (s.lc.state = 4 || s.lc.state = 5))

/-- A write of FAB.CFG.MODE. -/
def execFabModeWrite (r : Requester) (a : Nat) (secure : Bool) (s : State) : Outcome State Fault Refusal :=
  .next (s.gateQui r cFAB a 0x100 (fun p s => if s.fabModeBad secure then s.order p r 0x100 else s.setFld p PgFAB.CFG_MODE (b2n secure)))

/-- A value of PRT.JOB is refused (R442; 18_life_cycle.md R535, R540, R549; 19_trust_and_tenancy.md R566): VALID while a present FAB
page is RACK_TRUSTED, with TAG 0, without an owner record, in a state other than DEPLOYED, or while a transition is incomplete. -/
def State.jobBad (s : State) (valid : Bool) (tag : Nat) : Bool :=
  valid && (tag % 65536 = 0 || (List.range 6).any (fun a => !s.pageAbsent (pg cFAB a) && !s.fabSecure a) || s.rot.owner = none ||
    s.lc.state ≠ 3 || s.lc.incomplete)

/-- A write of PRT.JOB. -/
def State.jobWrite (s : State) (r : Requester) (p : Nat) (valid : Bool) (tag : Nat) : State :=
  s.gateQui r cPRT p 0x130 (fun q s =>
    if s.jobBad valid tag then s.order q r 0x130
    else (s.setFld q PgPRT.JOB_VALID (b2n valid)).setFld q PgPRT.JOB_TAG tag)

def execJobBind (r : Requester) (p : Nat) (valid : Bool) (tag : Nat) (s : State) : Outcome State Fault Refusal :=
  .next (s.jobWrite r p valid tag)

end Sys2Proof.Machine
end

