-- ==== Sys2Proof/Machine/Hbm.lean ====
section
/-! DEFINITION. HBM channels: admission, scheduling, checking what is read, repair, calibration, retraining, temperature; the
scrubber and zero-fill; key generations (08_memory_tiers.md R237-R244, 09_memory_integrity.md, 11_mesh_and_regulation.md R342). -/
namespace Sys2Proof.Machine
open Host

/-! ### Requests of a channel -/

def State.req? (s : State) (id : Nat) : Option HbmReq := s.mem.reqs.find? (fun r => r.id = id)
def State.putReq (s : State) (r : HbmReq) : State :=
  { s with mem := { s.mem with reqs := s.mem.reqs.map (fun q => if q.id = r.id then r else q) } }
def State.dropReq (s : State) (id : Nat) : State :=
  { s with mem := { s.mem with reqs := s.mem.reqs.filter (fun q => q.id ≠ id) } }

/-- The request holds an entry of pseudo-channel `pc`'s line queue (narrow queue) of its channel. -/
def inQueue (r : HbmReq) (ch pc : Nat) (narrow : Bool) : Bool :=
  r.ch = ch && r.narrow = narrow && r.place = .queued && natBit r.left pc

/-- Entries of a queue, and of a partition in it (16: no partition). -/
def State.queueOcc (s : State) (ch pc : Nat) (narrow : Bool) : Nat :=
  (s.mem.reqs.filter (fun r => inQueue r ch pc narrow)).length
def State.partOcc (s : State) (ch pc : Nat) (narrow : Bool) (p : Nat) : Nat :=
  (s.mem.reqs.filter (fun r => inQueue r ch pc narrow && r.part = p)).length
/-- Lines in a channel's write buffer, and a partition's. -/
def State.wbufOcc (s : State) (ch : Nat) : Nat := (s.mem.reqs.filter (fun r => r.ch = ch && r.place = .wbuf)).length
def State.wbufPart (s : State) (ch p : Nat) : Nat :=
  (s.mem.reqs.filter (fun r => r.ch = ch && r.place = .wbuf && r.part = p)).length

/-- RSV, CAP and HEADROOM of a partition (11_mesh_and_regulation.md R352). -/
def State.shareRsv (s : State) (narrow : Bool) (p : Nat) : Nat :=
  s.fld (pg cTOL (496 + p)) (if narrow then PgTSH.HBM_SHARE_NARROW_RSV else PgTSH.HBM_SHARE_LINE_RSV)
def State.shareCap (s : State) (narrow : Bool) (p : Nat) : Nat :=
  s.fld (pg cTOL (496 + p)) (if narrow then PgTSH.HBM_SHARE_NARROW_CAP else PgTSH.HBM_SHARE_LINE_CAP)

/-- A queue admits a request of partition `p` in class `cls` (R342). -/
def State.admits (s : State) (ch pc : Nat) (narrow : Bool) (p cls : Nat) : Bool :=
  let entries := if narrow then 32 else 48
  let parts := List.range 16
  let rsv : Nat := (parts.map (s.shareRsv narrow)).foldl (· + ·) 0
  let pool : Nat := (parts.map (fun q => s.partOcc ch pc narrow q - s.shareRsv narrow q)).foldl (· + ·) (s.partOcc ch pc narrow 16)
  let free : Int := ((entries : Nat) : Int) - (rsv : Int) - (pool : Int)
  let occ := s.partOcc ch pc narrow p
  if 16 ≤ p then decide (free > 4)
  else
    let h : Nat := if 2 ≤ cls then s.fld (pg cTOL (496 + p)) PgTSH.HBM_SHARE_HEADROOM else 0
    decide (occ < s.shareRsv narrow p) || (decide (occ < s.shareCap narrow p) && decide (free > (h : Int)))

/-- An earlier request to the same line still waits for admission. -/
def State.olderWaits (s : State) (r : HbmReq) : Bool :=
  s.mem.reqs.any (fun q => q.id < r.id && q.line = r.line && q.place = .waiting && q.ch = r.ch)

/-- The youngest earlier write of a sector a read asks for lies in the write buffer and holds every sector of them (R238 rule 5). -/
def State.bufHas (s : State) (r : HbmReq) : Option HbmReq :=
  (s.mem.reqs.filter (fun q => q.id < r.id && q.line = r.line && q.wr ≠ none && q.left &&& r.secs ≠ 0)).getLast?.filter
    (fun q => q.place = .wbuf && q.left &&& r.secs = r.secs)

/-- A request asks for admission (R342): refused, it goes back to its tollgate; a line write enters the write buffer; a read of a
line in the write buffer is answered from it; any other enters its queue. -/
def State.admitReq (s : State) (r : HbmReq) : State :=
  let back := (if r.part < 16 then s.count (pg cTOL (496 + r.part)) PgTSH.PERF_HBM_RETRIES 1 else s).emit (.shareReturn r.ch r.id)
  if r.place ≠ .waiting || s.olderWaits r then s
  else if r.wr ≠ none && !r.narrow then
    let cap := if r.part < 16 then s.fld (pg cTOL (496 + r.part)) PgTSH.HBM_SHARE_WRBUF_CAP else 64
    if s.wbufOcc r.ch < 64 && s.wbufPart r.ch r.part < cap then s.putReq { r with place := .wbuf } else back
  else
    match (if r.wr = none then s.bufHas r else none) with
    | some w =>
      (match w.wr with
       | some (bs, p) => s.putReq { r with place := .issued, left := 0, got := bs, gotPois := p &&& r.secs }
       | none => s)
    | none =>
      if (List.range 2).all (fun pc => !natBit r.secs pc || s.admits r.ch pc r.narrow r.part r.cls) then
        s.putReq { r with place := .queued }
      else back

def execHbmRequestAdmit (req : Nat) (s : State) : Outcome State Fault Refusal :=
  match s.req? req with
  | some r => .next (s.admitReq r)
  | none => .next s

/-- A channel reports freed slots: the oldest request that waits for it passes again (R342). -/
def execShareSlotFreed (ch : Nat) (s : State) : Outcome State Fault Refusal :=
  match s.mem.reqs.find? (fun r => r.ch = ch && r.place = .waiting) with
  | some r => .next (s.admitReq r)
  | none => .next s

/-! ### Command slots (R238) -/

/-- Bank and row of a line in its pseudo-channel (R235). -/
def State.dramPlace (s : State) (line : Nat) : Nat × Nat :=
  match s.hbmPlace (line * 64) with
  | none => (0, 0)
  | some (_, chunk) =>
    let b := Config.hbmBanks s.plan.stackGib
    (chunk % 4 + 4 * ((chunk / 4) % b), chunk / 4 / b / Config.hbmRowChunks s.plan.stackGib)

/-- The row a request needs is open. -/
def State.rowHit (s : State) (pc : Nat) (r : HbmReq) : Bool :=
  let d := s.dramPlace r.line
  NMap.getD s.mem.openRow 0 ((r.ch * 2 + pc) * 64 + d.1) = d.2 + 1

/-- The write buffer drains between its thresholds (R238 rule 4): the oldest line whose partition has a share of the line queues left moves there
(R237, R342). -/
def State.wbufDrain (s : State) (ch : Nat) (readReady : Bool) : State :=
  let n := s.wbufOcc ch
  let was := s.mem.draining.contains ch
  let on := if 48 ≤ n then true else if n ≤ 16 then false else was
  let rest := s.mem.draining.filter (fun c => c ≠ ch)
  let s1 := { s with mem := { s.mem with draining := if on then rest ++ [ch] else rest } }
  if on || (!readReady && 0 < n) then
    match s1.mem.reqs.find? (fun r => r.ch = ch && r.place = .wbuf &&
        (List.range 2).all (fun pc => !natBit r.left pc || s1.admits ch pc false r.part r.cls)) with
    | some r => s1.putReq { r with place := .queued }
    | none => s1
  else s1

/-- Candidates of a slot: queued, ready, and no earlier request to the same sector still to issue (rule 5). -/
def State.slotCands (s : State) (ch pc : Nat) (ready : List Nat) : List HbmReq :=
  s.mem.reqs.filter (fun r => r.ch = ch && r.place = .queued && natBit r.left pc && ready.contains r.id &&
    !s.mem.reqs.any (fun q => q.id < r.id && q.line = r.line && natBit q.left pc && q.place ≠ .issued && q.ch = ch))

def passedOf (pc : Nat) (r : HbmReq) : Nat := if pc = 0 then r.passed0 else r.passed1

/-- The request a slot serves (R238, R345): the highest level; there an entry passed 256 times; else line and narrow queue in
turn, row hits first, the oldest first. -/
def State.slotPick (s : State) (ch pc : Nat) (ready : List Nat) : Option HbmReq :=
  let cs := s.slotCands ch pc ready
  let top := cs.foldl (fun m r => max m r.level) 0
  let cs1 := cs.filter (fun r => r.level = top)
  match cs1.find? (fun r => 256 ≤ passedOf pc r) with
  | some r => some r
  | none =>
    let both := cs1.any (fun r => r.narrow) && cs1.any (fun r => !r.narrow)
    let turn := s.mem.lastLine.contains (2 * ch + pc)
    let cs2 := if both then cs1.filter (fun r => r.narrow = turn) else cs1
    match cs2.find? (fun r => s.rowHit pc r) with
    | some r => some r
    | none => cs2.head?

/-- Lines moved by an attachment, in units of 1,024 (HBM.PERF). -/
def State.lineCount (s : State) (a : Nat) (wr : Bool) : State :=
  if wr then
    let n := NMap.getD s.mem.wrLines 0 a + 1
    let s1 := { s with mem := { s.mem with wrLines := NMap.put s.mem.wrLines 0 a (n % 1024) } }
    if n = 1024 then s1.count (pg cHBM a) PgHBM.PERF_WR_KLINES 1 else s1
  else
    let n := NMap.getD s.mem.rdLines 0 a + 1
    let s1 := { s with mem := { s.mem with rdLines := NMap.put s.mem.rdLines 0 a (n % 1024) } }
    if n = 1024 then s1.count (pg cHBM a) PgHBM.PERF_RD_KLINES 1 else s1

/-- The burst of a request on a pseudo-channel: a write reaches the DRAM, a read samples it. -/
def State.burst (s : State) (pc : Nat) (r : HbmReq) : State :=
  let p := pg cHCH r.ch
  let left := withoutBit r.left pc
  let sec := 2 * r.line + pc
  match r.wr with
  | some (bs, pois) =>
    let s1 := s.setHbmSector sec ((bs.drop (32 * pc)).take 32) (natBit pois pc)
    let s2 := if r.narrow then s1.count p PgHCH.PERF_NARROW_SECTOR_WR 1 else if left = 0 then s1.lineCount (r.ch / 32) true else s1
    if left = 0 then s2.dropReq r.id else s2.putReq { r with left := left }
  | none =>
    let d := s.hbmSector sec
    let s1 := if r.narrow then s.count p PgHCH.PERF_NARROW_SECTOR_RD 1 else if left = 0 then s.lineCount (r.ch / 32) false else s
    s1.putReq { r with left := left, got := patch r.got (32 * pc) d.1, gotPois := if d.2 then withBit r.gotPois pc else r.gotPois,
                       place := if left = 0 then .issued else .queued }

/-- What the queue entry or write-buffer line a command comes from meets (R268, R269, R277): corrected and transient errors are counted and
logged in class 2; a lasting one makes the line be written as poison. -/
def State.queueErr (s : State) (r : HbmReq) (e : SramErr) : State × HbmReq :=
  let p := pg cHCH r.ch
  let loc := 5 <<< 24 + r.ch * 256 + r.id % 256
  match e with
  | .good => (s, r)
  | .corrected _ b =>
    let l := (s.count p PgHDR.ERR_COUNT_CORRECTED 1).ceLog 2 ceCORRECTED r.part (b / 4) 5 loc
    (l.2.report l.1 (l.2.ev .corrected evECC 0 p r.part 0 0), r)
  | .transient _ =>
    let l := (s.count p PgHDR.ERR_COUNT_TRANSIENT 1).ceLog 2 ceTRANSIENT r.part 31 5 loc
    (l.2.report l.1 (l.2.ev .corrected evTRANSIENT 0 p r.part 0 0), r)
  | .lasting _ =>
    let s1 := ((s.count p PgHDR.ERR_COUNT_LASTING 1).ceLog 2 cePOISONED r.part 31 5 loc).2
    match r.wr with
    | some (bs, _) => (s1.putReq { r with wr := some (bs, 3) }, { r with wr := some (bs, 3) })
    | none => ((List.range 2).foldl (fun s k => if natBit r.secs k then s.poisonHbm (2 * r.line + k) 5 else s) s1, r)

/-- One DRAM command of a pseudo-channel (R238): an activation where the row is not open, else the burst. A channel in retraining
issues none (R241). -/
def State.commandSlot (s : State) (ch pc : Nat) (ready : List Nat) (err : SramErr := .good) : State :=
  if !s.chLive ch || s.flag (pg cHCH ch) PgHCH.CTRL_RETRAIN then s
  else
    let readReady := (s.slotCands ch pc ready).any (fun r => r.wr = none)
    let s1 := s.wbufDrain ch readReady
    match s1.slotPick ch pc ready with
    | none => s1
    | some r =>
      let x := s1.queueErr r err
      let s1 := x.1
      let r := x.2
      let d := s1.dramPlace r.line
      let key := (ch * 2 + pc) * 64 + d.1
      let k := 2 * ch + pc
      let turn := s1.mem.lastLine.filter (fun x => x ≠ k)
      let s2 := { s1 with mem := { s1.mem with
          lastLine := if r.narrow then turn else turn ++ [k]
          reqs := s1.mem.reqs.map (fun (q : HbmReq) =>
            if q.id < r.id && inQueue q ch pc q.narrow then
              (if pc = 0 then { q with passed0 := q.passed0 + 1 } else { q with passed1 := q.passed1 + 1 }) else q) } }
      if s2.rowHit pc r then (s2.count (pg cHCH ch) PgHCH.PERF_ROW_ROW_HITS 1).burst pc r
      else
        let s3 := s2.count (pg cHCH ch) PgHCH.PERF_ROW_ROW_MISSES 1
        { s3 with mem := { s3.mem with openRow := NMap.put s3.mem.openRow 0 key (d.2 + 1) } }

/-- [DEDUCED, log entry 205] -/
def execHbmCommandSlot (ch pc : Nat) (ready : List Nat) (err : SramErr) (s : State) : Outcome State Fault Refusal :=
  if 2 ≤ pc then .next s else .next (s.commandSlot ch pc ready err)

/-! ### What a read gives (09_memory_integrity.md R273, R282) -/

/-- SOURCE of a request in the error log (R275). -/
def State.reqSource (s : State) (r : HbmReq) : Nat :=
  match r.txn with
  | none => 5
  | some t => match s.txn? t with
    | some u => (match u.req with
      | some q => (match q.op with | .read => 0 | .write .. => 3 | .bits .. => 3 | .atomic .. => 4)
      | none => 5)
    | none => 5

/-- Owner of a sector's granule, 31 none. -/
def State.secOwner (s : State) (sector : Nat) : Nat :=
  let e := s.granule (sector / 65536)
  if gValid e then gOwner e else 31

/-- A write to the sector is on its way to the DRAM: the scrubber's own write is dropped (R293). -/
def State.sectorPending (s : State) (sector : Nat) : Bool :=
  s.mem.reqs.any (fun r => r.line = sector / 2 && r.wr ≠ none && natBit r.left (sector % 2))

/-- A conditional write of a sector that was read (R273, R293): dropped where a newer write is on its way, else the sector lies under its
owner's current generation. -/
def State.rewriteSector (s : State) (sector : Nat) : State :=
  let m := NMap.getD s.mem.hbmMeta {} sector
  if m.clear || m.poison || s.sectorPending sector then s
  else { s with mem := { s.mem with hbmMeta := NMap.put s.mem.hbmMeta {} sector { m with gen := s.genBit sector } } }

/-- A corrected sector (R273): written back, counted, logged in class 0. -/
def State.sectorCE (s : State) (ch sector sym source : Nat) : State :=
  let p := pg cHCH ch
  let r := ((s.rewriteSector sector).count p PgHDR.ERR_COUNT_CORRECTED 1).ceLog 0 ceCORRECTED (s.secOwner sector) sym source sector
  r.2.report r.1 (r.2.ev .corrected evECC 0 p (s.secOwner sector) 0 sector)

/-- A sector whose second read is good (R269, R273): transient, logged in class 3. -/
def State.sectorTransient (s : State) (ch sector source : Nat) : State :=
  let p := pg cHCH ch
  let r := (s.count p PgHDR.ERR_COUNT_TRANSIENT 1).ceLog 3 ceTRANSIENT (s.secOwner sector) 31 source sector
  r.2.report r.1 (r.2.ev .corrected evTRANSIENT 0 p (s.secOwner sector) 0 sector)

/-- The attachment that counts a repair of a sector: its own, or for a replica its primary's (R282). -/
def State.repairAtt (s : State) (sector : Nat) : Nat :=
  let e := s.granule (sector / 65536)
  let g := if gRepl e = 2 then gLink e else sector / 65536
  (s.granuleAtt g).getD 0

/-- A sector repaired from its other copy (R282). -/
def State.sectorRepair (s : State) (ch sector : Nat) (d : List Byte × Bool) : State :=
  let s1 := s.setHbmSector sector d.1 d.2
  let r := s1.ceLog 3 ceREPAIRED (s.secOwner sector) 31 2 sector
  ((r.2.report r.1 (r.2.ev .corrected evREPAIRED 0 (pg cHCH ch) (s.secOwner sector) 0 sector)).count (pg cSCR (s.repairAtt sector))
    PgSCR.PERF2_REPAIRED 1)

/-- The channel of a sector; 0 where it has none. -/
def State.sectorCh (s : State) (sector : Nat) : Nat := match s.hbmPlace (sector * 32) with | some (c, _) => c | none => 0

/-- A sector's other copy is read (R282): a correctable error is handled as in any read. Its data, or `none` where it fails too. -/
def State.replicaRead (s : State) (other : Nat) (e : List LaneHit) : State × Option (List Byte × Bool) :=
  let d := s.hbmSector other
  let x := decodeSector e
  match x.1 with
  | .bad => (s, none)
  | .corrected sym =>
    let v := s.decodedSector other d.1 d.2 x.2
    (s.sectorCE (s.sectorCh other) other sym 2, if v.2 then none else some v)
  | .good => let v := s.decodedSector other d.1 d.2 x.2; (s, if v.2 then none else some v)

/-- A read's data goes to the home transaction that waits for it. -/
def State.deliverReq (s : State) (r : HbmReq) : State :=
  let s1 := s.dropReq r.id
  match r.txn with
  | none => s1
  | some t => match s1.txn? t with
    | none => s1
    | some u => s1.putTxn { u with
        got := keepSectors u.got r.got (natBit r.secs 0) (natBit r.secs 1)
        gotMask := u.gotMask ||| r.secs, gotPois := u.gotPois ||| (r.gotPois &&& r.secs) }

/-- What a read has of sector `k` becomes what the decoder left of it. -/
def State.takeSector (s : State) (r : HbmReq) (k : Nat) (left : List Nat) : HbmReq :=
  let v := s.decodedSector (2 * r.line + k) ((r.got.drop (32 * k)).take 32) (natBit r.gotPois k) left
  { r with got := patch r.got (32 * k) v.1, gotPois := if v.2 then withBit r.gotPois k else withoutBit r.gotPois k }

/-- The first check of a sector of a read: what fails is read once more. -/
def State.checkSector (s : State) (r : HbmReq) (k : Nat) (e : List LaneHit) : State × HbmReq :=
  let x := decodeSector e
  if !natBit r.secs k || e = [] then (s, r)
  else match x.1 with
    | .good => (s, s.takeSector r k x.2)
    | .corrected sym => (s.sectorCE r.ch (2 * r.line + k) sym (s.reqSource r), s.takeSector r k x.2)
    | .bad => (s, { r with failed := r.failed ||| 2 ^ k })

def State.readReturn (s : State) (r : HbmReq) (e0 e1 : List LaneHit) : State :=
  let a := s.checkSector { r with failed := 0 } 0 e0
  let b := a.1.checkSector a.2 1 e1
  if b.2.failed = 0 then b.1.deliverReq b.2 else b.1.putReq { b.2 with place := .reread }

def execHbmReadReturn (req : Nat) (e0 e1 : List LaneHit) (s : State) : Outcome State Fault Refusal :=
  match s.req? req with
  | some r => if r.place = .issued && r.wr = none then .next (s.readReturn r e0 e1) else .next s
  | none => .next s

/-- The second read of a failed sector (R273): a lasting failure waits for its replica, or is poisoned, unless another reader poisoned it first; one that reads well or corrected was
transient, and a corrected one is handled as any corrected read.
[DEDUCED, log entry 224] -/
def State.recheckSector (s : State) (r : HbmReq) (k : Nat) (e : List LaneHit) : State × HbmReq :=
  let sec := 2 * r.line + k
  let x := decodeSector e
  let src := s.reqSource r
  let clean : HbmReq := { s.takeSector r k x.2 with failed := withoutBit r.failed k }
  if !natBit r.failed k then (s, r)
  else match x.1 with
    | .bad =>
      let s1 := s.count (pg cHCH r.ch) PgHDR.ERR_COUNT_LASTING 1
      if (NMap.getD s.mem.hbmMeta {} sec).poison then (s, { r with failed := withoutBit r.failed k, gotPois := withBit r.gotPois k })
      else if gRepl (s.granule (r.line / 32768)) = 1 then (s1, r)
      else (s1.poisonHbm sec src, { r with failed := withoutBit r.failed k, gotPois := withBit r.gotPois k })
    | .corrected sym => ((s.sectorTransient r.ch sec src).sectorCE r.ch sec sym src, clean)
    | .good => (s.sectorTransient r.ch sec src, clean)

def State.rereadResult (s : State) (r : HbmReq) (e0 e1 : List LaneHit) : State :=
  let a := s.recheckSector r 0 e0
  let b := a.1.recheckSector a.2 1 e1
  if b.2.failed = 0 then b.1.deliverReq b.2 else b.1.putReq { b.2 with place := .repair }

def execHbmRereadResult (req : Nat) (e0 e1 : List LaneHit) (s : State) : Outcome State Fault Refusal :=
  match s.req? req with
  | some r => if r.place = .reread then .next (s.rereadResult r e0 e1) else .next s
  | none => .next s

/-- The replica of a failed sector is read (R282, R283): its data repairs the primary, or both are poisoned and logged once. -/
def State.repairSector (s : State) (r : HbmReq) (k : Nat) (e : List LaneHit) : State × HbmReq :=
  let sec := 2 * r.line + k
  let other := 2 * (gLink (s.granule (r.line / 32768)) * 32768 + r.line % 32768) + k
  if !natBit r.failed k then (s, r)
  else
    let x := s.replicaRead other e
    match x.2 with
    | none => ((x.1.poisonHbm sec 2).poisonHbm other 2 false, { r with gotPois := withBit r.gotPois k })
    | some d => (x.1.sectorRepair r.ch sec d, { r with got := patch r.got (32 * k) d.1, gotPois := withoutBit r.gotPois k })

def State.replicaRepair (s : State) (r : HbmReq) (e0 e1 : List LaneHit) : State :=
  let a := s.repairSector r 0 e0
  let b := a.1.repairSector a.2 1 e1
  b.1.deliverReq { b.2 with failed := 0 }

def execReplicaRepair (req : Nat) (e0 e1 : List LaneHit) (s : State) : Outcome State Fault Refusal :=
  match s.req? req with
  | some r => if r.place = .repair then .next (s.replicaRepair r e0 e1) else .next s
  | none => .next s

/-! ### Calibration, retraining, refresh, temperature (R240-R242) -/

/-- A retrain of a channel starts: its requests are held (R241). -/
def State.retrainStart (s : State) (ch : Nat) : State := s.setFld (pg cHCH ch) PgHCH.CTRL_RETRAIN 1

/-- A periodic recalibration ends (R240): a failure is retried once; a second one counts as a failed retrain, which is repeated once.
During a retrain it is skipped (R266). -/
def State.calibrated (s : State) (ch : Nat) (ok : Bool) : State :=
  if s.flag (pg cHCH ch) PgHCH.CTRL_RETRAIN then s
  else
    let rest := s.mem.calFail.filter (fun c => c ≠ ch)
    if ok then { s with mem := { s.mem with calFail := rest } }
    else if !s.mem.calFail.contains ch then { s with mem := { s.mem with calFail := rest ++ [ch] } }
    else
      let s1 := { s with mem := { s.mem with calFail := rest, retrainFail := s.mem.retrainFail ++ [ch] } }
      (s1.setInt (pg cHBM (ch / 32)) 1).retrainStart ch

def execHbmCalibration (ch : Nat) (ok : Bool) (s : State) : Outcome State Fault Refusal :=
  if s.chLive ch then .next (s.calibrated ch ok) else .next s

/-- A write of 1 to HCH.CTRL.RETRAIN. -/
def execHchRetrain (r : Requester) (ch : Nat) (s : State) : Outcome State Fault Refusal :=
  .next (s.gateBlk r cHCH ch 0x100 (fun _ s => s.retrainStart ch))

/-- A retrain ends (R241, R654): success returns a FAULTED channel; a failure is repeated once, and a second removes the channel. -/
def State.retrainDone (s : State) (ch : Nat) (ok : Bool) : State :=
  let p := pg cHCH ch
  let u := UnitId.hbmCh (ch / 32) (ch % 32)
  let rest := s.mem.retrainFail.filter (fun c => c ≠ ch)
  if ok then
    let s1 := { s with mem := { s.mem with retrainFail := rest } }
    let s2 := if s.mem.retrainFail.contains ch then s1.transient p scTRAINING 0 else s1
    let s3 := (s2.setFld p PgHCH.CTRL_RETRAIN 0).setInt p 0
    if (s3.unit u).live = .faulted then (s3.returnUnit u).backPages [u] else s3
  else if !s.mem.retrainFail.contains ch then { s with mem := { s.mem with retrainFail := rest ++ [ch] } }
  else
    let s1 := ({ s with mem := { s.mem with retrainFail := rest } }.setFld p PgHCH.CTRL_RETRAIN 0).setInt p 0
    if s1.live u then s1.faultUnit u scTRAINING else s1

def execHchRetrainDone (ch : Nat) (ok : Bool) (s : State) : Outcome State Fault Refusal :=
  if s.flag (pg cHCH ch) PgHCH.CTRL_RETRAIN then .next (s.retrainDone ch ok) else .next s

/-- A per-bank refresh or an RFM closes the rows of its channel's banks; contents are kept (R242). -/
def execHbmRefresh (ch : Nat) (rfm : Bool) (s : State) : Outcome State Fault Refusal :=
  let _ := rfm
  if s.chLive ch then
    .next { s with mem := { s.mem with openRow := NMap.cut s.mem.openRow (ch * 128) (ch * 128 + 128) } }
  else .next s

/-- The stack temperature is read (R242, R243): above 85 °C refresh doubles; rising above HOT_C sets THERM_HOT. -/
def execHbmTempRead (a temp : Nat) (s : State) : Outcome State Fault Refusal :=
  if 8 ≤ a || !s.live (.hbmAtt a) then .next s
  else
    let p := pg cHBM a
    let was := s.fld p PgHBM.THERM_TEMP_C
    let hot := s.fld p PgHBM.THERM_HOT_C
    let s1 := (s.setFld p PgHBM.THERM_TEMP_C temp).setFld p PgHBM.STATUS_REFRESH_2X (b2n (decide (85 < temp)))
    .next (if hot < temp && was ≤ hot then s1.setInt p 0 else s1)

/-! ### Scrubber (09_memory_integrity.md R291-R296) -/

/-- The granule that lies at local index `j` of attachment `a`: the inverse of granule_place (R234). -/
def granuleAt (ls : List AttLayout) (a : Nat) : Nat → Nat → Nat → Nat → Option Nat
  | 0, _, _, _ => none
  | fuel + 1, base, first, j =>
    let up := ls.filter (fun l => decide (base < l.ng))
    match up with
    | [] => none
    | l0 :: rest =>
      let lvl := rest.foldl (fun m l => min m l.ng) l0.ng
      if j < lvl then
        if up.any (fun l => l.att = a) then some (first + (j - base) * up.length + up.findIdx (fun l => l.att = a)) else none
      else granuleAt ls a fuel lvl (first + up.length * (lvl - base)) j

def State.granuleOf (s : State) (a j : Nat) : Option Nat := granuleAt s.mem.layout a (s.mem.layout.length + 1) 0 0 j

/-- Granules of an attachment's layout. -/
def State.attGranules (s : State) (a : Nat) : Nat :=
  match s.mem.layout.find? (fun l => l.att = a) with | some l => l.ng | none => 0

/-- Granules of an attachment that await zero-fill (SCR.PERF2.ZEROING). -/
def State.zeroingCount (s : State) (a : Nat) : Nat :=
  s.attGranules a - (s.mem.granules.filter (fun e => !gZeroing e.2 && s.granuleAtt e.1 = some a)).length

/-- The scrubber looks at one sector (R273, R291): what it finds is handled as any read, a primary and its replica repair each other,
and a sector under the old generation is written again under the current one. -/
def State.scrubSector (s : State) (a sector : Nat) (e : ScrubErr) : State :=
  let p := pg cSCR a
  let ch := match s.hbmPlace (sector * 32) with | some (c, _) => c | none => 0
  let m := NMap.getD s.mem.hbmMeta {} sector
  let g := s.granule (sector / 65536)
  if !s.chLive ch then s
  else
    let s1 := match (decodeSector e.first).1 with
      | .good => s
      | .corrected sym => (s.count p PgSCR.PERF_FOUND_CE 1).sectorCE ch sector sym 1
      | .bad =>
        (match (decodeSector e.again).1 with
         | .bad =>
           if m.poison then s
           else
             let s2 := ((s.count p PgSCR.PERF_FOUND_UE 1).setInt p 1).count (pg cHCH ch) PgHDR.ERR_COUNT_LASTING 1
             if gRepl g = 0 then s2.poisonHbm sector 1
             else
               let other := (gLink g) * 65536 + sector % 65536
               let x := s2.replicaRead other e.replica
               match x.2 with
               | none => (x.1.poisonHbm sector 1).poisonHbm other 1 false
               | some d => x.1.sectorRepair ch sector d
         | .corrected sym => ((s.count p PgSCR.PERF_FOUND_CE 1).sectorTransient ch sector 1).sectorCE ch sector sym 1
         | .good => s.sectorTransient ch sector 1)
    let m1 := NMap.getD s1.mem.hbmMeta {} sector
    if m1.clear || m1.poison || !gValid g || m.gen = s1.genBit sector || s1.sectorPending sector then s1
    else
      (s1.rewriteSector sector).count p PgSCR.PERF_REENCRYPTED 1

/-- A rekey lap ends when the walk is back where it began (R293); with the last lap of a partition, PENDING clears (R289). -/
def State.endLaps (s : State) (a pos : Nat) : State :=
  s.dropLaps a (fun l => l.start = pos)

/-- The scrubber of an attachment may work: its page takes work (R63), its attachment is live. -/
def State.scrubOn (s : State) (a : Nat) : Bool := s.live (.hbmAtt a) && s.accepts (pg cSCR a)

/-- Its walk or its zero-fill runs (R296). -/
def State.scrubRuns (s : State) (a : Nat) : Bool :=
  s.scrubOn a && (s.fld (pg cSCR a) PgSCR.CFG_RATE_MIBPS ≠ 0 || (s.fld (pg cSCR a) PgSCR.CFG_ZERO_GBPS ≠ 0 && decide (0 < s.zeroingCount a)))

/-- The scrubber visits a line and goes on (R291): past the last granule the walk wraps, PASSES counts and PASS_DONE is set. -/
def State.scrubVisit (s : State) (a : Nat) (e0 e1 : ScrubErr) : State :=
  let p := pg cSCR a
  let pos := s.fld p PgSCR.STATUS_POS
  let line := (NMap.getD s.mem.scrub {} a).line
  match s.granuleOf a pos with
  | none => s
  | some g =>
    let sec := g * 65536 + 2 * line
    let ch := match s.hbmPlace (sec * 32) with | some (c, _) => c | none => 0
    if s.flag (pg cHCH ch) PgHCH.CTRL_RETRAIN then s
    else
      let s1 := (s.scrubSector a sec e0).scrubSector a (sec + 1) e1
      let wrapLine := line = 32767
      let wrapPos := wrapLine && s.attGranules a ≤ pos + 1
      let pos1 := if wrapPos then 0 else if wrapLine then pos + 1 else pos
      let line1 := if wrapLine then 0 else line + 1
      let s2 := ({ s1 with mem := { s1.mem with scrub := NMap.put s1.mem.scrub {} a ⟨line1⟩ } }).setFld p PgSCR.STATUS_POS pos1
      let s3 := if wrapPos then (s2.setFld p PgSCR.STATUS_PASSES (s2.fld p PgSCR.STATUS_PASSES + 1)).setInt p 0 else s2
      s3.endLaps a (pos1 * 32768 + line1)

def execScrubVisit (a : Nat) (e0 e1 : ScrubErr) (s : State) : Outcome State Fault Refusal :=
  if 8 ≤ a || s.fld (pg cSCR a) PgSCR.CFG_RATE_MIBPS = 0 || !s.scrubOn a then .next s
  else .next (s.scrubVisit a e0 e1)

/-- A line of granule `g`. -/
def inGranule (g line : Nat) : Bool := line / 32768 = g

/-- Cached lines that satisfy a test leave the Skein, dirty sectors written back if asked.
[DEDUCED, log entry 170] -/
def State.flushLines (s : State) (wb : Bool) (inside : Nat → Bool) : State :=
  let homes := ((s.mem.tags.filter (fun e => inside e.2.line)).map (fun e => e.1 / 4096)).eraseDups
  homes.foldl (fun s n => s.dropLines n wb (fun _ t => inside t.line)) s

/-- Accesses to a granule that its homes or channels have accepted are still under way (R247). -/
def State.granuleBusy (s : State) (g : Nat) : Bool :=
  s.mem.reqs.any (fun r => inGranule g r.line) || s.mem.txns.any (fun t => inGranule g t.line) || s.mem.waitQ.any (fun q => inGranule g q.2.1)

/-- The first local granule of an attachment from `j` on that awaits zero-fill, its accepted accesses drained (R247).
[DEDUCED, log entry 171] -/
def State.nextZero (s : State) (a : Nat) : Nat → Nat → Option Nat
  | 0, _ => none
  | fuel + 1, j =>
    match s.granuleOf a j with
    | some g => if gZeroing (s.granule g) && !s.granuleBusy g then some g else s.nextZero a fuel (j + 1)
    | none => none

/-- The bytes and metadata of a granule are as zero-fill leaves them: every sector CLEAR (R294). -/
def State.zeroCells (s : State) (g : Nat) : State :=
  let lo := g * 0x200000
  { s with mem := { s.mem with
      hbm := NMap.cut s.mem.hbm lo (lo + 0x200000)
      hbmMeta := NMap.cut s.mem.hbmMeta (lo / 32) (lo / 32 + 65536) } }

/-- Zero-fill of a granule (R294): every sector CLEAR, what homes still cache of it gone, ZEROING cleared; with the last one, ZERO_DONE. -/
def State.zeroFill (s : State) (a g : Nat) : State :=
  let s1 := (s.flushLines false (inGranule g)).zeroCells g
  let s2 := s1.setGranule g (natSetBits (s1.granule g) 32 32 0)
  if s2.zeroingCount a = 0 then s2.setInt (pg cSCR a) 2 else s2

def execZeroFillGranule (a : Nat) (s : State) : Outcome State Fault Refusal :=
  if 8 ≤ a || s.fld (pg cSCR a) PgSCR.CFG_ZERO_GBPS = 0 || !s.scrubOn a then .next s
  else match s.nextZero a (s.attGranules a) 0 with
    | some g => .next (s.zeroFill a g)
    | none => .next s

/-! ### Key generations (R285-R290) -/

/-- Every live channel has switched its writes (R288): GEN advances, PENDING is set, and a rekey lap starts on each live
attachment where its walk stands (R293). Answers the task that waited.
[DEDUCED, log entry 178] -/
def State.keySwitch (s : State) (p : Nat) : State :=
  let g := s.fld pKEY (PgKEY.MEMKEY_GEN p)
  let s1 := (s.setFld pKEY (PgKEY.MEMKEY_GEN p) (g + 1)).setFld pKEY (PgKEY.MEMKEY_PENDING p) 1
  let s2 := if g + 1 = 2 ^ 32 - 1 then s1.setFld pKEY (PgKEY.MEMKEY_EXHAUSTED p) 1 else s1
  let atts := (s2.mem.layout.map AttLayout.att).filter (fun a => s2.live (.hbmAtt a))
  atts.foldl (fun s a =>
    let q := pg cSCR a
    let s3 := s.setFld q PgSCR.REKEY_PENDING (withBit (s.fld q PgSCR.REKEY_PENDING) p)
    { s3 with mem := { s3.mem with laps := s3.mem.laps ++
        [⟨p, a, s3.fld q PgSCR.STATUS_POS * 32768 + (NMap.getD s3.mem.scrub {} a).line⟩] } }) s2

/-- A new boot nonce (R285, R290, R295): generations return to 0, every granule is to be zero-filled, nothing stored before can be
read. -/
def State.newNonce (s : State) : State :=
  let s1 := { s with mem := { s.mem with
      nonce := s.mem.nonce + 1, granules := [], hbm := [], hbmMeta := [], laps := [], keyTasks := [], copying := [], regroup := []
      tierCount := [], tierPool := [], tierHpa := [], migs := [], planned := [], reqs := [] } }
  let s2 := (List.range 16).foldl (fun s p => s.setWord pKEY (0x100 + 8 * p) 0) s1
  (List.range 8).foldl (fun s a => s.setFld (pg cSCR a) PgSCR.REKEY_PENDING 0) s2

end Sys2Proof.Machine
end

