-- ==== Sys2Proof/Machine/Tiers.lean ====
section
/-! DEFINITION. The granule map's commands, replica pairs, tiered ranges and migrations (08_memory_tiers.md R245-R257). -/
namespace Sys2Proof.Machine
open Host

/-! ### Granules as a whole -/

/-- Granules first .. first+count-1. -/
def granRun (first count : Nat) : List Nat := (List.range count).map (fun i => first + i)

/-- Copies agents hold of lines that satisfy a test are recalled. -/
def State.recallLines (s : State) (discard : Bool) (inside : Nat → Bool) : State :=
  let homes := (s.mem.filter.filterMap (fun e => match e.2 with
    | some f => if inside f.line then some (e.1 / 32768) else none
    | none => none)).eraseDups
  homes.foldl (fun s n => s.recall n discard (fun f => inside f.line)) s

/-- Writes on their way to a granule are dropped: its contents have been replaced or handed on. -/
def State.dropGranuleWrites (s : State) (g : Nat) : State :=
  { s with mem := { s.mem with reqs := s.mem.reqs.filter (fun r => !(inGranule g r.line && r.wr.isSome)) } }

/-- The newest contents of a granule, by offset: bytes that are not zero, and its poisoned sectors. -/
def State.granuleCells (s : State) (g : Nat) : List (Nat × Byte) × List Nat :=
  let lo := g * 0x200000
  let wr := s.mem.reqs.filter (fun r => inGranule g r.line && r.wr.isSome)
  let late := (List.range 65536).filter (fun k => wr.any (fun r => r.line = (g * 65536 + k) / 2 && natBit r.left (k % 2)))
  let base : NMap Byte := (NMap.slice s.mem.hbm lo (lo + 0x200000)).map (fun e => (e.1 - lo, e.2))
  let cells := late.foldl (fun m k => NMap.putRun m 0 (k * 32) (s.hbmNow (g * 65536 + k)).1) base
  (cells, (List.range 65536).filter (fun k => (s.hbmNow (g * 65536 + k)).2))

/-- A granule receives new contents: every sector is written under its owner's generation, or poisoned. -/
def State.fillGranule (s : State) (g : Nat) (cells : List (Nat × Byte)) (poison : List Nat) : State :=
  let lo := g * 0x200000
  let s1 := s.dropGranuleWrites g
  let hbm := cells.foldl (fun m e => if e.1 < 0x200000 then NMap.put m 0 (lo + e.1) e.2 else m)
    (NMap.cut s1.mem.hbm lo (lo + 0x200000))
  let fresh : SecMeta := { clear := false, poison := false, gen := s1.genBit (g * 65536) }
  let meta_ := (List.range 65536).foldl (fun m k => NMap.put m {} (g * 65536 + k) fresh) s1.mem.hbmMeta
  let s2 : State := { s1 with mem := { s1.mem with hbm := hbm, hbmMeta := meta_ } }
  poison.foldl (fun s k => if k < 65536 then s.poisonHbm (g * 65536 + k) 0 else s) s2

/-- Granules a partition owns (TIR.USE.T2_USED). -/
def State.t2Used (s : State) (p : Nat) : Nat := (s.mem.granules.filter (fun e => gValid e.2 && gOwner e.2 = p)).length

/-- Sum of LEN over a partition's enabled ranges (TIR.USE.T3_USED). -/
def State.t3Used (s : State) (p : Nat) : Nat :=
  ((List.range 8).map (fun r =>
    if s.actFlag (pg cTIR p) (PgTIR.TR_CFG_ENABLE r) then s.actFld (pg cTIR p) (PgTIR.TR_CFG_LEN r) else 0)).foldl (· + ·) 0

/-- The pool of range `r` of partition `p` (R252). -/
def State.poolOf (s : State) (p r : Nat) : List Nat :=
  (s.mem.granules.filter (fun e => gValid e.2 && gOwner e.2 = p && gPool e.2 && gLink e.2 % 8 = r)).map Prod.fst

/-- Promoted granules of a range: index and pool granule (TR_STAT.IN_T2). -/
def State.promotedOf (s : State) (p r : Nat) : List (Nat × Nat) :=
  let k := tierKey p r 0
  (NMap.slice s.mem.tierPool k (k + 2 ^ 18)).map (fun e => (e.1 - k, e.2 - 1))

def State.rangeOn (s : State) (p r : Nat) : Bool := s.actFlag (pg cTIR p) (PgTIR.TR_CFG_ENABLE r)

/-- A granule is the pool side of a migration that runs. -/
def State.inMigration (s : State) (g : Nat) : Bool := s.mem.migs.any (fun m => m.pool = g)

/-- The TIR page is BUSY while a command or a migration runs (R257). -/
def State.tirWork (s : State) (p : Nat) : State :=
  s.workSet (pg cTIR p) (s.flag (pg cTIR p) PgTIR.GCMD_BUSY || s.mem.migs.any (fun m => m.part = p))

/-! ### Granule commands (R247, R248) -/

/-- A command is done with a result code. -/
def State.gcmdDone (s : State) (t result : Nat) : State :=
  ((s.setFld t PgTIR.GCMD_BUSY 0).setFld t PgTIR.GCMD_RESULT result).setInt t 0

/-- A write of GCMD with an OP: refused with ORDER while a command runs (R257); else its arguments are stored and it starts.
[DEDUCED, log entry 174] -/
def State.gcmd (s : State) (r : Requester) (p first count peer : Nat) (f : Nat → State → State) : State :=
  s.gateBlk r cTIR p 0x100 (fun t s =>
    if s.flag t PgTIR.GCMD_BUSY then s.order t r 0x100
    else f t (((s.setFld t PgTIR.GCMD_FIRST first).setFld t PgTIR.GCMD_COUNT count).setFld t PgTIR.GCMD_PEER peer))

/-- The lowest result code whose condition is broken (R248), 0 where none is.
[DEDUCED, log entries 91, 143] -/
def lowestCode (cs : List (Nat × Bool)) : Nat :=
  match cs.find? (fun c => c.2) with | some c => c.1 | none => 0

/-- A command that ends at once: the lowest broken condition refuses it, else its effect.
[DEDUCED, log entry 173] -/
def State.gcmdEnd (s : State) (t : Nat) (checks : List (Nat × Bool)) (f : State → State) : State :=
  let c := lowestCode checks
  if c = 0 then (f s).gcmdDone t 0 else s.gcmdDone t c

/-- BAD_RANGE: no granule, or one beyond the population. -/
def State.badRange (s : State) (first count : Nat) : Bool := count = 0 || decide (s.granuleCount < first + count)

/-- NOT_OWNER of a run. -/
def State.notOwner (s : State) (p first count : Nat) : Bool := (granRun first count).any (fun g => !s.gOwned g p)

/-- GARG. -/
def State.garg (s : State) (t : Nat) : Nat := s.fld t PgTIR.GARG_ARG

def execAlloc (r : Requester) (p first count peer : Nat) (s : State) : Outcome State Fault Refusal :=
  .next (s.gcmd r p first count peer (fun t s =>
    s.gcmdEnd t
      [(1, s.badRange first count),
       (2, (granRun first count).any (fun g => gValid (s.granule g) || gZeroing (s.granule g))),
       (4, decide (s.fld (pg cPRT p) PgPRT.TIER_QUOTA_T2_LIMIT < s.t2Used p + count))]
      (fun s => (granRun first count).foldl (fun s g =>
        s.setGranule g (1 <<< 31 + p <<< 27 + (s.garg t % 4) <<< 25)) s)))

/-- A granule is freed (R247): VALID 0, ZEROING 1, READERS 0; what the Skein and the agents hold of it is dropped.
[DEDUCED, log entry 170] -/
def State.freeGranule (s : State) (g : Nat) : State :=
  ((s.flushLines false (inGranule g)).recallLines true (inGranule g)).setGranule g
    (natSetBits (natSetBits (natSetBits (s.granule g) 31 31 0) 32 32 1) 63 48 0)

/-- FREE of a granule, with the replica of a primary. -/
def State.freeWithReplica (s : State) (g : Nat) : State :=
  let e := s.granule g
  if gRepl e = 1 then (s.freeGranule g).freeGranule (gLink e) else s.freeGranule g

def execFree (r : Requester) (p first count peer : Nat) (s : State) : Outcome State Fault Refusal :=
  .next (s.gcmd r p first count peer (fun t s =>
    s.gcmdEnd t
      [(1, s.badRange first count), (3, s.notOwner p first count),
       (5, (granRun first count).any (fun g => gPool (s.granule g) || gRepl (s.granule g) = 2))]
      (fun s => (granRun first count).foldl State.freeWithReplica s)))

def execSetGroup (r : Requester) (p first count peer : Nat) (s : State) : Outcome State Fault Refusal :=
  .next (s.gcmd r p first count peer (fun t s =>
    let c := lowestCode [(1, s.badRange first count), (3, s.notOwner p first count), (6, (granRun first count).any s.inMigration)]
    if c ≠ 0 then s.gcmdDone t c
    else
      let s1 := (s.setFld t PgTIR.GCMD_BUSY 1).workStart t
      ({ s1 with mem := { s1.mem with regroup := s1.mem.regroup ++ [(p, first, count, s.garg t % 4)] } } : State).settle 0))

/-- Writes a bit of READERS of a run. -/
def State.setReaders (s : State) (first count peer v : Nat) : State :=
  (granRun first count).foldl (fun s g => s.setGranule g (natSetBits (s.granule g) (48 + peer) (48 + peer) v)) s

def execShare (r : Requester) (p first count peer : Nat) (s : State) : Outcome State Fault Refusal :=
  .next (s.gcmd r p first count peer (fun t s =>
    s.gcmdEnd t [(1, s.badRange first count), (3, s.notOwner p first count), (5, peer = p || decide (16 ≤ peer))]
      (fun s => s.setReaders first count peer 1)))

def execUnshare (r : Requester) (p first count peer : Nat) (s : State) : Outcome State Fault Refusal :=
  .next (s.gcmd r p first count peer (fun t s =>
    s.gcmdEnd t [(1, s.badRange first count), (3, s.notOwner p first count), (5, decide (16 ≤ peer))]
      (fun s => s.setReaders first count peer 0)))

def execSetReplica (r : Requester) (p first count peer : Nat) (s : State) : Outcome State Fault Refusal :=
  .next (s.gcmd r p first count peer (fun t s =>
    let to_ := s.garg t % 2 ^ 18
    let used (g : Nat) : Bool := gRepl (s.granule g) ≠ 0 || gPool (s.granule g)
    let c := lowestCode
      [(1, s.badRange first count || s.badRange to_ count),
       (3, s.notOwner p first count || s.notOwner p to_ count),
       (5, (decide (first < to_ + count) && decide (to_ < first + count)) ||
         (List.range count).any (fun i => used (first + i) || used (to_ + i) || s.granuleAtt (first + i) = s.granuleAtt (to_ + i)))]
    if c ≠ 0 then s.gcmdDone t c
    else
      let s1 := (s.setFld t PgTIR.GCMD_BUSY 1).workStart t
      { s1 with mem := { s1.mem with copying := s1.mem.copying ++ [(p, first, to_, count)] } }))

/-- A primary's contents have reached its replica (R249): the pair is linked; writes still on their way to the primary go to both.
[DEDUCED, log entry 172] -/
def State.copyPair (s : State) (g h : Nat) : State :=
  let lo := g * 0x200000
  let s1 := (s.flushLines false (inGranule h)).dropGranuleWrites h
  let s2 : State := { s1 with mem := { s1.mem with
    hbm := NMap.copyRange s1.mem.hbm 0 lo (lo + 0x200000) (h * 0x200000)
    hbmMeta := NMap.copyRange s1.mem.hbmMeta {} (lo / 32) (lo / 32 + 65536) (h * 65536) } }
  let late := s2.mem.reqs.filter (fun r => inGranule g r.line && r.wr.isSome)
  let s3 := late.foldl (fun s r =>
    let l := h * 32768 + r.line % 32768
    match s.hbmPlace (l * 64) with
    | some (ch, _) => if s.chLive ch then s.hbmPush { r with ch := ch, line := l, secs := r.left, place := .waiting } else s
    | none => s) s2
  (s3.setGranule g (natSetBits (natSetBits (s3.granule g) 23 22 1) 17 0 h)).setGranule h
    (natSetBits (natSetBits (s3.granule h) 23 22 2) 17 0 g)

/-- The copy of the first pair still to be copied ends; with the last pair, the command (R249). -/
def execReplicaCopyDone (p : Nat) (s : State) : Outcome State Fault Refusal :=
  match s.mem.copying.find? (fun c => c.1 = p) with
  | none => .next s
  | some c =>
    let rest := s.mem.copying.filter (fun y => y ≠ c)
    let s1 := s.copyPair c.2.1 c.2.2.1
    if c.2.2.2 ≤ 1 then
      .next ((({ s1 with mem := { s1.mem with copying := rest } } : State).gcmdDone (pg cTIR p) 0).tirWork p)
    else .next { s1 with mem := { s1.mem with copying := (p, c.2.1 + 1, c.2.2.1 + 1, c.2.2.2 - 1) :: rest } }

def execClearReplica (r : Requester) (p first count peer : Nat) (s : State) : Outcome State Fault Refusal :=
  .next (s.gcmd r p first count peer (fun t s =>
    s.gcmdEnd t
      [(1, s.badRange first count), (3, s.notOwner p first count), (5, (granRun first count).any (fun g => gRepl (s.granule g) ≠ 1))]
      (fun s => (granRun first count).foldl (fun s g =>
        let h := gLink (s.granule g)
        (s.setGranule g (natSetBits (natSetBits (s.granule g) 23 22 0) 17 0 0)).setGranule h
          (natSetBits (natSetBits (s.granule h) 23 22 0) 17 0 0)) s)))

def execAttachPool (r : Requester) (p first count peer : Nat) (s : State) : Outcome State Fault Refusal :=
  .next (s.gcmd r p first count peer (fun t s =>
    let k := s.garg t % 8
    s.gcmdEnd t
      [(1, s.badRange first count), (3, s.notOwner p first count),
       (5, (granRun first count).any (fun g => gRepl (s.granule g) ≠ 0)),
       (6, s.rangeOn p k || (granRun first count).any (fun g => gPool (s.granule g) && s.rangeOn p (gLink (s.granule g) % 8)))]
      (fun s => (granRun first count).foldl (fun s g => s.setGranule g (natSetBits (natSetBits (s.granule g) 24 24 1) 17 0 k)) s)))

def execDetachPool (r : Requester) (p first count peer : Nat) (s : State) : Outcome State Fault Refusal :=
  .next (s.gcmd r p first count peer (fun t s =>
    s.gcmdEnd t
      [(1, s.badRange first count), (3, s.notOwner p first count), (5, (granRun first count).any (fun g => !gPool (s.granule g))),
       (6, (granRun first count).any (fun g => s.rangeOn p (gLink (s.granule g) % 8)))]
      (fun s => (granRun first count).foldl (fun s g => s.setGranule g (natSetBits (natSetBits (s.granule g) 24 24 0) 17 0 0)) s)))

def execGranuleQuery (r : Requester) (p first count peer : Nat) (s : State) : Outcome State Fault Refusal :=
  .next (s.gcmd r p first count peer (fun t s =>
    s.gcmdEnd t [(1, s.badRange first count), (5, count ≠ 1)] (fun s => s.setFld t PgTIR.GARG_ARG (s.granule first))))

/-- The ranges of a partition are disabled at once, their counts and moves dropped. -/
def State.rangesOff (s : State) (p : Nat) : State :=
  let lo := tierKey p 0 0
  let hi := tierKey p 8 0
  let s1 := (List.range 8).foldl (fun s r =>
    let t := pg cTIR p
    let off := (PgTIR.TR_CFG_ENABLE r).off
    (s.setActWord t off (BitVec.ofNat 64 (natSetBits (s.actWord t off).toNat 63 63 0))).setFld t (PgTIR.TR_CFG_ENABLE r) 0) s
  { s1 with mem := { s1.mem with
      tierCount := NMap.cut s1.mem.tierCount lo hi, tierPool := NMap.cut s1.mem.tierPool lo hi
      tierHpa := NMap.cut s1.mem.tierHpa lo hi
      migs := s1.mem.migs.filter (fun m => m.part ≠ p), planned := s1.mem.planned.filter (fun m => m.part ≠ p) } }

/-- FREE_ALL: the ranges are disabled, then every granule the partition owns is freed, pools and replicas too.
[DEDUCED, log entry 173] -/
def State.freeAll (s : State) (p : Nat) : State :=
  let s1 := s.rangesOff p
  ((s1.mem.granules.filter (fun e => gValid e.2 && gOwner e.2 = p)).map Prod.fst).foldl State.freeGranule s1

def execFreeAll (r : Requester) (p first count peer : Nat) (s : State) : Outcome State Fault Refusal :=
  .next ((s.gcmd r p first count peer (fun t s => (s.freeAll p).gcmdDone t 0)).tirWork p)

/-! ### Migrations (R253, R254) -/

/-- Puts an element in its place by an order. -/
def insertBy {α : Type} (lt : α → α → Bool) (x : α) : List α → List α
  | [] => [x]
  | y :: ys => if lt x y then x :: y :: ys else y :: insertBy lt x ys

/-- A list in an order. -/
def sortBy {α : Type} (lt : α → α → Bool) (l : List α) : List α := l.foldl (fun a x => insertBy lt x a) []

/-- Count of a range granule. -/
def State.tierCountOf (s : State) (p r i : Nat) : Nat := NMap.getD s.mem.tierCount 0 (tierKey p r i)
/-- The pool granule of a promoted range granule. -/
def State.poolAt (s : State) (p r i : Nat) : Option Nat :=
  match NMap.getD s.mem.tierPool 0 (tierKey p r i) with | 0 => none | q + 1 => some q

/-- A move names a range granule. -/
def Migration.is (m : Migration) (p r i : Nat) : Bool := m.part = p && m.range = r && m.index = i

/-- A planned move may start (R254): fewer than 4 run, its pool granule is not in use, its range granule is where it starts from. -/
def State.startable (s : State) (m : Migration) : Bool :=
  decide (s.mem.migs.length < 4) && !s.inMigration m.pool && !s.mem.migs.any (fun k => k.is m.part m.range m.index) &&
  (if m.up then s.poolAt m.part m.range m.index = none && !s.mem.tierPool.any (fun e => e.2 = m.pool + 1)
   else s.poolAt m.part m.range m.index = some m.pool)

/-- The Skein lines of a range granule in T3, as far as accesses showed its host page. -/
def State.backLine (s : State) (k line : Nat) : Bool :=
  match NMap.getD s.mem.tierHpa 0 k with
  | 0 => false
  | h + 1 => isT3 line && line % 2 ^ 58 / 32768 = h

/-- The lines of the tier a migration leaves. -/
def State.sourceLine (s : State) (m : Migration) (line : Nat) : Bool :=
  if m.up then s.backLine (tierKey m.part m.range m.index) line else inGranule m.pool line

/-- Steps 1 and 2 of a migration: every Skein line of the granule is written back and invalidated, agents' copies recalled; the tier engine, ATU
client 86, has the backing page translated (10_address_translation.md R325). -/
def State.migBegin (s : State) (m : Migration) : State :=
  let t := pg cTIR m.part
  let s1 := (s.recallLines false (s.sourceLine m)).flushLines true (s.sourceLine m)
  (({ s1 with mem := { s1.mem with migs := s1.mem.migs ++ [m], planned := s1.mem.planned.filter (fun k => k ≠ m) } } : State).workStart
    t).translate (s.actFld t (PgTIR.TR_CFG_PASID m.range))
      { client := 86, id := m.key, task := none, part := m.part, va := s.actFld t (PgTIR.TR_T3_BASE m.range) + m.index * 0x200000, r := m.up, w := !m.up }

/-- The backing page of a migration has its translation. -/
def State.migReady (s : State) (m : Migration) : Bool :=
  s.atu.tiles.any (fun e => e.want.client = 86 && e.want.id = m.key && e.tr.isSome)

/-- Accesses accepted at the side a migration leaves are still under way (R254, R266). -/
def State.migBusy (s : State) (m : Migration) : Bool :=
  s.mem.txns.any (fun t => s.sourceLine m t.line) || s.mem.waitQ.any (fun q => s.sourceLine m q.2.1) ||
    s.mem.reqs.any (fun r => r.txn.isSome && s.sourceLine m r.line)

/-- Planned moves start as far as they may. -/
def State.startMoves (s : State) : Nat → State
  | 0 => s
  | fuel + 1 =>
    match s.mem.planned.find? s.startable with
    | some m => (s.migBegin m).startMoves fuel
    | none => s

/-- [DEDUCED, log entry 175] -/
def State.goMoves (s : State) : State := s.startMoves (s.mem.planned.length + 1)

/-- A range granule is in a move that is planned or runs. -/
def State.moving (s : State) (p r i : Nat) : Bool :=
  s.mem.migs.any (fun m => m.is p r i) || s.mem.planned.any (fun m => m.is p r i)

/-- Free granules of a range's pool. -/
def State.poolFree (s : State) (p r : Nat) : List Nat :=
  (s.poolOf p r).filter (fun q => !s.mem.tierPool.any (fun e => e.2 = q + 1) && !s.inMigration q && !s.mem.planned.any (fun m => m.pool = q))

/-- The coldest of promoted granules (R253): lowest count, equal counts by descending index. -/
def coldest (count : Nat → Nat) (l : List (Nat × Nat)) : Option (Nat × Nat) :=
  (sortBy (fun a b => decide (count a.1 < count b.1) || (count a.1 = count b.1 && decide (b.1 < a.1))) l).head?

/-- The evaluation of a range (R253): moves planned for its candidates in order.
[DEDUCED, log entry 175] -/
def planMoves (p r limit hyst : Nat) (count : Nat → Nat) : List Nat → List Migration → List Nat → List (Nat × Nat) → List Migration
  | [], mv, _, _ => mv
  | c :: cs, mv, free, warm =>
    if limit ≤ mv.length then mv
    else match free with
      | q :: fr => planMoves p r limit hyst count cs (mv ++ [⟨p, r, c, true, q, false, false⟩]) fr warm
      | [] =>
        match coldest count warm with
        | none => mv
        | some (x, q) =>
          if count x + hyst < count c && mv.length + 2 ≤ limit then
            planMoves p r limit hyst count cs (mv ++ [⟨p, r, x, false, q, false, false⟩, ⟨p, r, c, true, q, false, false⟩]) []
              (warm.filter (fun y => y ≠ (x, q)))
          else mv

/-- Counts of a range are halved. -/
def State.halveCounts (s : State) (p r : Nat) : State :=
  let k := tierKey p r 0
  { s with mem := { s.mem with tierCount := s.mem.tierCount.filterMap (fun e =>
      if k ≤ e.1 && e.1 < k + 2 ^ 18 then (if e.2 / 2 = 0 then none else some (e.1, e.2 / 2)) else some e) } }

/-- The end of an epoch (R253): moves of an earlier epoch that have not started are discarded, new ones planned, counts halved.
[DEDUCED, log entry 175] -/
def State.tierEpoch (s : State) (p r : Nat) : State :=
  let t := pg cTIR p
  let s1 : State := { s with mem := { s.mem with
    planned := s.mem.planned.filter (fun m => !(m.part = p && m.range = r && !m.commit)) } }
  let count (i : Nat) : Nat := s1.tierCountOf p r i
  let cands := (List.range (s.actFld t (PgTIR.TR_CFG_LEN r))).filter (fun i =>
    s1.poolAt p r i = none && decide (s.fld t (PgTIR.TR_POLICY_PROMOTE r) ≤ count i) && !s1.moving p r i)
  let order := sortBy (fun a b => decide (count b < count a) || (count a = count b && decide (a < b))) cands
  let warm := (s1.promotedOf p r).filter (fun x => !s1.moving p r x.1)
  let mv := planMoves p r (s.fld t (PgTIR.TR_POLICY_MAX_MOVES r)) (s.fld t (PgTIR.TR_POLICY_HYST r)) count order [] (s1.poolFree p r) warm
  ((({ s1 with mem := { s1.mem with planned := s1.mem.planned ++ mv } } : State).goMoves).halveCounts p r).tirWork p

def execTierEpoch (p range : Nat) (s : State) : Outcome State Fault Refusal :=
  if 16 ≤ p || 8 ≤ range || !s.rangeOn p range then .next s else .next (s.tierEpoch p range)

/-- A migration's copy has ended (R254): the range granule is served from its new tier. It does not end before its backing page is translated,
nor while accesses accepted at its source are under way.
[DEDUCED, log entry 176] -/
def State.migDone (s : State) (m : Migration) (cells : List (Nat × Byte)) (poison : List Nat) : State :=
  let k := tierKey m.part m.range m.index
  let t := pg cTIR m.part
  let s1 := s.flushLines true (s.sourceLine m)
  let s2 :=
    if m.up then
      let s3 := s1.fillGranule m.pool cells poison
      { s3 with mem := { s3.mem with
          tierPool := NMap.put s3.mem.tierPool 0 k (m.pool + 1)
          tierCount := if m.stage then NMap.put s3.mem.tierCount 0 k 0xFFFF else s3.mem.tierCount } }
    else
      let c := s1.granuleCells m.pool
      let s3 := (s1.emit (.granuleToHost (s1.actFld t (PgTIR.TR_CFG_PASID m.range))
        (s1.actFld t (PgTIR.TR_T3_BASE m.range) + m.index * 0x200000) c.1 c.2)).dropGranuleWrites m.pool
      { s3 with mem := { s3.mem with tierPool := NMap.put s3.mem.tierPool 0 k 0 } }
  let s3 : State := ({ s2 with mem := { s2.mem with migs := s2.mem.migs.filter (fun y => y ≠ m) } } : State).migTile m
  ((s3.count t (PgTIR.TR_STAT_MOVES m.range) 1).goMoves).tirWork m.part

def execMigrationDone (p range index : Nat) (cells : List (Nat × Byte)) (poison : List Nat) (s : State) : Outcome State Fault Refusal :=
  match s.mem.migs.find? (fun m => m.is p range index) with
  | none => .next s
  | some m => if s.migReady m && !s.migBusy m then .next (s.migDone m cells poison) else .next s

def execMigrationFail (p range index : Nat) (s : State) : Outcome State Fault Refusal :=
  match s.mem.migs.find? (fun m => m.is p range index) with
  | none => .next s
  | some m => .next (((s.migFail m).goMoves).tirWork p)

/-- A stage asks for a range granule in T2 (R261): from a free granule of the pool, else in place of the coldest promoted one. -/
def State.stagePromote (s : State) (p r i : Nat) : State :=
  if s.poolAt p r i ≠ none || s.moving p r i then s
  else
    let add (ms : List Migration) : State := { s with mem := { s.mem with planned := s.mem.planned ++ ms } }
    match s.poolFree p r with
    | q :: _ => add [⟨p, r, i, true, q, true, false⟩]
    | [] =>
      match coldest (s.tierCountOf p r) ((s.promotedOf p r).filter (fun x => !s.moving p r x.1)) with
      | some (x, q) => add [⟨p, r, x, false, q, true, false⟩, ⟨p, r, i, true, q, true, false⟩]
      | none => s

/-! ### Commits of the TIR page (R251, R252, R257) -/

/-- The shadow values of a range. -/
def State.wantOn (s : State) (p r : Nat) : Bool := s.flag (pg cTIR p) (PgTIR.TR_CFG_ENABLE r)

/-- Sum of LEN over the ranges that a commit would leave enabled. -/
def State.wantLen (s : State) (p : Nat) : Nat :=
  ((List.range 8).map (fun r => if s.wantOn p r then s.fld (pg cTIR p) (PgTIR.TR_CFG_LEN r) else 0)).foldl (· + ·) 0

/-- A commit breaks R252 or exceeds the tier table: it is ignored with ORDER. -/
def State.tirCommitBad (s : State) (p : Nat) : Bool :=
  (List.range 8).any (fun r =>
    let b := s.fld (pg cTIR p) (PgTIR.TR_T3_BASE r)
    s.wantOn p r && (decide (2 ^ 57 ≤ b) || b % 0x200000 ≠ 0 || s.fld (pg cTIR p) (PgTIR.TR_CFG_LEN r) = 0
      || !s.ownsPasid p (s.fld (pg cTIR p) (PgTIR.TR_CFG_PASID r)))) ||
  decide (262144 < ((List.range 16).map (fun q => if q = p then s.wantLen q else s.t3Used q)).foldl (· + ·) 0)

/-- A commit exceeds the partition's T3 quota (R251).
[DEDUCED, log entry 143] -/
def State.tirOverQuota (s : State) (p : Nat) : Bool :=
  decide (s.fld (pg cPRT p) PgPRT.TIER_QUOTA_T3_LIMIT < s.wantLen p) && decide (s.t3Used p < s.wantLen p)

/-- A commit that clears ENABLE first demotes every promoted granule of the range. -/
def State.tirCommitStart (s : State) (p : Nat) : State :=
  ((List.range 8).foldl (fun s r =>
    if s.rangeOn p r && !s.wantOn p r then
      let ms := ((s.promotedOf p r).filter (fun x => !s.mem.migs.any (fun m => m.is p r x.1))).map
        (fun x => (⟨p, r, x.1, false, x.2, false, true⟩ : Migration))
      { s with mem := { s.mem with planned := s.mem.planned.filter (fun m => !(m.part = p && m.range = r)) ++ ms } }
    else s) s).goMoves

/-- The commit boundary: no migration is in flight, and ranges to be disabled have nothing promoted. -/
def State.tirCommitReady (s : State) (p : Nat) : Bool :=
  !s.mem.migs.any (fun m => m.part = p) &&
  (List.range 8).all (fun r => !(s.rangeOn p r && !s.wantOn p r) || decide (s.promotedOf p r = []))

/-- Ranges newly enabled start with every granule in T3 and no counts. -/
def State.tirCommitApply (s : State) (p : Nat) : State :=
  (List.range 8).foldl (fun s r =>
    if s.rangeOn p r = s.wantOn p r then s
    else
      let lo := tierKey p r 0
      let hi := tierKey p (r + 1) 0
      { s with mem := { s.mem with
          tierCount := NMap.cut s.mem.tierCount lo hi, tierPool := NMap.cut s.mem.tierPool lo hi, tierHpa := NMap.cut s.mem.tierHpa lo hi
          planned := s.mem.planned.filter (fun m => !(m.part = p && m.range = r)) } }) s

/-- A reset of a partition abandons its migrations; its ranges stay enabled (R256). -/
def State.tierPartReset (s : State) (p : Nat) : State :=
  let s1 := (s.mem.migs.filter (fun m => m.part = p)).foldl State.migFail s
  (({ s1 with mem := { s1.mem with planned := s1.mem.planned.filter (fun m => m.part ≠ p) } } : State).goMoves).tirWork p

end Sys2Proof.Machine
end

