-- ==== Sys2Proof/Machine/Itinerary.lean ====
section
/-! DEFINITION. Itinerary slots (08_memory_tiers.md R258-R264) and the key engine's task (09_memory_integrity.md R288). -/
namespace Sys2Proof.Machine
open Host

/-- Slot states (R265). -/
def inIDLE : Nat := 0
def inRUNNING : Nat := 1
def inDONE : Nat := 2
def inSTOPPED : Nat := 3
def inERROR : Nat := 4

def State.itnSlot (s : State) (k : Nat) : ItnSt := NMap.getD s.mem.itn {} k

/-- Stores a slot; its page counts the stages in flight. -/
def State.setItn (s : State) (k : Nat) (x : ItnSt) : State :=
  ({ s with mem := { s.mem with itn := NMap.put s.mem.itn {} k x } } : State).setFld (pg cITN k) PgITN.STATE_INFLIGHT x.flight.length

def State.itnState (s : State) (k : Nat) : Nat := s.fld (pg cITN k) PgITN.STATE_STATE
def State.itnPart (s : State) (k : Nat) : Nat := s.ownerPart (pg cITN k)

/-- Milestones so far (15_milestone_schedule.md R465). -/
def State.milestone (s : State) : Nat := s.fld pGLB PgGLB.MS_NOW_COUNT

/-- The slot stops in ERROR with a status code (R263, R265). -/
def State.itnError (s : State) (k code : Nat) : State :=
  let p := pg cITN k
  (((s.setItn k { s.itnSlot k with next := none }).setFld p PgITN.STATE_STATE inERROR).setFld p PgITN.PERF_LAST_FAIL code).setInt p 0

/-- A header's form (R258), after its CHECK. -/
def headerOk (b : List Byte) (arg : Nat) : Bool :=
  fieldAt b 0 1 = 1 && fieldAt b 1 1 < 2 && 1 ≤ fieldAt b 2 2 && fieldAt b 2 2 ≤ 4096 && fieldAt b 4 24 = 0 && arg < fieldAt b 2 2

/-- START of a slot with the header as read; `none`: its translation was refused.
[DEDUCED, log entry 177] -/
def State.itinStart (s : State) (k arg pasid part : Nat) (hdr : Option (List Byte)) : State :=
  let p := pg cITN k
  let old := s.itnSlot k
  let s1 := s.setItn k { old with next := none, tags := [] }
  match hdr with
  | none => s1.itnError k tsXLATE_REFUSED
  | some b =>
    if b.length ≠ 32 || !Sys2Proof.Machine.checkOk b then s1.itnError k tsTASK_CHECK
    else if !headerOk b arg then s1.itnError k tsTASK_FORMAT
    else
      let s2 := s1.setItn k { base := s.fld p PgITN.DESC_DESC, loop := fieldAt b 1 1 = 1, count := fieldAt b 2 2, pasid := pasid, part := part, next := none, tags := []
                              flight := old.flight }
      (((s2.setFld p PgITN.STATE_STATE inRUNNING).setFld p PgITN.STATE_NEXT arg).setFld p PgITN.STATE_MARK arg).setFld p
        PgITN.MS_BASE_MS_BASE s2.milestone

/-- The ITIN task that is next (R171, R175), if its action is the one named; on a slot of another partition it ends with ACCESS, else the
engine accepts it and it is DONE (R264).
[DEDUCED, log entry 177] -/
def State.itinTask (s : State) (action : Nat) (f : Nat → Nat → TaskSt → State → State) : State :=
  match s.pick 8 (fun _ => true) with
  | none => s
  | some (t, s1) =>
    let k := leNat (t.body.take 1)
    if leNat ((t.body.drop 1).take 1) ≠ action then s
    else
      let s2 := s1.dispatched t k
      if s2.itnPart k ≠ t.part then s2.taskEnd t.id tsACCESS
      else (f k (leNat ((t.body.drop 4).take 4)) t s2).taskEnd t.id tsOK

def execItinStart (hdr : Option (List Byte)) (s : State) : Outcome State Fault Refusal :=
  .next (s.itinTask 0 (fun k arg t s => s.itinStart k arg t.pasid t.part (s.readObj t.part (s.fld (pg cITN k) PgITN.DESC_DESC) 32 hdr)))

def execItinAdvance (s : State) : Outcome State Fault Refusal :=
  .next (s.itinTask 1 (fun k arg _ s =>
    let p := pg cITN k
    if s.itnState k ≠ inRUNNING then s
    else s.setFld p PgITN.STATE_MARK (min 4096 (max (s.fld p PgITN.STATE_MARK) (arg + 1)))))

def execItinStop (s : State) : Outcome State Fault Refusal :=
  .next (s.itinTask 2 (fun k _ _ s =>
    if s.itnState k ≠ inRUNNING then s
    else (s.setItn k { s.itnSlot k with next := none }).setFld (pg cITN k) PgITN.STATE_STATE inSTOPPED))

/-! ### Stages (R259-R263) -/

/-- An event a stage names, with or without an error; 0xFFFF names none. -/
def State.stageEvent (s : State) (part e : Nat) (err : Bool) : State :=
  if e = 0xFFFF || !s.eventIn part e then s else s.eventInc part e err

/-- 2 MiB regions a run of bytes touches. -/
def regionsOf (a len : Nat) : Nat := (a % 0x200000 + len + 0x1FFFFF) / 0x200000

/-- A stage's form (R259), after its CHECK. -/
def stageOk (x : ItnStage) : Bool :=
  x.src / 2 ^ 62 ≠ 3 && natBits x.src 61 57 = 0 && x.src % 64 = 0 &&
  (if x.target = 1 then x.dst / 2 ^ 62 = 1 && natBits x.dst 61 57 = 0 && x.dst % 64 = 0 else x.dst = 0) &&
  x.length % 64 = 0 && 64 ≤ x.length && x.length ≤ 2 ^ 26 && x.target ≤ 2 && x.trigger ≤ 3

/-- The engine reads a slot's next stage; a refused translation, a wrong CHECK or a reserved value stops the slot (R263).
[DEDUCED, log entry 177] -/
def State.stageRead (s : State) (k : Nat) (x : ItnStage) (status : Nat) : State :=
  let t := s.itnSlot k
  if status ≠ 0 then s.itnError k status
  else if !x.checkOk then (s.itnError k tsTASK_CHECK).stageEvent t.part x.event true
  else if !stageOk x then (s.itnError k tsTASK_FORMAT).stageEvent t.part x.event true
  else s.setItn k { t with next := some x }

/-- The 32 bytes of a stage (R259). -/
def stageDecode (b : List Byte) : ItnStage :=
  { src := fieldAt b 0x00 8, dst := fieldAt b 0x08 8, length := fieldAt b 0x10 4, event := fieldAt b 0x14 2, target := fieldAt b 0x16 1
    trigger := fieldAt b 0x17 1, trigArg := fieldAt b 0x18 4, checkOk := Sys2Proof.Machine.checkOk b }

/-- Stage NEXT of a slot as its read finds it, and the read's status (R259, R260): in a window what memory holds, else as the read reports
it. -/
def State.stageAt (s : State) (k : Nat) (x : ItnStage) (status : Nat) : ItnStage × Nat :=
  let t := s.itnSlot k
  let o := t.base + 0x20 + 32 * s.fld (pg cITN k) PgITN.STATE_NEXT
  if o / 2 ^ 62 = 0 then (x, status)
  else match s.peek t.part o 32 (fun i => s.objWindow t.part (o + i)) with
    | none => (x, status)
    | some none => (x, tsACCESS)
    | some (some (b, bad)) => (stageDecode b, if bad then tsPOISON else 0)

def execStageRead (slot : Nat) (stage : ItnStage) (status : Nat) (s : State) : Outcome State Fault Refusal :=
  if 64 ≤ slot || s.itnState slot ≠ inRUNNING || (s.itnSlot slot).next ≠ none then .next s
  else
    let x := s.stageAt slot stage status
    .next (s.stageRead slot x.1 x.2)

/-- A stage's trigger is met (R260). -/
def State.triggered (s : State) (k : Nat) (x : ItnStage) : Bool :=
  let p := pg cITN k
  match x.trigger with
  | 0 => true
  | 1 => (s.itnSlot k).tags.contains x.trigArg
  | 2 => decide (s.fld p PgITN.MS_BASE_MS_BASE + x.trigArg ≤ s.milestone)
  | _ => decide (s.fld p PgITN.STATE_NEXT < s.fld p PgITN.STATE_MARK)

/-- The range granules of a partition that a run of bytes of an object touches. -/
def State.stageGranules (s : State) (part : Nat) (x : ItnStage) : List (Nat × Nat) :=
  ((List.range (regionsOf x.src x.length)).filterMap (fun i =>
    match s.objWindow part ((x.src / 0x200000 + i) * 0x200000) with
    | some (.dpa a) => if 2 ^ 47 ≤ a then some ((a / 2 ^ 39) % 8, a % 2 ^ 39 / 0x200000) else none
    | _ => none))

/-- Ends a stage (R261, R263): counted, its status kept, its EVENT incremented; a failed T0 stage's with ERR. -/
def State.stageEnd (s : State) (k : Nat) (x : ItnStage) (status : Nat) : State :=
  let p := pg cITN k
  let s1 := if status = 0 then s.count p PgITN.PERF_STAGES_DONE 1
            else (s.count p PgITN.PERF_STAGES_FAILED 1).setFld p PgITN.PERF_LAST_FAIL status
  s1.stageEvent (s.itnSlot k).part x.event (status ≠ 0 && x.target = 1)

/-- A stage is issued: the slot goes on to the next, loops, or is DONE (R260); a T2 stage asks for its granules, a T0 or T1 stage's lines are
copied or filled, through tollgate 478 (R261).
[DEDUCED, log entry 240] -/
def State.stageIssue (s : State) (k : Nat) (x : ItnStage) : State :=
  let p := pg cITN k
  let t := s.itnSlot k
  let i := s.fld p PgITN.STATE_NEXT
  let last := decide (t.count ≤ i + 1)
  let big := decide (64 < regionsOf x.src x.length + (if x.target = 1 then regionsOf x.dst x.length else 0))
  let s1 := s.setItn k { t with next := none, tags := [], flight := if big then t.flight else t.flight ++ [(i, x)] }
  let s2 :=
    if !last then s1.setFld p PgITN.STATE_NEXT (i + 1)
    else if t.loop then
      ((s1.setFld p PgITN.STATE_NEXT 0).setFld p PgITN.STATE_MARK 0).setFld p PgITN.MS_BASE_MS_BASE s1.milestone
    else s1.setFld p PgITN.STATE_STATE inDONE
  if big then s2.stageEnd k x tsTILE_TOO_LARGE
  else if x.target = 2 then
    (((s2.stageGranules t.part x).foldl (fun s g => if s.rangeOn t.part g.1 then s.stagePromote t.part g.1 g.2 else s) s2).goMoves).tirWork
      t.part
  else s2.copyOpen { id := 0, for_ := .stage k i, part := t.part, pasid := t.pasid, client := 84, tol := 478
                     cls := s.fld (pg cTOL 478) PgTOL.CLASS_CFG_DEFAULT_CLASS, src := x.src, dst := x.dst, rowBytes := x.length, rows := 1
                     srcStride := 0, dstStride := 0, hint := 0, fill := x.target = 0 }

def execStageIssue (slot : Nat) (s : State) : Outcome State Fault Refusal :=
  match (s.itnSlot slot).next with
  | none => .next s
  | some x =>
    if 64 ≤ slot || s.itnState slot ≠ inRUNNING || !s.triggered slot x
        || s.fld (pg cITN slot) PgITN.CFG_MAX_INFLIGHT ≤ (s.itnSlot slot).flight.length then .next s
    else .next (s.stageIssue slot x).kick

/-- A T2 stage still waits for a migration of one of its granules. -/
def State.stageWaits (s : State) (part : Nat) (x : ItnStage) : Bool :=
  x.target = 2 && (s.stageGranules part x).any (fun g => s.moving part g.1 g.2)

/-- A stage in flight ends (R261, R263): of a T0 or T1 stage once its copy has, with the copy's status; of a T2 stage as reported, but not with
success while a migration is under way. -/
def execStageDone (slot index status : Nat) (s : State) : Outcome State Fault Refusal :=
  match (s.itnSlot slot).flight.find? (fun f => f.1 = index) with
  | none => .next s
  | some f =>
    let t := s.itnSlot slot
    let stop_ (s : State) (status : Nat) : Outcome State Fault Refusal :=
      .next ((s.setItn slot { t with flight := t.flight.erase f }).stageEnd slot f.2 status)
    if 64 ≤ slot then .next s
    else if f.2.target = 2 then (if status = 0 && s.stageWaits t.part f.2 then .next s else stop_ s status)
    else match s.dsp.copies.find? (fun c => c.for_ = .stage slot index) with
      | some c => if !c.ended || c.busy then .next s else stop_ (s.dropCopies (fun x => x.id = c.id)) c.status
      | none => stop_ s status

/-- A reset of the slot's partition stops it: what its stages still move is discarded and no event is incremented (R266). -/
def State.itnPartReset (s : State) (p : Nat) : State :=
  ((NMap.keys s.mem.itn).filter (fun k => (s.itnSlot k).part = p)).foldl (fun s k =>
    let s1 := (s.dropCopies (fun c => match c.for_ with | .stage j _ => j = k | .move _ => false)).setItn k {}
    if s1.itnState k = inRUNNING then s1.setFld (pg cITN k) PgITN.STATE_STATE inSTOPPED else s1) s

/-! ### KEY tasks (09_memory_integrity.md R288) -/

/-- A KEY task is taken where its partition has none running: refused with KEY_BUSY while PENDING or EXHAUSTED reads 1. -/
def execKeyAdvance (s : State) : Outcome State Fault Refusal :=
  match s.pick 9 (fun t => !s.mem.keyTasks.any (fun k => k.1 = t.part)) with
  | none => .next s
  | some (t, s1) =>
    let s2 := s1.dispatched t t.part
    if s.flag pKEY (PgKEY.MEMKEY_PENDING t.part) || s.flag pKEY (PgKEY.MEMKEY_EXHAUSTED t.part) then .next (s2.taskEnd t.id tsKEY_BUSY)
    else .next { s2 with mem := { s2.mem with keyTasks := s2.mem.keyTasks ++ [(t.part, t.id)] } }

/-- Every live channel has switched its writes: the generation advances and the KEY task is DONE. -/
def execKeySwitchDone (p : Nat) (s : State) : Outcome State Fault Refusal :=
  match s.mem.keyTasks.find? (fun k => k.1 = p) with
  | none => .next s
  | some k =>
    let s1 : State := { s with mem := { s.mem with keyTasks := s.mem.keyTasks.erase k } }
    .next ((s1.keySwitch p).taskEnd k.2 tsOK)

end Sys2Proof.Machine
end

