-- ==== Sys2Proof/Machine/MilOps.lean ====
section
/-! DEFINITION. The time tree, readiness and the boundaries of milestones (15_milestone_schedule.md R455-R477). -/
namespace Sys2Proof.Machine
open Host

/-- TIME_STATUS.STATE codes (R463). -/
def tmOFF : Nat := 0
def tmMEASURING : Nat := 1
def tmLOCKING : Nat := 2
def tmRUNNING : Nat := 3
def tmLOST : Nat := 4

def State.timeState (s : State) : Nat := s.fld pMGT PgMGT.TIME_STATUS_STATE
def State.setTimeState (s : State) (st : Nat) : State := s.setFld pMGT PgMGT.TIME_STATUS_STATE st
def State.setTime (s : State) (t : TimeSt) : State := { s with mil := { s.mil with time := t } }
/-- This hub is the time root (R455). -/
def State.isRoot (s : State) : Bool := s.flag pMGT PgMGT.TIME_CFG_ROOT
def State.setTick (s : State) (t : Nat) : State := s.setFld pGLB PgGLB.TICK_NOW_TICK (t % 2 ^ 64)

/-- A port has a live strand to a peer in a running state (R456). -/
def State.portUp (s : State) (p : Nat) : Bool := (s.portStrands p).any (fun g => s.strandUp g)
def State.livePorts (s : State) : List Nat := (List.range 12).filter (fun p => s.portUp p)

/-- Ports of TIME_PARENT in priority order (R463). -/
def State.parentList (s : State) : List Nat :=
  ((List.range 3).map (fun i => natBits (s.fld pMGT PgMGT.TIME_PARENT_PORTS) (4 * i + 3) (4 * i))).filter (fun p => p < 12)
/-- The parent port in use. -/
def State.parentPort (s : State) : Option Nat :=
  let p := s.fld pMGT PgMGT.TIME_STATUS_PARENT
  if p < 12 then some p else none

/-- Ports whose peers have adopted this hub (R456). -/
def State.childPorts (s : State) : List Nat := NMap.keys s.mil.time.children

/-- A TIME message to every child. -/
def State.toChildren (s : State) (op : Nat) (vals : List Nat) : State :=
  s.childPorts.foldl (fun s p => s.emit (.timePkt p op vals)) s

/-- K: the milestones a readiness decision looks ahead (R461). -/
def TimeSt.k (t : TimeSt) : Nat := (t.lead + t.period - 1) / max 1 t.period

/-! ### Readiness (R471-R473) -/

/-- A commit of a MIL page waits. -/
def State.milCommit (s : State) (p : Nat) : Bool := s.flag (pg cMIL p) PgHDR.PAGE_STATE_COMMIT_BUSY

/-- The table in force for milestone `n` on a port (R471): the staged one once its commit is requested and `n` has reached its CYCLE_BASE, else the
active one while it runs; with its CYCLE_BASE, and whether it is the staged one. -/
def State.tableAt (s : State) (p n : Nat) : Option (SchedTab × Nat × Bool) :=
  let q := pg cMIL p
  let x := s.milPort p
  let nb := s.fld q PgMIL.SCHED_CYCLE_BASE
  if s.milCommit p && 0 ≤ msDiff n nb then
    (if s.flag q PgMIL.SCHED_ENABLE then x.staged.map (fun t => (t, nb, true)) else none)
  else if s.milState p = msRUNNING then x.active.map (fun t => (t, x.base, false))
  else none

/-- The entries of a table that start at a cycle position, with their indices. -/
def SchedTab.startAt (t : SchedTab) (pos : Nat) : List (Nat × SchedEnt) :=
  ((List.range t.ents.length).zip t.ents).filter (fun e => e.2.off = pos && e.2.kind ≠ 0)

/-- Cycle position of a milestone (R467). -/
def posOf (cycle base n : Nat) : Nat := ((n + 2 ^ 48 - base % 2 ^ 48) % 2 ^ 48) % max 1 cycle

/-- One occurrence is ready (R473). -/
def State.entReady (s : State) (p : Nat) (t : SchedTab) (staged : Bool) (n i : Nat) (e : SchedEnt) : Bool :=
  let win := e.kind ≠ 2 || !natBit e.flags 0 || (match s.jobPart t.job with | some q => s.fld (pg cPRT q) PgPRT.T2_WIN_T2_LEN ≠ 0 | none => false)
  let coll := e.kind < 3 || s.mil.colls.any (fun c => c.ply = e.src % 1024)
  let bound := !e.bound || (s.milPort p).bound.any (fun b => b.ent = i && b.occ = n && b.staged = staged)
  win && coll && bound

/-- Every occurrence of milestone `n` is ready on every port. -/
def State.milReady (s : State) (n : Nat) : Bool :=
  (List.range 12).all (fun p =>
    match s.tableAt p n with
    | none => true
    | some (t, base, staged) => (t.startAt (posOf t.cycle base n)).all (fun e => s.entReady p t staged n e.1 e.2))

/-- Consecutive ready milestones after `n`, up to a number. -/
def State.readyRun (s : State) (n : Nat) : Nat → Nat
  | 0 => 0
  | k + 1 => if s.milReady ((n + 1) % 2 ^ 48) then 1 + s.readyRun ((n + 1) % 2 ^ 48) k else 0

/-- A late send has not finished, or VC S of an input has overrun and some input is not yet below half full (R474). -/
def State.overrunning (s : State) : Bool :=
  s.mil.ports.any (fun e => e.2.runs.any (fun r => r.late && !r.done)) || (s.fab.sOver && (List.range 24).any (fun g => decide (512 ≤ s.vcS g)))

/-- This hub's READY_THROUGH, as milestones after its counter (R473, R474). -/
def State.readyAhead (s : State) : Nat :=
  let r := s.readyRun s.msNow 64
  if s.overrunning then min r s.mil.time.k else r

/-- The minimum of this hub's and its children's READY_THROUGH, relative to the counter, with the node attaining it: ties go to the lowest node. A child
that has not reported has reached the counter only.
[DEDUCED, log entry 146] -/
def State.domainAhead (s : State) : Int × Nat :=
  (s.mil.time.children.map (fun e => match e.2 with
    | some (m, node, _) => (msDiff m s.msNow, node)
    | none => ((0 : Int), 0x3FFFF))).foldl
    (fun best c => if c.1 < best.1 || (c.1 = best.1 && c.2 < best.2) then c else best) ((s.readyAhead : Int), s.node)

/-- Every hub below reports LOCKED.
[DEDUCED, log entry 149] -/
def State.allLocked (s : State) : Bool :=
  s.mil.time.locked && s.mil.time.children.all (fun e => match e.2 with | some (_, _, l) => l | none => false)

/-- The report to the parent (R473): every milestone, and at once when the value changes. -/
def State.timeReport (s : State) (force : Bool) : State :=
  let d := s.domainAhead
  let v := ((((s.msNow : Int) + d.1) % (2 ^ 48 : Int)).toNat, d.2)
  if s.isRoot || s.timeState = tmOFF || s.timeState = tmLOST then s
  else match s.parentPort with
    | none => s
    | some p =>
      if !force && s.mil.time.sent = some v then s
      else (s.setTime { s.mil.time with sent := some v }).emit (.timePkt p 3 [v.1, v.2, b2n s.allLocked])

/-- A frame arrives, and what it does to the hub's readiness is reported (R474): VC S overrun, or drained.
[DEDUCED, log entry 167] -/
def State.frameArrive (s : State) (g : Nat) (f : FabFrame) (c : FrameCheck) : State :=
  let s1 := s.frameIn g f c
  if s1.overrunning = s.overrunning then s1 else s1.timeReport false

def execFabricFrameReceive (g : Nat) (f : FabFrame) (c : FrameCheck) (s : State) : Outcome State Fault Refusal :=
  if 24 ≤ g || s.strandState g = ssDOWN || s.strandState g = ssTRAINING || s.strandState g = ssNO_PEER || s.strandState g = ssFAULTED
      || s.strandState g = ssTEST || s.strandState g = ssRETRAINING then .next s
  else .next (s.frameArrive g f c)

/-! ### Ends and failures of schedules (R472, R477) -/

/-- Every MIL page of this hub fails (R477). -/
def State.milFailAll (s : State) (cause : Nat) : State :=
  ((List.range 12).filter (fun p => !s.pageAbsent (pg cMIL p))).foldl (fun s p => s.milFail p cause tsFABRIC_ERROR) s

/-- A partition is reset (R477): the pages whose table runs for it fail, their bound tasks end CANCELLED. -/
def State.milPartReset (s : State) (part : Nat) : State :=
  ((List.range 12).filter (fun p => match (s.milPort p).active with
    | some t => s.jobPart t.job = some part && (s.milState p = msRUNNING || s.milState p = msARMED) | none => false)).foldl
    (fun s p => s.milFail p 4 tsCANCELLED) s

/-! ### Boundaries (R467, R471, R476) -/

/-- Commits whose milestone this is, and late ones, complete. -/
def State.milCommits (s : State) (n : Nat) : State :=
  ((List.range 12).filter (fun p => s.milCommit p && ((s.milPort p).late || s.fld (pg cMIL p) PgMIL.SCHED_CYCLE_BASE = n))).foldl State.milApply s

/-- A commit of a MIL page is requested (R471): ARMED while it waits with ENABLE = 1 and no table runs; late once the counter has passed
CYCLE_BASE − K.
[DEDUCED, log entry 151] -/
def State.milRequest (s : State) (p : Nat) : State :=
  let q := pg cMIL p
  let late := msDiff s.msNow (s.fld q PgMIL.SCHED_CYCLE_BASE) > -(s.mil.time.k : Int)
  let s1 := s.setMil p { s.milPort p with late := late }
  (if s.flag q PgMIL.SCHED_ENABLE && s.milState p ≠ msRUNNING then s1.setMilState p msARMED 0 else s1).timeReport false

/-- The reads of a SEND are issued, a packet each (R467). -/
def State.sendStart (s : State) (p i n part bytes src cls : Nat) (addr : Nat → Option Addr) (t : Option TaskId) : State :=
  let fail (s : State) (st : Nat) : State := match t with
    | some t => s.taskEnd t st
    | none => s
  match (packetOffs bytes).mapM (fun o => (bytesParts (src + o) (min 256 (bytes - o)) (fun k => addr (o + k)) (fun _ _ => .read)).map (fun ps => (o, ps))) with
  | none =>
    let x := s.milPort p
    fail (match x.run? i n with | some r => s.setMil p (x.putRun { r with done := true }) | none => s) tsACCESS
  | some l => l.foldl (fun (s : State) e => s.serveParts (.schedSend p i n e.1 src part) (470 + p / 2) part cls 0 .plain 5 e.2) s

/-- An entry starts at milestone `n` (R467, R472, R483). -/
def State.entStart (s : State) (p n part i : Nat) (e : SchedEnt) : State :=
  let x := s.milPort p
  let b := x.bound.find? (fun b => b.ent = i && b.occ = n && !b.staged)
  let task := b.bind (fun b => s.task? b.task)
  if e.bound && task = none then s
  else
    let need := match task with | some t => leNat ((t.body.drop 4).take 4) | none => e.bytes
    let r : MilRun := match x.run? i n with
      | some r => { r with need := need, task := task.map (fun t => t.id) }
      | none => { ent := i, occ := n, need := need, task := task.map (fun t => t.id) }
    let x1 := { x with bound := x.bound.filter (fun y => some y ≠ b), runs := x.runs.filter (fun y => !(y.ent = i && y.occ = n)) ++ [r] }
    let s1 := s.setMil p x1
    if e.kind = 1 then
      if need = 0 then s1.runEnd p r true
      else match task with
        | some t =>
          let src := leNat ((t.body.drop 8).take 8)
          s1.sendStart p i n part need src 0 (fun k => s1.objWindow part (src + k)) (some t.id)
        | none => s1.sendStart p i n part need e.src 0 (fun k => s1.regWindow part (e.src + k)) none
    else if e.kind = 2 then (if r.need ≤ r.moved && r.moved ≤ r.accepted then s1.runEnd p r true else s1)
    else if e.kind = 3 then
      -- A combine that has not finished when its COLL_SEND starts is an overrun (R483).
      if s1.mil.colls.any (fun c => c.ply = e.src % 1024 && !(c.phase = 1 && c.at_ = natBits e.src 31 16)) then
        (((s1.setMil p ((s1.milPort p).putRun { r with late := true })).count (pg cMIL p) PgMIL.PERF2_OVERRUNS 1).setInt (pg cMIL p) 2).timeReport false
      else s1
    else if e.kind = 4 then
      match s1.mil.colls.find? (fun c => c.ply = e.src % 1024), s1.ply? (e.src % 1024) with
      | some c, some y =>
        let ms := match c.steps[natBits e.src 31 16]? with | some t => t.recvs | none => []
        if ms.any (fun m => s1.rankNode y m.rank = e.peer % 2 ^ 18 && m.idx.length * c.size = e.bytes) then s1 else s1.collEnd c.task tsFABRIC_ERROR
      | _, _ => s1
    else s1

/-- The entries of milestone `n` start on every port that runs; POS follows (R467, R470). -/
def State.milStart (s : State) (n : Nat) : State :=
  (List.range 12).foldl (fun (s : State) p =>
    let x := s.milPort p
    if s.milState p ≠ msRUNNING then s
    else match x.active with
      | none => s
      | some t =>
        let s1 := s.setMil p { x with runs := x.runs.filter (fun r => !(r.done && r.endTick ≠ none)) }
        let s2 := s1.setFld (pg cMIL p) PgMIL.STATUS_POS (posOf t.cycle x.base n)
        match s.jobPart t.job with
        | none => s2
        | some part => (t.startAt (posOf t.cycle x.base n)).foldl (fun s e => s.entStart p n part e.1 e.2) s2) s

/-- A stretch has ended (R463, R476): counted and logged at every hub. The GO carries no cause: a hub that is itself the culprit and overruns logs
OVERRUN, the others NOT_READY.
[DEDUCED, log entry 147] -/
def State.stretchEnd (s : State) (n tick culprit : Nat) : State :=
  let us := (tick - (s.mil.time.lastB + s.mil.time.period)) / 100
  let cause := if culprit = s.node && s.overrunning then 1 else 0
  let s1 := (s.count pGLB PgGLB.STRETCH_COUNT 1).count pGLB PgGLB.STRETCH_TOTAL_US us
  let s2 := (s1.setFld pGLB PgGLB.LAST_STRETCH_DUR_US (min 0xFFFF us)).setFld pGLB PgGLB.LAST_STRETCH_MILESTONE n
  ((s2.setFld pGLB PgGLB.LAST_CAUSE_CAUSE cause).setFld pGLB PgGLB.LAST_CAUSE_NODE culprit).setInt pGLB 3

/-- The counter moves to `n` (R476).
[DEDUCED, log entry 145] -/
def State.moveTo (s : State) (n tick culprit : Nat) : State :=
  let s1 := if culprit ≠ 0x3FFFF then s.stretchEnd n tick culprit else s
  let s2 := s1.setFld pGLB PgGLB.MS_NOW_COUNT n
  let s3 := s2.setTime { s2.mil.time with lastB := tick }
  (((s3.milCommits n).milStart n).timeReport true).kick

/-! ### GO and HOLD (R475, R476) -/

/-- GO(n) is taken (R476): it moves the counter at its tick; after its tick, at once, as a late one. -/
def State.takeGo (s : State) (n tick culprit : Nat) : State :=
  let t := s.mil.time
  let s1 := s.setTime { t with hold := none }
  if tick < s.tick then ((s1.count pMGT PgMGT.TIME_STATUS_LATE 1).setInt pGLB 4).moveTo n s.tick culprit
  else s1.setTime { t with hold := none, go := t.go ++ [(n, tick, culprit)] }

/-- GO at the root, forwarded to its children at once. -/
def State.sendGo (s : State) (n tick culprit : Nat) : State := (s.toChildren 4 [n, tick, culprit]).takeGo n tick culprit

/-- The root's decision on the next boundary (R475).
[DEDUCED, log entry 147] -/
def State.rootDecide (s : State) : State :=
  let t := s.mil.time
  let n := t.next
  let b := t.base + t.period
  let d := s.domainAhead
  let ready := msDiff n s.msNow ≤ d.1
  if t.hold = some n then
    if ready then
      let g := s.tick + (t.lead + 1) / 2
      (s.setTime { t with next := (n + 1) % 2 ^ 48, base := g, culprit := 0x3FFFF, hold := none }).sendGo n g t.culprit
    else s
  else if s.tick + t.lead / 2 < b then s
  else if ready then (s.setTime { t with next := (n + 1) % 2 ^ 48, base := b }).sendGo n b 0x3FFFF
  else (s.setTime { t with hold := some n, culprit := d.2 }).toChildren 5 [n]

/-- The counter is held at COUNT (R463 HELD): stopped, or its next boundary's planned tick is past.
[DEDUCED, log entry 145] -/
def State.held (s : State) : Bool :=
  (s.timeState = tmRUNNING || s.timeState = tmLOST) && decide (s.mil.time.lastB + s.mil.time.period < s.tick)

/-! ### Synchronisation (R456-R460) -/

/-- The first port of TIME_PARENT that can be the parent, from a list. -/
def State.adoptParent (s : State) (l : List Nat) : State :=
  match l.find? (fun p => s.portUp p) with
  | some p => (s.setFld pMGT PgMGT.TIME_STATUS_PARENT p).emit (.timePkt p 6 [])
  | none => (s.setFld pMGT PgMGT.TIME_STATUS_PARENT 0xF).setTimeState tmLOST

/-- Every live port has measured its delay (R459 T0): the hub goes to LOCKING. -/
def State.measured (s : State) : State :=
  if s.timeState = tmMEASURING && s.livePorts.all (fun p => (NMap.find? s.mil.time.delay p).isSome) then s.setTimeState tmLOCKING else s

/-- A resync starts (R459). -/
def State.syncStart (s : State) : State :=
  let t := s.mil.time
  let s1 := s.setTime { children := t.children, period := s.fld pMGT PgMGT.TIME_CFG_PERIOD_TICKS, lead := s.fld pMGT PgMGT.TIME_CFG_HOLD_LEAD_TICKS }
  let s2 := (s1.setTimeState tmMEASURING).setFld pMGT PgMGT.TIME_STATUS_DEPTH 0
  let s3 := if s.isRoot then s2.setFld pMGT PgMGT.TIME_STATUS_PARENT 0xF else s2.adoptParent s2.parentList
  let s4 := s3.livePorts.foldl (fun s p => s.emit (.timePkt p 0 [s.tick])) s3
  s4.measured

/-- Insertion of a sample; the median of a list. -/
def insSort (x : Nat) : List Nat → List Nat
  | [] => [x]
  | y :: ys => if x ≤ y then x :: y :: ys else y :: insSort x ys
def median (l : List Nat) : Nat := (l.foldr insSort []).getD (l.length / 2) 0

/-- One PONG (R457): half of the round trip less the responder's turnaround; the median of 1,024. -/
def State.pong (s : State) (port turnPs roundPs : Nat) : State :=
  let t := s.mil.time
  let l := NMap.getD t.samples [] port ++ [(roundPs - turnPs) / 2]
  if l.length < 1024 then (s.setTime { t with samples := NMap.put t.samples [] port l }).emit (.timePkt port 0 [s.tick])
  else (s.setTime { t with samples := NMap.erase t.samples port, delay := NMap.insert t.delay port (median l) }).measured

/-- A SYNC from the parent (R459): the first one loads the tick (01_anatomy.md R37); later ones give phase estimates.
[DEDUCED, log entry 169] -/
def State.syncIn (s : State) (port rootTick period lead depth : Nat) (phasePs : Int) : State :=
  if 64 ≤ depth then s.setTimeState tmLOST
  else
    let t := s.mil.time
    let tick := rootTick + ((NMap.find? t.delay port).getD 0 + 5000) / 10000
    let n := if -2000 ≤ phasePs && phasePs ≤ 2000 then t.locks + 1 else 0
    let s0 := if s.fld pMGT PgMGT.TIME_STATUS_DEPTH = 0 then s.setTick tick else s
    let s1 := s0.setTime { t with period := period, lead := lead, locks := n, locked := t.locked || decide (100 ≤ n) }
    let s2 := (s1.setFld pMGT PgMGT.TIME_STATUS_PHASE_PS (unsgn 16 phasePs)).setFld pMGT PgMGT.TIME_STATUS_DEPTH (depth + 1)
    (s2.toChildren 2 [s2.tick, period, lead, depth + 1]).timeReport (!t.locked && 100 ≤ n)

/-- The root's SYNC every 100 µs, and START once every hub is LOCKED (R459).
[DEDUCED, log entry 149] -/
def State.syncOut (s : State) : State :=
  let t := { s.mil.time with locks := s.mil.time.locks + 1, locked := true }
  let s1 := (s.setTime t).toChildren 2 [s.tick, t.period, t.lead, 0]
  if s.timeState = tmLOCKING && t.epoch = none && 100 ≤ t.locks && s1.allLocked then
    (s1.setTime { t with epoch := some (s.tick + t.lead) }).toChildren 7 [s.tick + t.lead]
  else s1

/-- The epoch (R459 T3). -/
def State.epochAt (s : State) (e : Nat) : State :=
  let t := s.mil.time
  let s2 := s.setTime { t with epoch := none, go := [], hold := none, lastB := e, next := 1, base := e, culprit := 0x3FFFF }
  ((s2.setFld pGLB PgGLB.MS_NOW_COUNT 0).setTimeState tmRUNNING).timeReport true

/-! ### Table images (R465, R466) -/

def entOf (b : List Byte) (i : Nat) : SchedEnt :=
  let f (o n : Nat) : Nat := fieldAt b (32 + 32 * i + o) n
  { off := f 0 2, span := f 2 1, kind := f 3 1 % 16, bound := natBit (f 3 1) 4, strands := f 4 1, hint := f 6 2, bytes := f 8 4, peer := f 0x0C 4
    src := f 0x10 8, dst := f 0x18 6, flags := f 0x1E 1 }

/-- An entry keeps R466. -/
def entOk (b : List Byte) (cycle i : Nat) : Bool :=
  let f (o n : Nat) : Nat := fieldAt b (32 + 32 * i + o) n
  let e := entOf b i
  if e.kind = 0 then f 3 1 / 32 = 0
  else
    e.kind ≤ 4 && f 3 1 / 32 = 0 && 1 ≤ e.span && e.off + e.span ≤ cycle && e.strands < 16 && e.peer < 2 ^ 22 && e.flags < 4 && f 5 1 = 0 && f 0x1F 1 = 0
      && (e.kind = 1 || e.dst = 0) && ((e.kind ≠ 1 && e.kind ≠ 3) || e.strands ≠ 0)
      && (match e.kind with
          | 1 => e.bound || natBits e.src 62 48 = 0
          | 2 => natBits e.src 15 13 = 0 && e.src / 2 ^ 20 = 0 && natBits e.src 19 16 < 12
          | _ => !e.bound && natBits e.src 15 10 = 0 && e.src / 2 ^ 32 = 0)

/-- The verdict on a table image (R471): 0, or the RESULT code. -/
def State.imageCheck (s : State) (p : Nat) (b : List Byte) : Nat :=
  let f (o n : Nat) : Nat := fieldAt b o n
  let n := f 2 2
  if !Sys2Proof.Machine.checkOk (b.take 32) then 1
  else if f 0 1 ≠ 1 || f 1 1 ≠ p || 8192 < n || f 4 4 = 0 || 65536 < f 4 4 || f 8 4 ≠ s.node || f 0x0C 2 = 0 || f 0x0E 2 ≠ 0 || f 0x14 8 ≠ 0 then 2
  else if crc32 ((b.drop 32).take (32 * n)) ≠ f 0x10 4 then 1
  else if (List.range n).all (fun i => entOk b (f 4 4) i) then 0
  else 2

def tabOf (b : List Byte) : SchedTab := ⟨fieldAt b 0x0C 2, fieldAt b 4 4, (List.range (fieldAt b 2 2)).map (fun i => entOf b i)⟩

/-- The image LOAD reads (R465, R470): at LOAD_DESC in the windows of OWNER.PARTITION, a DPA where the page is device-wide.
[DESIGN CHOICE, log entry 6] -/
def State.schedImage (s : State) (p : Nat) (given : Option (List Byte)) : Option (List Byte) :=
  let q := pg cMIL p
  let a := s.fld q PgMIL.LOAD_DESC_DESC
  match s.readRegion (s.ownerPart q) a 32 given with
  | none => none
  | some h => s.readRegion (s.ownerPart q) a (32 + 32 * min 8192 (fieldAt h 2 2)) given

/-- A table load ends (R471). -/
def State.schedLoaded (s : State) (p : Nat) (given : Option (List Byte)) : State :=
  let q := pg cMIL p
  let image := s.schedImage p given
  let res := match image with | none => 3 | some b => s.imageCheck p b
  let tab := if res = 0 then image.map tabOf else none
  let s1 := s.setMil p { s.milPort p with staged := tab }
  let s2 := s1.setFld q PgMIL.STATUS_STAGED_ENTRIES (match tab with | some t => t.ents.length | none => 0)
  ((s2.setFld q PgMIL.LOAD_CMD_BUSY 0).setFld q PgMIL.LOAD_CMD_RESULT res).setInt q 0

/-! ### XFER tasks (R472) -/

/-- The table an XFER may bind to: the one that runs, else the staged one while ARMED; with its base. -/
def State.xferTable (s : State) (p : Nat) : Option (SchedTab × Nat × Bool) :=
  let x := s.milPort p
  if s.milState p = msRUNNING then x.active.map (fun t => (t, x.base, false))
  else if s.milState p = msARMED then x.staged.map (fun t => (t, s.fld (pg cMIL p) PgMIL.SCHED_CYCLE_BASE, true))
  else none

/-- An XFER binds to the earliest occurrence of its entry after the counter that no task holds (R472, R488), or ends with FABRIC_ERROR.
[DEDUCED, log entry 153] -/
def State.xferBind (s : State) (t : TaskSt) : State :=
  let p := (t.body.getD 0 0).toNat
  let i := leNat ((t.body.drop 2).take 2)
  let n := leNat ((t.body.drop 4).take 4)
  let s1 := s.dispatched t p
  match s.xferTable p with
  | none => s1.taskEnd t.id tsFABRIC_ERROR
  | some (tab, base, staged) =>
    match tab.ents[i]? with
    | none => s1.taskEnd t.id tsFABRIC_ERROR
    | some e =>
      if !e.bound || 2 < e.kind || e.kind = 0 || s.jobPart tab.job ≠ some t.part || e.bytes < n then s1.taskEnd t.id tsFABRIC_ERROR
      else
        let x := s1.milPort p
        let held := (x.bound.filter (fun b => b.ent = i && b.staged = staged)).map (fun b => b.occ)
        let occ := ((List.range (held.length + 1)).map (fun k => s.occAfter base tab.cycle e.off k)).find? (fun m => !held.contains m)
        (s1.setMil p { x with bound := x.bound ++ [⟨i, occ.getD 0, t.id, staged⟩] }).timeReport false

/-! ### COLL tasks (R480) -/

/-- A COLL starts (R478-R480): its ply is checked, its input is read.
[DEDUCED, log entry 157] -/
def State.collStart (s : State) (t : TaskSt) (srcPages dstPages : List Addr) : State :=
  let f (o n : Nat) : Nat := leNat ((t.body.drop o).take n)
  let k := f 0 2
  let op := f 2 1
  let dt := f 3 1
  let s1 := s.dispatched t 0
  match s.ply? k with
  | none => s1.taskEnd t.id tsPLY_INVALID
  | some y =>
    if y.part ≠ t.part || !s.isMember y s.node || !s.flag (pg cPRT y.part) PgPRT.JOB_VALID || s.fld (pg cPRT y.part) PgPRT.JOB_TAG ≠ y.job then
      s1.taskEnd t.id tsPLY_INVALID
    else if 4 < op || !dtypeOk op dt || (op = 4 && y.alg ≠ 1) then s1.taskEnd t.id tsFABRIC_ERROR
    else
      let c := s.ringCoord y s.node
      let cnt := f 0x18 8
      let steps := y.steps op cnt c
      let run : CollRun := { task := t.id, ply := k, op := op, dtype := dt, steps := steps, input := y.inputOf op cnt c, result := y.resultOf op cnt c
                             srcBase := f 8 8, srcPages := srcPages, dstBase := f 0x10 8, dstPages := dstPages }
      let s2 := ({ s1 with mil := { s1.mil with colls := s1.mil.colls ++ [run] } } : State).workStart pCOL
      match bytesParts run.srcBase (run.input.length * run.size) (fun i => s2.bufAddr y.part run.srcBase srcPages i) (fun _ _ => .read) with
      | none => s2.collEnd t.id (if run.srcBase / 2 ^ 62 = 0 then tsXLATE_REFUSED else tsACCESS)
      | some ps => ((s2.serveParts (.collIn t.id) 479 y.part (s2.collClass y.sched) 0 .plain 5 ps).timeReport false)

end Sys2Proof.Machine
end

