-- ==== Sys2Proof/Machine/RotOps.lean ====
section
/-! DEFINITION. The ROT: measurement registers and their log, the boot chain, activation of pending images, and what OTP says of the life
cycle (19_trust_and_tenancy.md R553-R558; 21_bring_up_and_reset.md R597, R598; 18_life_cycle.md R538-R540, R544). -/
namespace Sys2Proof.Machine

/-! ### Measurement (R555) -/

/-- A digest as its 48 bytes, the first byte first. -/
def digestBytes (d : BitVec 384) : List Byte := (List.range 48).map (fun i => d.extractLsb' (8 * (47 - i)) 8)

/-- A measurement register. -/
def State.mreg (s : State) (i : Nat) : BitVec 384 := NMap.getD s.rot.mr 0 i

/-- Log events (R555). -/
def mevBOOT : Nat := 0
def mevACTIVATE : Nat := 1
def mevCONFIG : Nat := 2

/-- Extends a measurement register and logs it (R555): MR ← SHA-384(MR ‖ d); a full log (1,024 entries) sets OVERFLOW. -/
def State.extend (s : State) (i event svn version : Nat) (d : BitVec 384) : State :=
  let r := s.rot
  let m := Config.sha384 (digestBytes (s.mreg i) ++ digestBytes d)
  let full := decide (1024 ≤ r.log.length)
  { s with rot := { r with
      mr := NMap.put r.mr 0 i m
      log := if full then r.log else r.log ++ [⟨i, event, r.logSeq, svn, version, d⟩]
      logSeq := r.logSeq + 1
      overflow := r.overflow || full } }

/-! ### OTP and the life cycle (R538-R540, R544) -/

/-- Life-cycle state codes (R535). -/
def lcBLANK : Nat := 0
def lcTEST : Nat := 1
def lcPROVISIONED : Nat := 2
def lcDEPLOYED : Nat := 3
def lcFIELD_DEBUG : Nat := 4
def lcRETURNED : Nat := 5
def lcSCRAPPED : Nat := 15

/-- Group g of the state word, and cell i of the excursion word, is programmed whole. -/
def groupSet (w g : Nat) : Bool := natBits w (8 * g + 7) (8 * g) = 0xFF
def cellSet (w i : Nat) : Bool := natBits w (2 * i + 1) (2 * i) = 3
/-- Only some of its bits read 1. -/
def groupPart (w g : Nat) : Bool := natBits w (8 * g + 7) (8 * g) ≠ 0 && !groupSet w g
def cellPart (w i : Nat) : Bool := natBits w (2 * i + 1) (2 * i) ≠ 0 && !cellSet w i

/-- The excursion count (R538): cells programmed from cell 0 up to the first that is not. -/
def excCount (w : Nat) : Nat := ((List.range 16).takeWhile (cellSet w)).length

/-- A slot is unused, valid or torn (R539). -/
def slotValid (v : Nat) : Bool := decide (v ≠ 0) && decide (natBits v 31 16 = 0xFFFF - natBits v 15 0)
/-- The value of an intent slot at acceptance (R539). -/
def slotWord (src target : Nat) (wipe : Bool) : Nat :=
  let lo := b2n wipe <<< 8 + target <<< 4 + src
  (0xFFFF - lo) <<< 16 + lo

/-- Slots valid or torn (R550 SLOTS_USED). -/
def LcSt.slotsUsed (l : LcSt) : Nat := ((List.range 32).filter (fun i => decide (NMap.getD l.slots 0 i ≠ 0))).length

/-- The highest group of 0 to 3 that is programmed with every lower group (R540 step 3). -/
def groupState (w : Nat) : Nat :=
  match ((List.range 4).takeWhile (groupSet w)).length with
  | 0 => lcBLANK | 1 => lcTEST | 2 => lcPROVISIONED | 3 => lcDEPLOYED | _ => lcRETURNED

/-- The state a state group leads to (R538). -/
def groupTarget (g : Nat) : Nat := if g = 7 then lcSCRAPPED else if g = 3 then lcRETURNED else g + 1

/-- OTP is decoded at every start (R540). -/
def LcSt.decoded (l : LcSt) : LcSt :=
  let wiped := ((List.range 32).filter (fun i =>
    let v := NMap.getD l.slots 0 i
    slotValid v && natBit v 63 && natBit v 8)).getLast?
  let l := { l with wipedSlot := wiped }
  let plain := groupState l.stateWord
  let st := if plain = lcDEPLOYED && excCount l.excWord % 2 = 1 then lcFIELD_DEBUG else plain
  let clean := { l with incomplete := false, intentFrom := 0, intentTarget := 0, intentWipe := false, intentWipeDone := false }
  if groupSet l.stateWord 7 then { clean with state := lcSCRAPPED }
  else
    let top := ((List.range 32).filter (fun i => slotValid (NMap.getD l.slots 0 i))).getLast?
    match top with
    | some i =>
      let v := NMap.getD l.slots 0 i
      if !natBit v 63 then
        { l with state := natBits v 3 0, incomplete := true, intentFrom := natBits v 3 0, intentTarget := natBits v 7 4
                 intentWipe := natBit v 8, intentWipeDone := natBit v 62 }
      else { clean with state := st } |> part st
    | none => { clean with state := st } |> part st
where
  /-- A partly programmed group or cell with no open slot (R540 step 4). -/
  part (st : Nat) (l : LcSt) : LcSt :=
    match (List.range 8).find? (groupPart l.stateWord) with
    | some g => { l with incomplete := true, intentFrom := st, intentTarget := groupTarget g }
    | none => match (List.range 16).find? (cellPart l.excWord) with
      | some i => { l with incomplete := true, intentFrom := st, intentTarget := if i % 2 = 0 then lcFIELD_DEBUG else lcDEPLOYED }
      | none => l

/-- LCS.STATUS follows OTP (R550): decoded at a start. -/
def State.lcDecode (s : State) : State :=
  let l := s.lc.decoded
  let s1 : State := { s with lc := l }
  if l.incomplete then s1.setInt pLCS 1 else s1

/-- A value of LCS.STATUS with its upper fields from the life cycle. -/
def State.lcsStatus (s : State) : Nat :=
  let l := s.lc
  let w := (s.word pLCS 0x100).toNat
  let base := natBits w 18 17 <<< 17 + natBits w 15 12 <<< 12
  base + l.slotsUsed <<< 34 + l.intentTarget <<< 26 + l.intentFrom <<< 22 + b2n l.intentWipe <<< 21 + b2n l.intentWipeDone <<< 20
    + b2n l.incomplete <<< 19 + excCount l.excWord <<< 4 + l.state

/-- The 24 bytes MR 9 measures: STATE_WORD, EXC_WORD and STATUS (R553). -/
def State.lcsBytes (s : State) : List Byte := natLe 8 s.lc.stateWord ++ natLe 8 s.lc.excWord ++ natLe 8 s.lcsStatus

/-- Job binding, unwrapped keys and SECURE ports are refused (R549): FIELD_DEBUG and RETURNED. -/
def State.lcDebug (s : State) : Bool := s.lc.state = lcFIELD_DEBUG || s.lc.state = lcRETURNED

/-! ### The boot chain (R553, R554, R556, R597, R598) -/

def State.setComp (s : State) (m : Nat) (c : CompSt) : State :=
  { s with rot := { s.rot with comps := NMap.put s.rot.comps {} m c } }

/-- The owner policy's minimum SVN of a component; none before an owner (R565). -/
def State.minSvn (s : State) (m : Nat) : Nat :=
  match s.rot.owner with
  | some o => o.policy.minSvn.getD (m - 2) 0
  | none => 0

/-- The ROT runs the image (R553): signatures, digest, SVN. -/
def State.imageOk (s : State) (m : Nat) (i : FwImage) : Bool := i.sigOk && i.digestOk && decide (s.minSvn m ≤ i.svn)

/-- The directory is rewritten into the other copy with SEQ + 1 (R597). -/
def State.dirWrite (s : State) : State :=
  { s with rot := { s.rot with dirCopy := 1 - s.rot.dirCopy, dirSeq := (s.rot.dirSeq + 1) % 2 ^ 32 } }

/-- A slot of a component: A or B; the slots hold state 0 EMPTY, 1 ACTIVE, 2 PENDING, 3 RETIRED (R597). -/
def CompSt.slot (c : CompSt) (b : Bool) : FlashSlot := if b then c.slotB else c.slotA
def CompSt.setSlot (c : CompSt) (b : Bool) (f : FlashSlot) : CompSt := if b then { c with slotB := f } else { c with slotA := f }
/-- The slot in a state, A first. -/
def CompSt.slotIn (c : CompSt) (st : Nat) : Option Bool :=
  if c.slotA.st = st then some false else if c.slotB.st = st then some true else none

/-- A component's pending image (R556). -/
def CompSt.pendingImage (c : CompSt) : Option FwImage := (c.slotIn 2).map (fun b => (c.slot b).image)

/-- The image of a component runs, and its digest is extended; a warm activation or reload of the digest last extended extends nothing
(R556). -/
def State.runImage (s : State) (m event : Nat) (i : FwImage) (warm : Bool) : State :=
  let c := s.comp m
  if warm && c.lastExt = i.digest then s.setComp m { c with running := i, down := false }
  else (s.setComp m { c with running := i, down := false, lastExt := i.digest }).extend m event i.svn i.version i.digest

/-- The pending image is verified again and becomes ACTIVE, or its slot becomes EMPTY (R556, R597). -/
def State.activate (s : State) (m : Nat) (i : FwImage) (warm : Bool) : State × Bool :=
  let c := s.comp m
  match c.slotIn 2 with
  | none => (s, false)
  | some b =>
    if s.imageOk m i then
      let o := c.slot (!b)
      let c1 := (c.setSlot b ⟨1, i⟩).setSlot (!b) (if o.st = 1 then { o with st := 3 } else o)
      (((s.setComp m c1).dirWrite).runImage m mevACTIVATE i warm, true)
    else ((s.setComp m (c.setSlot b { c.slot b with st := 0 })).dirWrite, false)

/-- A load falls back to the alternate copy (R598): logged with its own VERSION and SVN, MGT INT_STATUS and an FW_FALLBACK event. -/
def State.fallback (s : State) (m : Nat) (i : FwImage) (warm : Bool) : State :=
  let s1 := (s.runImage m mevBOOT i warm).setInt pMGT 0
  s1.report true (s1.ev .corrected evFW_FALLBACK 0 pROT 31 m 0)

/-- The ACTIVE image is loaded, else the alternate copy where it is RETIRED or ACTIVE and its SVN meets the policy (R554, R598). `main`
and `alt`: what the two slots hold as read. -/
def State.loadActive (s : State) (m : Nat) (main alt : FwImage) (warm : Bool) : State × Bool :=
  let c := s.comp m
  let b := (c.slotIn 1).getD false
  let o := c.slot (!b)
  if s.imageOk m main then (s.runImage m mevBOOT main warm, true)
  else if (o.st = 1 || o.st = 3) && s.imageOk m alt then (s.fallback m alt warm, true)
  else (s.setComp m { c with down := true }, false)

/-- A component starts: a pending image is tried first, then the active one, then the alternate (R554, R556). What flash holds is as the
event carries it, else as the model's slots hold it. -/
def State.startComp (s : State) (m : Nat) (im : Option BootImage) (warm : Bool) : State × Bool :=
  let c := s.comp m
  let a := (c.slotIn 1).getD false
  match c.slotIn 2 with
  | some b =>
    let p := match im with | some x => x.main | none => (c.slot b).image
    let q := match im with | some x => x.alt | none => (c.slot (!b)).image
    let r := s.activate m p warm
    if r.2 then r else r.1.loadActive m q p warm
  | none =>
    let p := match im with | some x => x.main | none => (c.slot a).image
    let q := match im with | some x => x.alt | none => (c.slot (!a)).image
    s.loadActive m p q warm

/-- The ROT halts (R554, R617, R535): FAULT_N with severity FATAL. -/
def State.rotHalt (s : State) (cause detail : Nat) : State :=
  let s1 : State := { s with rot := { s.rot with halted := true } }
  s1.report true (s1.ev .fatal cause 0 pROT 31 detail 0)

/-- Components in order, from the images a boot finds. -/
def State.startComps (s : State) (ms : List Nat) (images : List BootImage) (warm : Bool) : State :=
  ms.foldl (fun s m =>
    if s.rot.halted then s
    else
      let r := s.startComp m (images.find? (fun (x : BootImage) => x.mr = m)) warm
      if !r.2 && m ≤ 3 then r.1.rotHalt evFW_FALLBACK m else r.1) s

/-- The ROT starts from mask ROM (R553, R555): the registers are zero, MR 1 measures mask ROM, the state is decoded (R540). BLANK boots no
flash; SCRAPPED stops (R535).
[DEDUCED, log entry 71] -/
def State.rotStart (s : State) (images : List BootImage) : State :=
  let cs := s.rot.comps.map (fun e => (e.1, { e.2 with lastExt := 0, down := false }))
  let s1 : State := { s with rot := { s.rot with mr := [], log := [], logSeq := 0, overflow := false, halted := false, booted := true
                                                 comps := cs } }
  let s2 := s1.lcDecode.extend 1 mevBOOT 0 0 Config.maskRomDigest
  if s2.lc.state = lcSCRAPPED then { s2 with rot := { s2.rot with halted := true } }
  else if s2.lc.state = lcBLANK then s2
  else
    let s3 : State := { s2 with rot := { s2.rot with noKeys := decide (s2.lc.state = lcRETURNED) } }
    s3.startComps [2, 3, 4, 5, 6, 7] images false

/-- A warm start activates or reloads MR 4 to MR 7 (R556, R602). -/
def State.rotWarm (s : State) (images : List BootImage) : State := s.startComps [4, 5, 6, 7] images true

/-- The fields of an owner policy (R565). -/
def policyFields (p : OwnerPolicy) : List Nat := p.minSvn ++ [b2n p.allowDoe, b2n p.allowFabric, b2n p.ideRequired]

/-- MR 8, MR 9 and, with an owner, MR 11 are measured at boot (R553, R599 C2).
[DEDUCED, log entry 59] -/
def State.measureBoot (s : State) (fuses : List Nat) : State :=
  let s1 := (s.extend 8 mevBOOT 0 0 (Config.fuseDigest fuses)).extend 9 mevBOOT 0 0 (Config.sha384 s.lcsBytes)
  match s1.rot.owner with
  | some o => s1.extend 11 mevBOOT 0 0 (Config.policyDigest (policyFields o.policy))
  | none => s1

end Sys2Proof.Machine
end

