-- ==== Sys2Proof/Machine/Skein.lean ====
section
/-! DEFINITION. The Skein's commands: accesses at a home, atomics, the sector path, gather engines, wipe and bank test
(07_skein_memory.md). -/
namespace Sys2Proof.Machine
open Host

/-! ### Faults of a slice's arrays (09_memory_integrity.md R268, R269) -/

/-- The word an access uses in its slice's banks: slice, way, word, and its cached line's tag where it is one. -/
def State.bankOf (s : State) (a : Access) (wr : Bool) : Option (Nat × Nat × Nat × Option LineTag) :=
  match s.locate a wr with
  | .scratch n w word => some (n, w, word, none)
  | .home n line _ _ _ => (s.findLine n line).map (fun w => (n, w, homeSet line, some (s.tag n w (homeSet line))))
  | _ => none

/-- SOURCE of an access in the error log (R275): demand read, partial-write merge, atomic. -/
def opSource : AccOp → Nat
  | .read => 0 | .atomic .. => 4 | _ => 3

/-- What a bank read meets (R268, R269): corrected and transient errors are counted and logged; a lasting one refetches a clean
line, and otherwise poisons the sector and removes the slice. -/
def State.bankErr (s : State) (a : Access) (op : AccOp) (e : SramErr) : State :=
  match s.bankOf a (opWrites op) with
  | none => s
  | some (n, w, word, tag) =>
    let p := pg cSKN n
    let part := s.wayOwner n w
    let src := opSource op
    match e with
    | .good => s
    | .corrected u b => s.arrayErr p 1 part src (locBank n w word u) ceCORRECTED (b / 4)
    | .transient u => s.arrayErr p 1 part src (locBank n w word u) ceTRANSIENT 31
    | .lasting u =>
      match tag with
      | some t =>
        if t.dirty = 0 then (s.arrayErr p 1 part src (locBank n w word u) ceCORRECTED 31).setTag n w word {}
        else ((s.poisonSkein n w word u part src).faultUnit (.slice n) scMEMORY)
      | none =>
        let l := s.bankLine n w word
        ((s.setBankLine n w word l.1 (withBit l.2 (u / 4))).poisonSkein n w word u part src).faultUnit (.slice n) scMEMORY

/-- What the tags, sector state or way map of a slice meet (R268): logged in class 2 under structure 1; a lasting error removes the slice. -/
def State.tagErr (s : State) (a : Access) (op : AccOp) (e : SramErr) : State :=
  match s.bankOf a (opWrites op) with
  | none => s
  | some (n, w, word, _) =>
    let p := pg cSKN n
    let loc := 1 <<< 24 + tagKey n w (word % 256)
    match e with
    | .good => s
    | .corrected _ b => s.arrayErr p 2 31 (opSource op) loc ceCORRECTED (b / 4)
    | .transient _ => s.arrayErr p 2 31 (opSource op) loc ceTRANSIENT 31
    | .lasting _ => ((s.count p PgHDR.ERR_COUNT_LASTING 1).ceLog 2 cePOISONED 31 31 (opSource op) loc).2.faultUnit (.slice n) scMEMORY

/-- A snoop-filter way is marked LOST; at 64 the slice is FAULTED (12_coherence.md R373). -/
def State.loseFilterWay (s : State) (n line w : Nat) : State :=
  let k := filterKey n (filterSet line) w
  let m := s.mem
  let l : List Nat := if m.lost.contains k then m.lost else m.lost ++ [k]
  let s1 : State := { s with mem := { m with filter := NMap.put m.filter none k none, lost := l } }
  let r := s1.ceLog 2 cePOISONED 31 31 5 (2 <<< 24 + k)
  let s2 := (r.2.report r.1 (r.2.ev .corrected evECC 0 (pg cCOH n) 31 0 0)).setInt (pg cCOH n) 0
  let lost := (s2.mem.lost.filter (fun x => x / 32768 = n)).length
  if 64 ≤ lost then s2.faultUnit (.slice n) scMEMORY else s2

/-- A snoop-filter entry fails its code (12_coherence.md R373): after a failed retry its way is LOST; 64 LOST ways remove the
slice. -/
def State.filterErr (s : State) (a : Access) (op : AccOp) (e : SramErr) : State :=
  match s.locate a (opWrites op) with
  | .home n line _ _ _ =>
    let p := pg cCOH n
    let loc (u : Nat) := 2 <<< 24 + filterKey n (filterSet line) (u % 8)
    (match e with
     | .good => s
     | .corrected u b => s.arrayErr p 2 31 5 (loc u) ceCORRECTED (b / 4)
     | .transient u => s.arrayErr p 2 31 5 (loc u) ceTRANSIENT 31
     | .lasting u => s.loseFilterWay n line (u % 8))
  | _ => s

/-- The granule map or the tier table, which a DPA is looked up in, fails its code (R268): corrected and transient errors are counted in the
partition's TIR page and logged in class 2 under structure 6; a lasting one is a FATAL fault of the device. -/
def State.mapErr (s : State) (a : Access) (e : SramErr) : State :=
  match a.addr with
  | .dpa x =>
    let p := pg cTIR a.part
    let loc := 6 <<< 24 + x / 0x200000 % 2 ^ 24
    (match e with
     | .good => s
     | .corrected _ b => s.arrayErr p 2 a.part 5 loc ceCORRECTED (b / 4)
     | .transient _ => s.arrayErr p 2 a.part 5 loc ceTRANSIENT 31
     | .lasting _ => s.storeFatal p a.part loc)
  | _ => s

/-- What an access meets in the arrays it uses on its way through its home (R268, R269, 12_coherence.md R373). -/
def State.sliceErr (s : State) (a : Access) (op : AccOp) (e : SliceErr) : State :=
  ((((s.mapErr a e.map).bankErr a op e.bank).tagErr a op e.tags).filterErr a op e.filter)

/-- An access covers bytes of one line. -/
def accWf (a : Access) : Bool := decide (0 < a.len) && decide (addrOff a.addr + a.len ≤ 64)

/-- An access passes its line's ordering point and is served (R205); what its slice's arrays met comes first.
[DEDUCED, log entry 7] -/
def execHomeAccess (a : Access) (op : AccOp) (err : SliceErr) (s : State) : Outcome State Fault Refusal :=
  if !accWf a then .next s
  else
    .next ((s.sliceErr a op err).serve { acc := a, op := op }).kick

/-- A fill has returned: the line is allocated where its partition has ways, and the request is served (R202). -/
def State.missFill (s : State) (t : Txn) : State :=
  if t.phase ≠ .fill || t.gotMask &&& t.need ≠ t.need then s
  else
    match t.req with
    | none => s
    | some r =>
      let cached := match s.findLine t.slice t.line with | some w => (s.tag t.slice w (homeSet t.line)).valid | none => 0
      let l := s.peekLine t.slice t.line
      let bytes := keepSectors l.1 t.got (!natBit cached 0 && natBit t.gotMask 0) (!natBit cached 1 && natBit t.gotMask 1)
      let pois := (l.2 &&& (3 - t.gotMask % 4)) ||| (l.2 &&& cached) ||| (t.gotPois &&& (3 - cached % 4))
      let s1 :=
        if r.coh = CohKind.plain || r.coh = CohKind.rdCur then s.finish t r bytes pois t.alloc
        else
          let s0 := if t.alloc && s.findLine t.slice t.line = none then
            s.allocLine t.slice t.line t.part t.gotMask 0 bytes pois (isStream r.acc) t.hst
            else match s.findLine t.slice t.line with
              | some w =>
                let g := s.tag t.slice w (homeSet t.line)
                if isT3 t.line then s.setTag t.slice w (homeSet t.line) { g with hst := max g.hst t.hst } else s
              | none => s
          s0.grantTo t r (bytes, pois)
      s1.settle t.slice

def execSkeinMissFill (txn : Nat) (s : State) : Outcome State Fault Refusal :=
  match s.txn? txn with
  | some t => .next (s.missFill t).kick
  | none => .next s

/-- An atomic arrives at its home (R206-R210). -/
def State.atomicAt (s : State) (a : Access) (op ty : Nat) (fetch : Bool) (operand : List Byte) (err : SliceErr) : State :=
  let a1 := { a with len := max 1 (atomLen op operand) }
  (s.sliceErr a1 (.atomic op ty fetch operand) err).serve { acc := a1, op := .atomic op ty fetch operand }

def execAtomicAdd (a : Access) (ty : Nat) (fetch : Bool) (operand : List Byte) (err : SliceErr) (s : State) : Outcome State Fault Refusal :=
  .next (s.atomicAt a 0 ty fetch operand err).kick
def execAtomicFadd (a : Access) (ty : Nat) (fetch : Bool) (operand : List Byte) (err : SliceErr) (s : State) : Outcome State Fault Refusal :=
  .next (s.atomicAt a 1 ty fetch operand err).kick
def execAtomicMin (a : Access) (ty : Nat) (fetch : Bool) (operand : List Byte) (err : SliceErr) (s : State) : Outcome State Fault Refusal :=
  .next (s.atomicAt a 2 ty fetch operand err).kick
def execAtomicMax (a : Access) (ty : Nat) (fetch : Bool) (operand : List Byte) (err : SliceErr) (s : State) : Outcome State Fault Refusal :=
  .next (s.atomicAt a 3 ty fetch operand err).kick
def execAtomicSwap (a : Access) (ty : Nat) (fetch : Bool) (operand : List Byte) (err : SliceErr) (s : State) : Outcome State Fault Refusal :=
  .next (s.atomicAt a 4 ty fetch operand err).kick
def execAtomicCas (a : Access) (ty : Nat) (fetch : Bool) (operand : List Byte) (err : SliceErr) (s : State) : Outcome State Fault Refusal :=
  .next (s.atomicAt a 5 ty fetch operand err).kick
def execAtomicXadd (a : Access) (ty : Nat) (fetch : Bool) (operand : List Byte) (err : SliceErr) (s : State) : Outcome State Fault Refusal :=
  .next (s.atomicAt a 6 ty fetch operand err).kick

/-! ### The sector path (R213, R214) -/

/-- The part of an access in the first sector it touches, and the rest, if it crosses a sector boundary (R214). -/
def splitSector (a : Access) : Access × Option Access :=
  let o := addrOff a.addr
  let k := 32 - o % 32
  if a.len ≤ k then (a, none)
  else
    let up : Addr := match a.addr with | .t0 x => .t0 (x + k) | .dpa x => .dpa (x + k) | .hpa x => .hpa (x + k) | .hva q x => .hva q (x + k)
    ({ a with len := k }, some { a with addr := up, len := a.len - k })

/-- A sector request, or the two it splits into, at its home. -/
def State.sectorAt (s : State) (a : Access) (op : Access → AccOp) (op2 : Access → AccOp) (err : SliceErr) : State :=
  let x := splitSector a
  let s1 := (s.sliceErr x.1 (op x.1) err).serve { acc := x.1, op := op x.1, sector := true }
  match x.2 with
  | some b => s1.serve { acc := b, op := op2 b, sector := true }
  | none => s1

def execSectorRead (a : Access) (err : SliceErr) (s : State) : Outcome State Fault Refusal :=
  if !accWf a || 32 < a.len then .next s else .next (s.sectorAt a (fun _ => .read) (fun _ => .read) err).kick

def execSectorWrite (a : Access) (data : List Byte) (poison : Nat) (err : SliceErr) (s : State) : Outcome State Fault Refusal :=
  if !accWf a || 32 < a.len then .next s
  else .next (s.sectorAt a (fun x => .write (data.take x.len) poison) (fun y => .write (data.drop (a.len - y.len)) poison) err).kick

/-! ### Gather engines (R215-R218) -/

def execGatherEnable (r : Requester) (n slot data : Nat) (s : State) : Outcome State Fault Refusal :=
  if 4 ≤ slot then .next s
  else .next (s.gateBlk r cSKN n (0x1B8 + 8 * slot) (fun _ s => (s.gatherWrite n slot (natSetBits data 62 62 1)).kick))

/-- A gather descriptor load ends: what it read decides the slot (R217). -/
def execGatherDescLoaded (n slot : Nat) (s : State) : Outcome State Fault Refusal :=
  if 4 ≤ slot then .next s else .next (s.gatherLoaded n slot).kick

/-- An access of a gather window reaches its slice (R215). -/
def execGatherWindowRead (a : Access) (s : State) : Outcome State Fault Refusal :=
  if a.len = 0 || 256 < a.len then .next s else .next (s.serve { acc := a, op := .read }).kick

/-- A gathered row or index line arrives at the engine (R218). -/
def execGatherRowReturn (n slot : Nat) (s : State) : Outcome State Fault Refusal :=
  if 4 ≤ slot then .next s else .next (s.gatherArrive n slot).kick

/-! ### Wipe and bank test (R225, R228) -/

/-- A wipe ends: WIPE_BUSY clears, WIPE_DONE is set, held accesses are served on zeroed memory. -/
def State.wipeDone (s : State) (n : Nat) : State :=
  ((s.setFld (pg cSKN n) PgSKN.STATUS_WIPE_BUSY 0).setInt (pg cSKN n) 0).releaseHeld n

def execWipeDone (n : Nat) (s : State) : Outcome State Fault Refusal :=
  if s.flag (pg cSKN n) PgSKN.STATUS_WIPE_BUSY then .next (s.wipeDone n) else .next s

/-- A bank self-test ends (R228, R653, R654): BANK_FAIL and TEST_DONE; a failed bank removes the slice, a pass returns a FAULTED one. -/
def State.bankTestDone (s : State) (n bad : Nat) : State :=
  let p := pg cSKN n
  let s1 := (((s.setFld p PgSKN.STATUS_TEST_BUSY 0).setFld p PgSKN.STATUS_BANK_FAIL bad).setInt p 1).setBankOk n
    ((2 ^ 16 - 1) ^^^ (bad % 2 ^ 16))
  if bad % 2 ^ 16 ≠ 0 then
    { s1 with plan := { s1.plan with retOk := s1.plan.retOk.filter (· ≠ n) } }.faultUnit (.slice n) scMEMORY
  else if (s1.unit (.slice n)).live = .faulted then
    ((s1.setFld p PgHDR.PAGE_CTRL_FENCE 0).returnUnit (.slice n)).backPages [.slice n]
  else s1

def execSliceBankTestDone (n bad : Nat) (s : State) : Outcome State Fault Refusal :=
  if !s.flag (pg cSKN n) PgSKN.STATUS_TEST_BUSY then .next s
  else
    let s1 := s.bankTestDone n bad
    if s1.saf.tst = some ⟨1, n⟩ then
      .next (s1.testOver (b2n (decide (bad % 2 ^ 16 ≠ 0))) (bad % 2 ^ 16))
    else .next s1

end Sys2Proof.Machine
end

