-- ==== Sys2Proof/Machine/Reset.lean ====
section
/-! DEFINITION. Resets and starts: pages and blocks, deliveries to hanks, partitions, the device, and the stages of a cold or warm start
(02_register_pages.md R60, R62, R64; 16_host_endpoint.md R514-R517; 21_bring_up_and_reset.md R593-R608). -/
namespace Sys2Proof.Machine

/-! ### Domains of pages (02_register_pages.md R44) -/

def State.domSt (s : State) (d : Nat) : DomSt := NMap.getD s.dom {} d
def State.setDom (s : State) (d : Nat) (x : DomSt) : State := { s with dom := NMap.put s.dom {} d x }
/-- The domain of a unit that is fused or not populated: it stays Off (00_scope.md R10; 03_floor_plan.md R96). -/
def State.domAbsent (s : State) (d : Nat) : Bool :=
  decide (d < 820) && (match pageUnit (pg cPWR d) with | some u => s.absent u | none => false)
/-- The domain is On (20_power_domains.md R573). -/
def State.domOn (s : State) (d : Nat) : Bool := (s.domSt d).st = 0
/-- The page's domain is On; a PWR page lies in the wake island, always on (R589). -/
def State.pageOn (s : State) (p : Nat) : Bool :=
  if pgCls p = cPWR then true else match pageDom p with | some d => s.domOn d | none => true

/-- Units of a block still in flight, where the model holds them. -/
def State.pageWork (s : State) (p : Nat) : Bool :=
  let i := pgInst p
  if pgCls p = cHNK then s.hankBusy i
  else if pgCls p = cSKN then decide (0 < s.openTxns i) || s.gatherBusy i
  else if pgCls p = cCOH then decide (0 < s.openTxns i)
  else if pgCls p = cSIT then s.siteBusy i
  else if pgCls p = cFAB then (List.range 4).any (fun k => (s.strand (4 * i + k)).unacked ≠ [])
  else if pgCls p = cMIL then s.milState i = msRUNNING
  else if pgCls p = cETH then (s.ethPort i).buf ≠ []
  else false

/-- A page takes work again: what waited at a slice goes on (07_skein_memory.md R224), and what was queued on an attachment's strands
(14_fabric_links.md R453). -/
def State.pageFree (s : State) (p : Nat) : State :=
  let i := pgInst p
  if pgCls p = cSKN && !s.sliceHolds i then s.releaseHeld i
  else if pgCls p = cFAB && s.accepts p then (List.range 4).foldl (fun s k => s.pumpStrand (4 * i + k)) s
  else s

/-! ### The reset of a page (R60) -/

/-- Registers a block reset keeps: PAGE_ERR, INT_STATUS, INT_ENABLE, ERR_COUNT and OWNER; on a FAB page the registers shared over the pages,
and what tells of the strands and the engine, which go on (14_fabric_links.md R452); on a PRT page every block register
(19_trust_and_tenancy.md R570).
[DEDUCED, log entries 65, 66] -/
def keptReg (p off : Nat) : Bool :=
  if off < 0x100 then !(off = 0x10 || off = 0x18 || off = 0x20)
  else pgCls p = cPRT || pgCls p = cFAB && ((0x108 ≤ off && off ≤ 0x120) || (0x130 ≤ off && off ≤ 0x150) || off = 0x190)

/-- A page's reset starts (R60, R64): registers, shadow copies, locks and PAGE_CTRL return to their reset values; STATE reads RESET.
[DEDUCED, log entry 65] -/
def State.pageReset (s : State) (p : Nat) : State :=
  let s1 : State := { s with
    regs := s.regs.filter (fun e => e.1 / 512 ≠ p || keptReg p (e.1 % 512 * 8))
    active := s.active.filter (fun e => e.1 / 512 ≠ p)
    locks := s.locks.filter (fun l => l / 64 / 512 ≠ p) }
  let d := NMap.getD s.dmm {} p
  ({ s1 with dmm := NMap.put s1.dmm {} p { taps := d.taps } } : State).setFld p PgHDR.RST_CTRL_BLOCK_RST 1

/-- Pages a partition owns (R62): those whose OWNER.PARTITION is p. -/
def State.ownedPages (s : State) (p : Nat) : List Nat :=
  s.regs.filterMap (fun e => if e.1 % 512 = 13 && natBits e.2.toNat 12 8 = p then some (e.1 / 512) else none)

/-! ### Deliveries to hanks (R603-R606) -/

def State.delivery (s : State) (n : Nat) : Option DelivSt := NMap.find? s.deliv n
def State.setDelivery (s : State) (n : Nat) (d : Option DelivSt) : State :=
  { s with deliv := match d with | some x => NMap.insert s.deliv n x | none => NMap.erase s.deliv n }

/-- Chunks of the active hank image (R603): 4 KiB each, at most 64. -/
def State.imageChunks (s : State) : Nat := if (s.comp 5).down then 64 else min 64 (((s.comp 5).running.length + 4095) / 4096)
/-- The bitmap of a whole image. -/
def State.wholeImage (s : State) : Nat := 2 ^ s.imageChunks - 1

/-- GLB.DELIVERY as the deliveries stand (R609): STATE 3 while one tests, 2 while one repairs, else 1 while one runs. -/
def State.deliveryReg (s : State) : Nat :=
  let ds := s.deliv.map Prod.snd
  let st := if ds = [] then 0
    else if ds.any (fun d => decide (d.chunks = s.wholeImage)) then 3
    else if ds.any (fun d => decide (0 < d.round)) then 2 else 1
  let round := (ds.map (fun d => d.round)).foldl max 0
  st <<< 62 + (min 3 round) <<< 60 + (min 511 ds.length) <<< 32 + s.fld pGLB PgGLB.DELIVERY_FAILED

/-- A hank reset starts, HNK and BOB (R119, R607): what it held is lost to it (R122), and a delivery begins. -/
def State.hankReset (s : State) (n : Nat) (d : DelivSt) : State :=
  let s1 := (((s.hankGone n).setHank n {}).pageReset (pg cHNK n)).pageReset (pg cBOB n)
  s1.setDelivery n (some d)

/-- Spindles that SP_FENCE had fenced (R124): the reset cleared their bits. -/
def State.fencedSp (s : State) (n : Nat) : List Nat := (List.range 64).filter (fun j => decide ((s.unit (.spindle n j)).live = .fenced))

/-- The sub-cause of a hank that fails its self-test (R605, R80), by the part that failed. -/
def hankSub (t : HankTest) (good : Nat) : Nat :=
  if !t.ctlOk then scCONTROLLER else if !t.bobOk then scBOBBIN else if !t.checkOk then scCHECK
  else if popCount 64 good < 48 then scSPINDLE_COUNT else scNONE

/-- The pages of a hank leave RESET. -/
def State.hankLeaves (s : State) (n : Nat) : State := (s.pageResetDone (pg cHNK n)).pageResetDone (pg cBOB n)

/-- A test of a start or a service ends for the hank: its delivery is over. -/
def State.hankSettled (s : State) (n : Nat) : State :=
  let s1 := (s.setDelivery n none)
  { s1 with boot := { s1.boot with hankPend := s1.boot.hankPend.filter (fun m => m ≠ n) } }

/-- A hank is removed by its delivery or its test (R605): at a start with cause STARTUP_FAIL, else FAULTED. -/
def State.hankFails (s : State) (n : Nat) (atStart : Bool) (sub : Nat) : State :=
  let s1 := s.hankSettled n
  let s2 := if atStart then
      (if s1.live (.hank n) then s1.bootRemove (.hank n) .startupFail sub else s1.setUnit (.hank n) ⟨.startupFail, .startupFail, sub⟩)
    else if s1.live (.hank n) || (s1.unit (.hank n)).live ≠ .faulted then s1.faultUnit (.hank n) sub else s1
  let s3 := s2.hankLeaves n
  s3.setFld (pg cHNK n) PgHDR.PAGE_CTRL_FENCE 1

/-- The bitmap a self-test leaves (R654): the spindles that passed, but for those an earlier stage removed (R77). -/
def State.testedGood (s : State) (n good : Nat) : Nat :=
  (List.range 64).foldl (fun m j =>
    match (s.unit (.spindle n j)).boot with
    | .assemblyFail => m
    | .fused => m
    | _ => if natBit good j then m + 2 ^ j else m) 0

/-- A hank's full self-test ends (R604, R605, R654).
[DEDUCED, log entry 125] -/
def State.hankTested (s : State) (n : Nat) (d : DelivSt) (t : HankTest) : State :=
  let good := s.testedGood n t.good
  let sub := hankSub t good
  let old := s.spindles n
  let s1 := (s.setSpindles n good).setCheckOk n t.checkOk
  let lost := (List.range 64).filter (fun j => natBit old j && !natBit good j)
  let s2 := (List.range 64).foldl (fun s j =>
    let u := UnitId.spindle n j
    let r := s.unit u
    if natBit good j then s.setUnit u { r with live := .good, sub := scNONE, boot := if d.atStart then .good else r.boot }
    else if r.boot = .assemblyFail then s
    else if d.atStart then s.setUnit u ⟨.startupFail, .startupFail, scSPINDLE⟩
    else if lost.contains j || r.live = .fenced then s.setUnit u { r with live := .faulted, sub := scSPINDLE } else s) s1
  let s3 := if d.inTest then s2.testOver (if sub = scNONE then 0 else 1) sub else s2
  if sub ≠ scNONE then s3.hankFails n d.atStart sub
  else
    let s4 := s3.hankSettled n
    let c := s4.hankCause n
    let r := s4.unit (.hank n)
    let s5 :=
      if d.atStart then s4.setUnit (.hank n) { r with live := if r.live = .dependent then r.live else c, sub := scNONE }
      else if r.live = .dependent || r.live = .fenced then s4
      else if r.live = c && old = good then s4
      else s4.planChange ((UnitId.hank n, if s4.needsMet (.hank n) then c else .dependent, scNONE) ::
        ((List.range 64).filter (fun j => natBit old j ≠ natBit good j)).map (fun j =>
          (UnitId.spindle n j, (if natBit good j then Cause.good else Cause.faulted), if natBit good j then scNONE else scSPINDLE)))
    s5.hankLeaves n

/-- A hank's known-answer pattern ends (R604 step 5): fenced spindles return with a pass; a FAULTED hank stays so (R654). -/
def State.hankKnown (s : State) (n : Nat) (t : HankTest) : State :=
  let sub := hankSub t (2 ^ 64 - 1)
  if sub ≠ scNONE then s.hankFails n false sub
  else
    let back := s.fencedSp n
    let s := if s.saf.ctlRetry.contains n then
        ({ s with saf := { s.saf with ctlRetry := s.saf.ctlRetry.filter (· ≠ n) } } : State).transient (pg cHNK n) scCONTROLLER 0
      else s
    let s1 := back.foldl (fun s j => s.setSpindles n (natSetBits (s.spindles n) j j 1)) (s.hankSettled n)
    let s2 := if back = [] then s1 else s1.planChange (back.map (fun j => (UnitId.spindle n j, Cause.good, scNONE)) ++
      (if s1.live (.hank n) then [(UnitId.hank n, s1.hankCause n, scNONE)] else []))
    s2.hankLeaves n

/-! ### Block resets (R60, R607; R116, R225, R416, R452) -/

/-- A site's reset starts (13_chiplet_sites.md R416): SITE_RESET is sent, its protocol state is void, its tasks end. -/
def State.siteReset (s : State) (x code : Nat) : State :=
  let p := pg cSIT x
  let s1 := (((s.siteTasksEnd x code).siteVoid x).agentGone x).pageReset p
  (s1.setSite x { s1.siteSt x with resetting := true, dropped := false }).sendStatus x 3

/-- A slice's page is reset: the slice is wiped (R225); what the sector holds beyond it is lost. -/
def State.sliceReset (s : State) (n : Nat) : State := (s.pageReset (pg cSKN n)).wipeStart n

/-- Every strand of an attachment retrains with trained parameters (R452). -/
def State.attReset (s : State) (a : Nat) : State :=
  (List.range 4).foldl (fun s k =>
    let g := 4 * a + k
    let st := s.strandState g
    if st = ssUP || st = ssFAULTED || st = ssPEER_RESET || st = ssMODE_MISMATCH || st = ssMISCABLED || st = ssTEST then s.strandRetrain g false
    else s) (s.pageReset (pg cFAB a))

/-- What BLOCK_RST starts on a page that has it.
[DEDUCED, log entry 64] -/
def State.blockReset (s : State) (p : Nat) : State :=
  let i := pgInst p
  if pgCls p = cHNK then s.hankReset i { full := false }
  else if pgCls p = cSKN then s.sliceReset i
  else if pgCls p = cSIT then s.siteReset i tsSITE_ERROR
  else if pgCls p = cFAB then s.attReset i
  else if pgCls p = cETH then ((s.ethLink i false).setEthPort i {}).pageReset p
  else s.pageReset p

/-- A block reset other than a hank's or a site's ends: the page leaves RESET; a slice's wipe has ended with it. -/
def State.blockResetDone (s : State) (p : Nat) : State :=
  let s1 := s.pageResetDone p
  if pgCls p = cSKN then s1.wipeDone (pgInst p) else s1

/-! ### Partition reset (R608) -/

/-- Queues of a partition that exist. -/
def State.queuesOf (s : State) (p : Nat) : List Nat :=
  s.dsp.queues.filterMap (fun e => if e.2.part = p && decide (e.2.st ≠ .absent) then some e.1 else none)

/-- A partition reset starts (T0, T1): its queues end, its tollgate traffic is discarded, its sites start their reset. -/
def State.partResetStart (s : State) (p : Nat) : State :=
  let k := pg cPRT p
  if s.flag k PgPRT.CTRL_RESET then s
  else
    let s1 : State := { s with boot := { s.boot with partReset := s.boot.partReset ++ [p] } }
    let s2 := (s1.queuesOf p).foldl State.queueEnd (s1.setFld k PgPRT.CTRL_RESET 1)
    ((List.range 4).filter (fun x => s2.ownerPart (pg cSIT x) = p && !s2.pageAbsent (pg cSIT x) && s2.domOn (800 + x))).foldl (fun s x =>
      s.siteReset x tsCANCELLED) (s2.tolPartReset p)

/-- Transactions of a partition, or of every one, that are outstanding when the drain limit passes get their error (R607). -/
def State.drainLimit (s : State) (part : Option Nat) : State :=
  let mine (o : TolOut) : Bool := match part, o.task with
    | none, _ => true
    | some p, some t => (s.queue t.queue).part = p
    | some _, none => false
  (s.mesh.outs.filter mine).foldl (fun s o => s.timeoutTxn o) s

/-- The homes let go of a partition (R226, R378): its entries are recalled and their data discarded, its lines discarded, its scratchpad
ways zeroed, its aperture and gather slots disabled; what is held at them, atomics not yet carried out (R230) and requests of agents
(12_coherence.md R381) end in error. -/
def State.homesDrop (s : State) (p : Nat) : State :=
  let atom (r : HomeReq) : Bool := decide (r.acc.part = p) &&
    (r.coh = .rdShared || r.coh = .rdOwn || r.coh = .upgrade || (match r.op with | .atomic .. => true | _ => false))
  let open_ (t : Txn) : Bool := match t.req with
    | some r => atom r && (match t.phase with | .snoop => true | .fill => true | .victim _ => true | _ => false)
    | none => false
  let gone := (s.mem.held.filter (fun h => h.2.acc.part = p)).map Prod.snd ++ (s.mem.waitQ.filter (fun q => atom q.2.2.2.2)).map (fun q => q.2.2.2.2) ++
    (s.mem.txns.filter open_).filterMap Txn.req
  let s1 : State := { s with mem := { s.mem with
    held := s.mem.held.filter (fun h => h.2.acc.part ≠ p), waitQ := s.mem.waitQ.filter (fun q => !atom q.2.2.2.2)
    txns := s.mem.txns.filter (fun t => !open_ t) } }
  let s2 := gone.foldl (fun s r =>
    if r.coh = CohKind.plain || r.coh = CohKind.rdCur then s.respond r.acc tsCANCELLED [] 0 else s.cohFail r tsCANCELLED) s1
  (List.range 400).foldl (fun s n =>
    let q := pg cSKN n
    let s := s.recall n true (fun f => f.part = p)
    let s := s.dropLines n false (fun _ t => t.part = p)
    let s := (s.waysOf n 2 p).foldl (fun s w => s.zeroWay n w) s
    let s := if s.flag q (PgSKN.APERTURE_ENABLE p) then s.setFld q (PgSKN.APERTURE_ENABLE p) 0 else s
    (List.range 4).foldl (fun s g =>
      if s.flag q (PgSKN.GATHER_ENABLE g) && s.fld q (PgSKN.GATHER_PART g) = p then
        (s.setFld q (PgSKN.GATHER_ENABLE g) 0).setGather n g { s.gatherSt n g with faulted := false, desc := none }
      else s) (s.gatherDrop n (fun k => k = p) tsCANCELLED)) s2

/-- Tasks of a partition end CANCELLED, and its queues are gone (R163). -/
def State.partTasksEnd (s : State) (p : Nat) : State :=
  let mine := s.dsp.tasks.filter (fun t => t.part = p)
  let s1 := mine.foldl (fun s t => s.taskEnd t.id tsCANCELLED) s
  let s2 := (List.range 4).foldl (fun s x =>
    let st := s.siteSt x
    s.setSite x { st with tasks := st.tasks.map (fun (t : SiteTask) => if t.part = p then { t with late := true } else t) }) s1
  (s2.queuesOf p).foldl State.queueGone s2

/-- One page of a partition is reset with it (R62); tiered ranges stay enabled (08_memory_tiers.md R256).
[DEDUCED, log entry 227] -/
def State.partPage (s : State) (q : Nat) : State :=
  let i := pgInst q
  let c := pgCls q
  if !s.pageOn q || s.pageAbsent q || c = cSIT then s
  else if c = cBOB then
    let h := pg cHNK i
    if s.pageState h = stRESET then s else ((s.pageReset q).pageResetDone q).setFld q PgHDR.PAGE_STATE_STATE (s.pageState h)
  else if c = cHNK then
    (match s.delivery i with
     | some d => if d.inTest then s else s.hankReset i {}
     | none => s.hankReset i {})
  else if c = cTIR then
    (List.range 16).foldl (fun t k =>
      let o := 0x120 + 0x20 * (k / 2) + 8 * (k % 2)
      (t.setWord q o (s.word q o)).setActWord q o (s.actWord q o)) ((s.pageReset q).pageResetDone q)
  else if c = cSKN then (s.sliceReset i).blockResetDone q
  else if c = cFAB then (s.attReset i).blockResetDone q
  else (s.pageReset q).pageResetDone q

/-- A partition reset reaches T6 (R608). -/
def State.partResetDone (s : State) (p : Nat) : State :=
  let own := s.ownedPages p
  let s1 := (s.partTasksEnd p).homesDrop p
  let waits := s1.xwaits.filter (fun w => w.part = p)
  let s2 := waits.foldl (fun s w => s.xRefused w.client w.id xrNO_CONTEXT) s1
  let s3 := (((((s2.formHomes p).tierPartReset p).itnPartReset p).atuPartReset p).milPartReset p).ethPartReset p
  let s4 := own.foldl State.partPage s3
  let s5 : State := { s4 with
    boot := { s4.boot with partReset := s4.boot.partReset.filter (fun q => q ≠ p) }
    host := { s4.host with lastW := NMap.erase s4.host.lastW p, peerW := s4.host.peerW.filter (fun e => e.1 / 8 ≠ p) } }
  (s5.setFld (pg cPRT p) PgPRT.CTRL_RESET 0).report true (s5.ev .contained evRESET 0 (pg cPRT p) p 0 0)

/-! ### Starts (R594, R599-R602) -/

/-- A cold start begins (R594): what survives is OTP, boot flash with its owner record, PME_En and PME_Status, the pins, and the model's own
records; the nonce is drawn anew. -/
def State.coldState (s : State) : State :=
  { pending := s.pending, out := s.out, freeCtr := s.freeCtr
    lc := { stateWord := s.lc.stateWord, excWord := s.lc.excWord, slots := s.lc.slots }
    rot := { comps := s.rot.comps, dirCopy := s.rot.dirCopy, dirSeq := s.rot.dirSeq, owner := s.rot.owner }
    host := { pmeEn := s.host.pmeEn, pmeStatus := s.host.pmeStatus }
    saf := { temps := s.saf.temps }
    mem := { nonce := s.mem.nonce + 1 }
    boot := { pwrGood := s.boot.pwrGood, perst := s.boot.perst, aonOk := s.boot.aonOk, io18Ok := s.boot.io18Ok } }

/-- Classes whose block registers a device warm reset leaves (R602, R607): the ROT, management, OTP, the wake island; PRT (19 R570); and the
test, fault and floor-plan records that outlive it.
[DEDUCED, log entry 66] -/
def warmKeepsClass (c : Nat) : Bool :=
  c = cLCS || c = cROT || c = cMGT || c = cPWR || c = cPRT || c = cTST || c = cDBG || c = cFPD || c = cSAF

/-- Classes outside the region of a device warm reset (R607): the ROT, management, OTP, the wake island. -/
def warmOutside (c : Nat) : Bool := c = cLCS || c = cROT || c = cMGT || c = cPWR

/-- A register a device warm reset keeps: PAGE_ERR never (02_register_pages.md R57), PAGE_CTRL, STATE and COMMIT_SEQ only outside the
region (R64), SAF ring registers never (22_fault_detection.md R627),
BOOT and TICK_NOW of GLB, the shared and strand registers of FAB, HEP.RESET_CAUSE. -/
def warmKeeps (p off : Nat) : Bool :=
  let c := pgCls p
  if off = 0x28 then false
  else if (off = 0x10 || off = 0x18 || off = 0x20) && !warmOutside c then false
  else if c = cSAF then !(decide (0x200 ≤ off) && decide (off < 0x420))
  else if warmKeepsClass c then true
  else if c = cGLB then off = 0x128 || off = 0x158
  else if c = cFAB then off = 0x130 || (0x138 ≤ off && off ≤ 0x150) || off = 0x190
  else c = cHEP && off = 0x110

/-- Units that were fenced or in test are as their reset finds them (R65): their FENCE bits have returned to 0. -/
def unfenced (e : Nat × UnitRec) : Nat × UnitRec :=
  if e.2.live = .fenced || e.2.live = .inTest then (e.1, { e.2 with live := .good, sub := scNONE }) else e

/-- Pages of the region whose registers outlive a device warm reset pass RESET at once: their PAGE_CTRL is fresh, with ENABLE = 1 (R64). -/
def State.keptBack (s : State) : State :=
  ([pSAF, pTST, pDBG] ++ (List.range 16).map (pg cFPD) ++ (List.range 16).map (pg cPRT)).foldl (fun s p =>
    (s.setFld p PgHDR.PAGE_CTRL_ENABLE 1).setState p stIDLE) s

/-- Units of a whole kind by number, for those whose needs have come back. -/
def State.dependentBack (s : State) : State :=
  let us := (List.range 48).map (fun k => UnitId.router (400 + k)) ++ (List.range 400).map UnitId.hank ++ (List.range 400).map UnitId.slice ++
    (List.range 256).map (fun i => UnitId.hbmCh (i / 32) (i % 32)) ++ (List.range 256).map (fun i => UnitId.siteCh (i / 64) (i % 64)) ++
    (List.range 6).map UnitId.optAtt ++ (List.range 24).map (fun g => UnitId.strand (g / 4) (g % 4)) ++ (List.range 2).map UnitId.eth
  us.foldl (fun s u =>
    if (s.unit u).live = .dependent && (s.unit u).boot ≠ .dependent && s.needsMet u then
      s.setUnit u { s.unit u with live := s.natural u, sub := scNONE }
    else s) s

/-- The host link goes down and the function forgets its configuration (R517); PME_En and PME_Status are kept (R510). -/
def State.hostForget (s : State) : State :=
  { s with host := { pmeEn := s.host.pmeEn, pmeStatus := s.host.pmeStatus, nextReq := s.host.nextReq } }

/-- SPDM sessions a device warm reset ends: all but those on I3C and SGMII (19_trust_and_tenancy.md R566); at a life-cycle transition all
(R542). -/
def State.sessionsEnd (s : State) (all : Bool) : State :=
  let keep (t : Transport) : Bool := !all && (t = .i3c || t = .sgmii)
  { s with rot := { s.rot with
      sessions := s.rot.sessions.filter (fun x => keep x.tr), ide := []
      conns := s.rot.conns.filter (fun e => !all && e.1 < 2) } }

/-- The region of a device warm reset is reset (R514-R516, R602, R607): every task, queue, context, schedule and transaction is gone, memories are
wiped under a new nonce, keys are cleared; trained parameters are kept. Rings are disabled before the event (22_fault_detection.md R627).
[DEDUCED, log entries 63, 67] -/
def State.warmRegion (s : State) (allSessions : Bool) : State :=
  let s1 : State := { s with
    regs := s.regs.filter (fun e => warmKeeps (e.1 / 512) (e.1 % 512 * 8))
    active := s.active.filter (fun e => warmKeepsClass (e.1 / 512 / 2048))
    locks := s.locks.filter (fun l => warmKeepsClass (l / 64 / 512 / 2048))
    dmmCfg := 0x11008, rateFloor := 620, dmm := []
    deliv := [], atu := {}, dsp := {}, mesh := {}, eth := {}, joins := [], xwaits := [], taskErrs := [], mil := {} }
  let m := s1.mem
  let s2 := ({ s1 with mem := { nonce := m.nonce, layout := m.layout, hbmMeta := m.hbmMeta } } : State).newNonce
  let s3 : State := { s2 with
    fab := { strands := s2.fab.strands.map (fun e => (e.1, { peerMode := e.2.peerMode, peerNext := e.2.peerNext })) }
    site := s2.site.map (fun e => (e.1, { trained := e.2.trained }))
    plan := { s2.plan with units := (s2.plan.units.map unfenced).filter (fun e => decide (e.2 ≠ {})) }
    dom := s2.dom.filter (fun e => decide (820 ≤ e.1) || s.domAbsent e.1)
    saf := { s2.saf with ringQ := [], ringLost := [], tst := none, ctlReset := [], ctlRetry := [], flitFail := [] } }
  let s4 := ((s3.dependentBack.keptBack).hostForget).sessionsEnd allSessions
  let s5 := ((s4.setFld pMGT PgMGT.TIME_STATUS_STATE 0).setFld pMGT PgMGT.TIME_STATUS_DEPTH 0).setFld pTST PgTST.CMD_BUSY 0
  let s6 := (List.range 4).foldl (fun s x => if s.absent (.site x) then s else s.sendStatus x 0) s5
  (List.range 24).foldl (fun s g =>
    if s.strandState g = ssUP then
      s.sendFrame g { kind := 2, nak := false, secure := false, keyPhase := false, hold := false, hubReset := true, job := 0, seq := 0, ack := 0,
                      fcnt := 0, pkts := [], link := none }
    else s) s6

/-- A stage that stands before another in the table, whose end or launch interval it awaits (R600). -/
def stagePrev : Nat → Nat
  | 1 => 0 | 9 => 0 | k => k - 1

/-- The stages a stage needs (R599, R602). -/
def stageNeeds : Nat → List Nat
  | 2 => [1] | 3 => [2] | 4 => [3] | 5 => [3] | 6 => [3] | 7 => [6] | 8 => [3]
  | 10 => [9] | 11 => [10] | 12 => [9] | 13 => [10]
  | _ => []

/-- The stages of the running start. -/
def State.stages (s : State) : List Nat := if s.boot.kind = .cold then [1, 2, 3, 4, 5, 6, 7, 8] else [9, 10, 11, 12, 13]

/-- A FATAL condition that keeps a warm reset from going on (22_fault_detection.md R622): a sensor at 115 °C, VDD_CORE outside its bounds at
the last reading, MESH_FATAL.
[DEDUCED, log entry 57] -/
def State.fatalPersists (s : State) : Bool :=
  let mv := s.fld pSAF PgSAF.MON_STATUS_VDD_CORE_MV
  s.saf.temps.any (fun e => decide (115 ≤ e.2)) || (s.saf.fatal.contains evVOLTAGE && (mv < 650 || 900 < mv)) ||
    s.flag pFPD PgFPD0.FPD_STATUS_MESH_FATAL

/-- A stage may start (R599, R600, R595).
[DEDUCED, log entry 57] -/
def State.stageReady (s : State) (k : Nat) : Bool :=
  let b := s.boot
  !b.running.contains k && !b.ended.contains k && (stageNeeds k).all b.ended.contains &&
    (stagePrev k = 0 || b.ended.contains (stagePrev k) || b.overrun.contains (stagePrev k)) &&
    (k ≠ 2 || b.perstSeen)

/-- A site has been enumerated (R413): its link is up and no enumeration request waits. -/
def State.enumerated (s : State) (x : Nat) : Bool :=
  s.siteLink x = slUP && !(s.siteSt x).cfg.any (fun q => q.why = CfgWhy.enumerate)

/-- Every live strand of an attachment is UP. -/
def State.attUp (s : State) (a : Nat) : Bool :=
  (List.range 4).all (fun k => !s.live (.strand a k) || s.strandState (4 * a + k) = ssUP)

/-- Units a stage no longer awaits: removed, or trained. -/
def State.pendSettle (s : State) : State :=
  let b := s.boot
  { s with boot := { b with
      sitesPend := b.sitesPend.filter (fun x => s.live (.site x) && !s.enumerated x)
      hbmPend := b.hbmPend.filter (fun a => s.live (.hbmAtt a))
      optPend := b.optPend.filter (fun a => s.live (.optAtt a) && !s.attUp a)
      hankPend := b.hankPend.filter (fun n => (s.delivery n).isSome) } }

/-- A running stage is complete by its units (R599, R601). -/
def State.stageDone (s : State) (k : Nat) : Bool :=
  let b := s.boot
  if k = 4 then b.sitesPend = []
  else if k = 5 then b.hbmPend = []
  else if k = 6 then b.optPend = []
  else if k = 7 then s.mil.time.epoch ≠ none || (List.range 6).all (fun a => !s.live (.optAtt a))
  else if k = 8 || k = 13 then b.hankPend = []
  else if k = 11 then b.sitesPend = [] && b.hbmPend = []
  else if k = 12 then (List.range 6).all (fun a => !s.live (.optAtt a))
  else false

/-- Pages leave RESET together. -/
def State.leaveReset (s : State) (ps : List Nat) : State :=
  ps.foldl (fun s p =>
    if s.pageAbsent p || !s.pageOn p || s.pageState p ≠ stRESET then s
    else if s.compDown p then s.setState p stFAULTED
    else s.pageResetDone p) s

/-- Every page of a class. -/
def classPages (c : Nat) : List Nat := (List.range (classCount c)).map (pg c)

/-- Pages up once a stage has ended: the ROT, management and the pages without a domain after C1; the die after C3 or W2; sites, HBM and fabric
after their training (R595, R599, R602). -/
def stagePages (k : Nat) : List Nat :=
  if k = 1 then [pLCS, pROT, pMGT, pKEY, pTST, pDBG, pSAF, pGLB] ++ classPages cFPD ++ classPages cPRT ++ classPages cPWR
  else if k = 3 || k = 10 then
    [cSKN, cCOH, cMSH, cTOL, cTIR, cITN, cATU, cDSP, cDMA, cCOL, cHEP, cETH].flatMap classPages ++
      (if k = 10 then [pGLB, pKEY] else [])
  else if k = 4 then classPages cSIT
  else if k = 5 then [cHBM, cHCH, cSCR].flatMap classPages
  else if k = 6 then [cFAB, cMIL].flatMap classPages
  else if k = 11 then [cSIT, cHBM, cHCH, cSCR, cFAB, cMIL].flatMap classPages
  else []

/-- No site controller runs (19_trust_and_tenancy.md R554): every site is FAULTED. -/
def State.noSites (s : State) : State :=
  (List.range 4).foldl (fun s x => if s.live (.site x) then s.bootRemove (.site x) .faulted scFIRMWARE else s) s

/-- What the start of a stage does (R599, R602).
[DEDUCED, log entry 79] -/
def State.stageStart (s : State) (k : Nat) : State :=
  let b := s.boot
  if k = 3 then (List.range 400).foldl (fun s n => if s.live (.slice n) then s.wipeStart n else s.zeroSlice n) s
  else if k = 4 then
    let s := if (s.comp 7).down then s.noSites else s
    let xs := (List.range 4).filter (fun x => s.live (.site x))
    xs.foldl (fun s x => (s.setSiteLink x slTRAINING).sendStatus x 1) { s with boot := { b with sitesPend := xs } }
  else if k = 5 then { s with boot := { b with hbmPend := (List.range 8).filter (fun a => s.live (.hbmAtt a)) } }
  else if k = 6 then
    let l := (List.range 6).filter (fun a => s.live (.optAtt a))
    l.foldl (fun s a => (List.range 4).foldl (fun s j => if s.live (.strand a j) then s.setStrandState (4 * a + j) ssTRAINING else s) s)
      { s with boot := { b with optPend := l } }
  else if k = 7 || k = 12 then (if (List.range 6).any (fun a => s.live (.optAtt a)) then s.syncStart else s)
  else if (k = 8 || k = 13) && (s.comp 5).down then
    (List.range 400).foldl (fun s n =>
      if s.live (.hank n) then
        let s1 := s.bootRemove (.hank n) .faulted scFIRMWARE
        (if k = 8 then s1.noResult (.hank n) else s1).hankLeaves n
      else s) s
  else if k = 8 || k = 13 then
    let ns := (List.range 400).filter (fun n => s.live (.hank n) || (k = 13 && (s.unit (.hank n)).live = .faulted))
    ns.foldl (fun s n => s.setDelivery n (some { atStart := true })) { s with boot := { b with hankPend := ns } }
  else if k = 11 then
    let s := if (s.comp 7).down then s.noSites else s
    let xs := (List.range 4).filter (fun x => s.live (.site x) && (s.siteSt x).trained)
    xs.foldl (fun s x => s.siteRetrain x)
      { s with boot := { b with sitesPend := xs, hbmPend := (List.range 8).filter (fun a => s.live (.hbmAtt a)) } }
  else s

/-- What the end of a stage does: its pages leave RESET; homes form with the slices, the HBM layout with the channels (R199, R234). -/
def State.bootStageEnd (s : State) (k : Nat) : State :=
  let s1 := if k = 3 || k = 10 then (List.range 16).foldl State.formHomes s
    else if k = 5 || k = 11 then s.formLayout
    else s
  s1.leaveReset (stagePages k)

/-- The hub is ready (R601, R78, R517, R623).
[DEDUCED, log entry 62] -/
def State.bootReady (s : State) : State :=
  let b := s.boot
  let d := s.derived
  let s1 := d.foldl (fun s x => s.setUnit x.1 { s.unit x.1 with live := x.2 }) s
  let s2 : State := { s1 with plan := { s1.plan with
    units := s1.plan.units.map (fun e => (e.1, { e.2 with boot := if e.2.boot = .fused || e.2.boot = .notPopulated then e.2.boot else e.2.live }))
    bootSpindles := s1.liveSpindles } }
  let p8 := pg cFPD 8
  let s3 := ((List.range 64).foldl (fun s i => s.setWord p8 (0x100 + 8 * i) 0) s2).setFld p8 PgFPD8.LOG_HEAD_HEAD 0
  let s4 := (s3.setFld pFPD PgFPD0.FPD_GEN_GEN 0).setFld pFPD PgFPD0.FPD_STATUS_BELOW_MIN (b2n s3.belowMin)
  let h := Config.sha384 s4.fpdBytes
  let s5 := (List.range 6).foldl (fun s i =>
    s.setWord pFPD (0x118 + 8 * i) (BitVec.ofNat 64 (leNat (((digestBytes h).drop (8 * i)).take 8)))) s4
  let s6 := (s5.setFld pFPD PgFPD0.FPD_STATUS_DIGEST_VALID 1).extend 10 mevBOOT 0 0 h
  let s7 := if s6.belowMin && !s.flag pFPD PgFPD0.FPD_STATUS_BELOW_MIN then (s6.setInt pFPD 1).report true (s6.ev .corrected evBELOW_MIN 0 pFPD 31 0 0) else s6
  let s8 := s7.planLimits (.router 434)
  let ms := s8.fresh
  let kind := match b.kind with | .cold => 0 | .warm => 1 | .resume => 2 | .lifeCycle => 3
  let s9 : State := { ms.2 with boot := { ms.2.boot with running := [], ended := [], overrun := [], warm := false, wasReady := true, lossCause := 0 } }
  let s10 := (((s9.setFld pGLB PgGLB.BOOT_READY 1).setFld pGLB PgGLB.BOOT_KIND kind).setFld pGLB PgGLB.BOOT_STAGE 0).setFld pGLB PgGLB.BOOT_LAST_MS
    (ms.1.toNat % 2 ^ 32)
  let s11 := s10.setInt pGLB 6
  let s12 := if s11.dlUp && !s11.host.drsSent then ({ s11 with host := { s11.host with drsSent := true } } : State).emit .drs else s11
  let s13 := if b.kind = .lifeCycle then s12.setInt pLCS 0 else s12
  let s14 := if s13.flag pFPD PgFPD0.FPD_STATUS_MESH_FATAL || s13.fatalPersists then s13
    else
      let t := (s13.setFld pSAF PgSAF.STATUS_FATAL_ACTIVE 0).setFld pSAF PgSAF.STATUS_FAULT_N 0
      ({ t with saf := { t.saf with fatal := [], stopped := false } } : State).emitIf (s13.flag pSAF PgSAF.STATUS_FAULT_N) (.faultN false)
  let cause := match b.kind with | .cold => 0 | _ => if b.lossCause = 1 || b.lossCause = 2 then b.lossCause else 3
  let s15 := s14.setFld pHEP PgHEP.RESET_CAUSE_CAUSE cause
  if b.kind ≠ .cold && (b.lossCause = 1 || b.lossCause = 2) then s15.count pHEP PgHEP.RESET_CAUSE_LOSS_COUNT 1 else s15

/-- BOOT.STAGE: the earliest stage that runs (R609). -/
def State.stageReg (s : State) : State :=
  s.setFld pGLB PgGLB.BOOT_STAGE (match s.boot.running with | [] => 0 | k :: l => l.foldl min k)

/-- The sequencer: running stages whose units are done end, stages that may start do, and after the last one the hub is ready (R599-R602). -/
def State.stageDrive (s : State) : Nat → State
  | 0 => s
  | fuel + 1 =>
    let t := s.pendSettle
    match t.boot.running.find? t.stageDone with
    | some k =>
      let b := t.boot
      (({ t with boot := { b with running := b.running.filter (· ≠ k), ended := b.ended ++ [k] } } : State).bootStageEnd k).stageDrive fuel
    | none => match t.stages.find? t.stageReady with
      | some k =>
        let b := t.boot
        (({ t with boot := { b with running := b.running ++ [k] } } : State).stageStart k).stageDrive fuel
      | none => if t.stages.all t.boot.ended.contains then t.bootReady else t.stageReg

/-- The sequencer looks again after a happening, while a start runs. -/
def State.bootCheck (s : State) : State := if s.boot.running = [] && s.boot.ended = [] then s else s.stageDrive 40

/-- A stage that runs ends by its own event. A warm reset during which a FATAL condition persists stops at the end of W1
(22_fault_detection.md R622). -/
def State.stageOver (s : State) (k : Nat) : State :=
  let b := s.boot
  if !b.running.contains k then s
  else if k = 9 && s.fatalPersists then { s with boot := { b with running := [], ended := [] } }
  else (({ s with boot := { b with running := b.running.filter (· ≠ k), ended := b.ended ++ [k] } } : State).bootStageEnd k).stageDrive 40

/-- A device warm reset starts (R514, R602): absorbed while a start runs (R595) or a life-cycle transition does (18_life_cycle.md R552). -/
def State.warmStart (s : State) (kind : BootKind) (loss : Nat) : State :=
  if s.boot.running ≠ [] || (!s.boot.wasReady && kind ≠ .lifeCycle) || !s.boot.pwrGood || s.rot.halted || s.lc.stage ≠ 0 then s
  else
    let s1 := (s.setFld pGLB PgGLB.BOOT_READY 0).warmRegion (kind = .lifeCycle)
    let b := s1.boot
    let s2 : State := { s1 with boot := { b with kind := kind, running := [9], ended := [], overrun := [], warm := true, lossCause := loss
                                                 sitesPend := [], hbmPend := [], optPend := [], hankPend := [] } }
    (s2.report true (s2.ev .contained evRESET 0 pHEP 31 loss 0)).stageReg

end Sys2Proof.Machine
end

