-- ==== Sys2Proof/Machine/BringUp.lean ====
section
/-! DEFINITION. Bring-up: supplies, the stages of a cold and a warm start, firmware deliveries, warm and partition resets
(21_bring_up_and_reset.md R592-R612; 03_floor_plan.md R77-R82, R95, R653, R654). -/
namespace Sys2Proof.Machine
open Host

/-! ### Supplies (R592-R594) -/

/-- A start begins with PWR_GOOD_IN (R594): all that the hub held is lost but what a cold start keeps; with PERST_N asserted the host
endpoint's domain is Off (20_power_domains.md R575).
[DEDUCED, log entry 47] -/
def State.powerUp (s : State) : State :=
  let s1 := s.coldState
  let b := s1.boot
  let s2 : State := { s1 with boot := { b with pwrGood := true, aonOk := true, io18Ok := true, running := [1], perstSeen := !b.perst } }
  let s3 := if b.perst then (s2.setDom 820 { st := 2 }).setFld pHEP PgHDR.PAGE_STATE_STATE stOFF else s2
  s3.stageReg

def execPwrGoodAssert (s : State) : Outcome State Fault Refusal :=
  if s.boot.pwrGood then .next s else .next s.powerUp

/-- PWR_GOOD_IN is lost (R593): every domain but the wake island is in reset, with no drain; the sites see NOT_READY; FAULT_N and WAKE_N
are high-impedance (23_physical.md R638). -/
def State.powerDown (s : State) : State :=
  let on := s.flag pSAF PgSAF.STATUS_FAULT_N
  let s1 := (List.range 4).foldl (fun s x => if s.absent (.site x) then s else s.emit (.siteStatus x 0)) s
  let s2 := s1.coldState
  let s3 : State := { s2 with boot := { s2.boot with pwrGood := false } }
  (s3.emitIf on (.faultN false)).emitIf s.boot.wakeN (.wakeN false)

def execPwrGoodDeassert (s : State) : Outcome State Fault Refusal :=
  if s.boot.pwrGood then .next s.powerDown else .next s

/-- VDD_AON is lost: the wake island's retained store goes (20_power_domains.md R573, R591), and with it every start but a cold one.
[DEDUCED, log entry 58] -/
def execVddAonLoss (s : State) : Outcome State Fault Refusal :=
  let s1 := s.powerDown
  .next { s1 with boot := { s1.boot with aonOk := false }, host := { s1.host with pmeEn := false, pmeStatus := false } }

/-- VDD_IO18 is lost while VDD_AON stays (23_physical.md R646): the pins of the AON bank float, no wake reaches the hub, the next start is
cold.
[DEDUCED, log entry 58] -/
def execVddIo18Loss (s : State) : Outcome State Fault Refusal :=
  let s1 := s.powerDown
  .next { s1 with boot := { s1.boot with io18Ok := false } }

/-! ### Cold start (R599-R601) -/

/-- Stage C1 ends: the ROT has started the boot chain (19_trust_and_tenancy.md R553, R554); a ROT that halts goes no further. -/
def execRotBootDone (images : List BootImage) (s : State) : Outcome State Fault Refusal :=
  if !s.boot.running.contains 1 then .next s
  else
    let s1 := s.rotStart images
    if s1.rot.halted then .next { s1 with boot := { s1.boot with running := [] } }
    else .next (s1.stageOver 1)

/-- The words of the fuses and the OTP record that MR 8 measures.
[DEDUCED, log entry 11] -/
def fuseWords (f : FuseRecord) : List Nat :=
  [f.variant, f.popHbm, f.popOpt, f.popSites, f.stackGib, f.rate] ++ f.fusedHanks ++
    (f.asmFail.map (fun x => [unitKey x.1, x.2])).flatten ++ (f.siteLanes.map (fun x => [x.1, x.2])).flatten

/-- A lane of an attachment is found failed by a start-up stage (R82): the spare takes its place, else its strand is removed. -/
def State.bootLane (s : State) (a i : Nat) (c : Cause) (sub : Nat) : State :=
  let o := NMap.getD s.plan.opt {} a
  if 17 ≤ i || !natBit o.laneOk i then s
  else
    let o1 := { o with laneOk := natSetBits o.laneOk i i 0 }
    let spare := i < 16 && o.spareFor = 31 && natBit o.laneOk 16
    let o2 := if spare then { o1 with spareFor := i } else o1
    let s1 := ({ s with plan := { s.plan with opt := NMap.put s.plan.opt {} a o2 } } : State).bootRemove (.lane a i) c sub
    if spare then s1
    else if i = 16 then (if o.spareFor < 16 then s1.bootRemove (.strand a (o.spareFor / 4)) c sub else s1)
    else s1.bootRemove (.strand a (i / 4)) c sub

/-- A unit that failed package test (R77 stage 2).
[DEDUCED, log entry 49] -/
def State.asmUnit (s : State) (u : UnitId) (sub : Nat) : State :=
  match u with
  | .spindle n j => (s.bootRemove u .assemblyFail sub).setSpindles n (natSetBits (s.spindles n) j j 0)
  | .lane a i => s.bootLane a i .assemblyFail sub
  | _ => (u :: unitDependents u).foldl State.noResult (s.bootRemove u .assemblyFail sub)

/-- Floor-plan stages 1 and 2 (R77, R95, R96): fuses and variant, then the OTP assembly record; the domains of absent units stay Off
(00_scope.md R10). -/
def State.fusePlan (s : State) (f : FuseRecord) : State :=
  let s1 := (variantFused f.variant).foldl (fun s u => s.bootRemove u .fused scNONE) s
  let s2 := f.fusedHanks.foldl (fun s n => s.bootRemove (.hank n) .fused scNONE) s1
  let gone := ((List.range 8).filter (fun a => !natBit f.popHbm a)).map UnitId.hbmAtt ++
    ((List.range 6).filter (fun a => !natBit f.popOpt a)).map UnitId.optAtt ++ ((List.range 4).filter (fun x => !natBit f.popSites x)).map UnitId.site
  let s3 := gone.foldl (fun s u => s.bootRemove u .notPopulated scNONE) s2
  let lanes (m : NMap Nat) : NMap Nat := f.siteLanes.foldl (fun m x => NMap.put m (2 ^ 64 - 1) x.1 x.2) m
  let s4 : State := { s3 with plan := { s3.plan with
    fuses := fuseWords f, variant := f.variant, popHbm := f.popHbm, popOpt := f.popOpt, popSites := f.popSites, stackGib := f.stackGib, rate := f.rate
    laneOtp := lanes s3.plan.laneOtp, laneEff := lanes s3.plan.laneEff } }
  let off := ((List.range 820).filter s4.domAbsent).foldl (fun s d => s.setDom d { st := 2 }) s4
  let s5 := f.asmFail.foldl (fun s x => s.asmUnit x.1 x.2) off
  (List.range 400).foldl (fun s n =>
    if s.live (.hank n) && s.goodSpindles n < 48 then s.bootRemove (.hank n) .assemblyFail scSPINDLE_COUNT else s) s5

/-- Stage C2 ends. -/
def execOtpReadDone (f : FuseRecord) (s : State) : Outcome State Fault Refusal :=
  if !s.boot.running.contains 2 then .next s else .next (((s.fusePlan f).measureBoot (fuseWords f)).stageOver 2)

/-- The test results of a slice, all good where the event names none.
[DESIGN CHOICE, log entry 48] -/
def sliceTest (ts : List SliceTest) (n : Nat) : SliceTest := (ts.find? (fun t => t.slice = n)).getD ⟨n, 0, true⟩

/-- The bank and retention tests of stage C3 (R653): a slice with a failed bank is removed (R82).
[DESIGN CHOICE, log entry 48] -/
def State.coldSlice (s : State) (ts : List SliceTest) (n : Nat) : State :=
  if !s.live (.slice n) then (if s.absent (.slice n) then s else s.setBankOk n 0)
  else
    let t := sliceTest ts n
    let bad := t.badBanks % 2 ^ 16
    let s1 := (s.setBankOk n ((2 ^ 16 - 1) ^^^ bad)).wipeDone n
    if bad ≠ 0 then s1.bootRemove (.slice n) .startupFail scMEMORY
    else if t.retOk then { s1 with plan := { s1.plan with retOk := s1.plan.retOk ++ [n] } } else s1

/-- A router that fails its test (R90): what lies behind it is never tested and reads 0 (R653). -/
def State.deadRouter (s : State) (r : Nat) : State :=
  (unitDependents (.router r)).foldl State.noResult (s.bootRemove (.router r) .startupFail scROUTER)

/-- The router limits are looked at (R91). -/
def State.meshCheck (s : State) : State :=
  if s.meshBroken && !s.flag pFPD PgFPD0.FPD_STATUS_MESH_FATAL then
    let s1 := s.setFld pFPD PgFPD0.FPD_STATUS_MESH_FATAL 1
    s1.report true (s1.ev .fatal evMESH_FATAL 0 pFPD 31 0 0)
  else s

/-- An Ethernet port's lane test (R82). -/
def State.ethLanes (s : State) (e mask : Nat) : State :=
  let s1 : State := { s with plan := { s.plan with ethLanes := NMap.put s.plan.ethLanes 0xFF e (mask % 256) } }
  if mask % 256 = 0xFF then s1 else s1.bootRemove (.eth e) .startupFail scTRAINING

/-- Stage C3 ends: the die is wiped and read back, slices, routers and Ethernet lanes are tested; a port the list does not name passed.
[DESIGN CHOICE, log entry 48; DEDUCED, log entry 70] -/
def execDieWipeDone (slices : List SliceTest) (deadRouters : List Nat) (ethLanes : List (Nat × Nat)) (s : State) :
    Outcome State Fault Refusal :=
  if !s.boot.running.contains 3 then .next s
  else
    let s1 : State := { s with plan := { s.plan with banksTested := true } }
    let s2 := (deadRouters.filter (fun r => r < 448)).foldl State.deadRouter s1
    let s3 := (List.range 400).foldl (fun s n => s.coldSlice slices n) s2
    let s4 := (ethLanes.filter (fun x => x.1 < 2)).foldl (fun s x => if s.live (.eth x.1) then s.ethLanes x.1 x.2 else s) s3
    .next (s4.meshCheck.stageOver 3)

/-- A site's training ends (R392), at a start or after a reset or retrain. -/
def execSiteTrainingDone (x : Nat) (t : SiteTraining) (s : State) : Outcome State Fault Refusal :=
  if 4 ≤ x || s.absent (.site x) || (s.siteLink x ≠ slTRAINING && s.siteLink x ≠ slRETRAINING) then .next s
  else .next (s.siteTrained x t).bootCheck

/-- CfgCpl (R413, R414): the answer to the oldest configuration request. -/
def execAspCfgcpl (x c : Nat) (m : AspMsg) (s : State) : Outcome State Fault Refusal :=
  if 4 ≤ x || !s.chanUp x c || (s.siteSt x).cfg = [] then .next s
  else .next ((s.aspFree x c 6 (aspCost m)).cfgAnswer x (some (m.arg8 % 2, m.arg64))).bootCheck

/-- No CfgCpl within the bound (R413, R414). -/
def execCfgAnswerTimeout (x : Nat) (s : State) : Outcome State Fault Refusal :=
  if 4 ≤ x || (s.siteSt x).cfg = [] then .next s else .next (s.cfgAnswer x none).bootCheck

/-- Lane-map digests are compared (R393). -/
def execLaneMapDigest (x digest : Nat) (peerMap : List LaneFail) (s : State) : Outcome State Fault Refusal :=
  if 4 ≤ x || s.absent (.site x) then .next s else .next (s.laneDigests x (digest % 2 ^ 32) peerMap).bootCheck

/-- A channel of an HBM attachment after training: good pseudo-channels and repaired lanes (R83, R239). -/
def State.hbmTrained (s : State) (a c pcOk repaired : Nat) : State :=
  let k := a * 32 + c
  let s1 : State := { s with plan := { s.plan with pcOk := NMap.put s.plan.pcOk 3 k (pcOk % 4), repaired := NMap.put s.plan.repaired 0 k repaired } }
  if pcOk % 4 = 3 then s1 else s1.bootRemove (.hbmCh a c) .startupFail scTRAINING

/-- An attachment's part of a stage is over. -/
def State.hbmSettled (s : State) (a : Nat) : State :=
  ({ s with boot := { s.boot with hbmPend := s.boot.hbmPend.filter (· ≠ a) } } : State).bootCheck

/-- HBM training ends at an attachment (R239): a stack whose identity does not match is removed, and its channels are never trained; a
channel the list does not name passed (R82).
[DESIGN CHOICE, log entry 48] -/
def execHbmTrainingDone (a : Nat) (idOk : Bool) (chans : List (Nat × Nat × Nat)) (s : State) : Outcome State Fault Refusal :=
  if !s.boot.running.contains 5 || !s.boot.hbmPend.contains a then .next s
  else
    let s1 := if !idOk then (unitDependents (.hbmAtt a)).foldl State.noResult (s.bootRemove (.hbmAtt a) .startupFail scTRAINING)
      else (chans.filter (fun x => x.1 < 32)).foldl (fun s x => if s.live (.hbmCh a x.1) then s.hbmTrained a x.1 x.2.1 x.2.2 else s) s
    .next (s1.hbmSettled a)

/-- A strand finishes its training (R446, R447): with its peer, or with none. -/
def State.strandTrained (s : State) (g : Nat) (peer : Option LinkBody) : State :=
  match peer with
  | some b => (s.setStrandState g ssUP).strandMeets g b
  | none => s.setStrandState g ssNO_PEER

/-- Optical training ends at an attachment (R446): lanes that failed engine loop-back or the module path are a start-up failure; strands
without a peer go on trying (R447). -/
def execOpticalTrainingDone (a engineId temp badLanes : Nat) (peers : List (Nat × LinkBody)) (s : State) : Outcome State Fault Refusal :=
  let waits (g : Nat) : Bool := s.strandState g = ssTRAINING || s.strandState g = ssNO_PEER
  if 6 ≤ a || !s.live (.optAtt a) || !(List.range 4).any (fun k => s.live (.strand a k) && waits (4 * a + k)) then .next s
  else
    let p := pg cFAB a
    let s1 := (((s.setFld p PgFAB.ENGINE_ENGINE_ID engineId).setFld p PgFAB.ENGINE_TEMP_C temp).setFld p PgFAB.ENGINE_READY 1).setFld p
      PgFAB.ENGINE_LASER_ON 1
    let boot := s.boot.running.contains 6
    let bad := (List.range 17).filter (fun i => natBit badLanes i)
    let s2 := bad.foldl (fun s i => if boot then s.bootLane a i .startupFail scTRAINING else s.spareLane a i) s1
    .next ((List.range 4).foldl (fun s k =>
      let g := 4 * a + k
      if s.live (.strand a k) && waits g then s.strandTrained g ((peers.find? (fun x => x.1 = k)).map Prod.snd)
      else if waits g then s.setStrandState g ssFAULTED else s) s2).bootCheck

/-- The launch interval of a stage expires (R600): the stage after it need not wait for its end. -/
def execStageLaunch (stage : Nat) (s : State) : Outcome State Fault Refusal :=
  if !([4, 5, 7, 11, 12] : List Nat).contains stage || !s.boot.running.contains stage then .next s
  else .next ({ s with boot := { s.boot with overrun := s.boot.overrun ++ [stage] } } : State).bootCheck

/-- C6 ends on its time bound (R601). -/
def execOpticalStageDeadline (s : State) : Outcome State Fault Refusal := .next (s.stageOver 6)
/-- C7 ends on its time bound (R601). -/
def execTimeStageDeadline (s : State) : Outcome State Fault Refusal := .next (s.stageOver 7)

/-! ### Firmware delivery (R603-R606) -/

/-- A hank controller stores a chunk that matches its digest (R604). -/
def execHankChunkReceive (n chunk : Nat) (ok : Bool) (s : State) : Outcome State Fault Refusal :=
  match s.delivery n with
  | none => .next s
  | some d =>
    if !ok || (s.comp 5).down || s.imageChunks ≤ chunk then .next s
    else .next (s.setDelivery n (some { d with chunks := natSetBits d.chunks chunk chunk 1 }))

/-- A hank whose image stays incomplete (R605).
[DEDUCED, log entry 77] -/
def State.noFirmware (s : State) (n : Nat) (d : DelivSt) : State :=
  let s1 := if d.inTest then s.testOver 1 scFIRMWARE else s
  let s2 := if d.atStart && s.boot.kind = .cold then s1.noResult (.hank n) else s1
  ((s2.hankFails n d.atStart scFIRMWARE).count pGLB PgGLB.DELIVERY_FAILED 1).setInt pGLB 7

/-- A repair round ends with the chunks that came in it; after the third an incomplete hank is removed. -/
def execDeliveryRepairRound (n : Nat) (got : Nat) (s : State) : Outcome State Fault Refusal :=
  match s.delivery n with
  | none => .next s
  | some d =>
    let c := if (s.comp 5).down then d.chunks else d.chunks ||| (got &&& s.wholeImage)
    if d.chunks = s.wholeImage || 3 ≤ d.round then .next s
    else
      let d1 := { d with chunks := c, round := d.round + 1 }
      if c ≠ s.wholeImage && 3 ≤ d1.round then .next (s.noFirmware n d1).bootCheck
      else .next (s.setDelivery n (some d1))

/-- A hank's digest is compared and its test ends (R604, R605). -/
def execHankSelfTestDone (n : Nat) (digestOk : Bool) (t : HankTest) (s : State) : Outcome State Fault Refusal :=
  match s.delivery n with
  | none => .next s
  | some d =>
    if d.chunks ≠ s.wholeImage then .next s
    else if !digestOk then
      if 3 ≤ d.round then .next (s.noFirmware n d).bootCheck else .next (s.setDelivery n (some { d with chunks := 0 }))
    else if d.full then .next (s.hankTested n d t).bootCheck
    else .next (s.hankKnown n t).bootCheck

/-! ### Warm start (R602, R610) -/

/-- A write of MGT.RESET.WARM: the field reads 1 until W1 ends.
[DEDUCED, log entries 69, 78] -/
def State.warmCmd (s : State) (r : Requester) : State :=
  s.gateBlk r cMGT 0 0x360 (fun _ s =>
    let s1 := s.warmStart .warm 3
    if s.boot.running = [] && s1.boot.running ≠ [] then s1.setFld pMGT PgMGT.RESET_WARM 1 else s1)

def execWarmReset (r : Requester) (s : State) : Outcome State Fault Refusal := .next (s.warmCmd r)

/-- The wipe with read-back of W1 is each slice's bank test (R602, R653, R654): a FAULTED slice that passes returns. -/
def State.warmSlice (s : State) (ts : List SliceTest) (n : Nat) : State :=
  let u := UnitId.slice n
  let r := s.unit u
  if !(s.live u || r.live = .faulted) then s
  else
    let bad := (sliceTest ts n).badBanks % 2 ^ 16
    let s1 := (s.setBankOk n ((2 ^ 16 - 1) ^^^ bad)).wipeDone n
    if bad ≠ 0 then
      ({ s1 with plan := { s1.plan with retOk := s1.plan.retOk.filter (· ≠ n) } } : State).setUnit u ⟨.startupFail, .startupFail, scMEMORY⟩
    else if r.live = .faulted then s1.setUnit u { r with live := .good, sub := scNONE }
    else s1

/-- W1 ends: drain, lay-by and wipe are over. -/
def execWarmDrainDone (slices : List SliceTest) (s : State) : Outcome State Fault Refusal :=
  if !s.boot.running.contains 9 then .next s
  else
    let s1 := (List.range 400).foldl (fun s n => s.warmSlice slices n) s
    let s2 := (List.range 16).foldl (fun s p => s.setFld (pg cPRT p) PgPRT.CTRL_RESET 0) (s1.setFld pMGT PgMGT.RESET_WARM 0)
    .next (({ s2 with boot := { s2.boot with partReset := [] } } : State).stageOver 9)

/-- W2 ends: components of MR 4 to MR 7 are activated or reloaded (19_trust_and_tenancy.md R556). -/
def execWarmRotDone (images : List BootImage) (s : State) : Outcome State Fault Refusal :=
  if !s.boot.running.contains 10 then .next s else .next ((s.rotWarm images).stageOver 10)

/-- W3 at an attachment: HBM is restored with its trained parameters (R239); a channel that fails is removed. -/
def execHbmRestoreDone (a : Nat) (chOk : Nat) (s : State) : Outcome State Fault Refusal :=
  if !s.boot.running.contains 11 || !s.boot.hbmPend.contains a then .next s
  else
    .next (((List.range 32).foldl (fun s c =>
      if s.live (.hbmCh a c) && !natBit chOk c then s.bootRemove (.hbmCh a c) .startupFail scTRAINING else s) s).hbmSettled a)

/-- W4 ends: the time base is locked again, or goes on from the state it has reached.
[DEDUCED, log entry 50] -/
def execTimeRelockDone (ok : Bool) (s : State) : Outcome State Fault Refusal :=
  .next (if ok then s.stageOver 12 else (s.setTimeState tmLOST).stageOver 12)

/-- The drain limit of a reset passes (R607): what is outstanding gets its error at once. -/
def execDrainLimitExpire (part : Option Nat) (s : State) : Outcome State Fault Refusal :=
  match part with
  | none => if s.boot.running.contains 9 then .next (s.drainLimit none) else .next s
  | some p => if s.boot.partReset.contains p then .next (s.drainLimit (some p)) else .next s

/-! ### Partition reset (R608) -/

/-- A write of 1 to PRT.CTRL.RESET. -/
def State.partCmd (s : State) (r : Requester) (p : Nat) : State := s.gateBlk r cPRT p 0x148 (fun _ s => s.partResetStart p)

def execPartitionReset (r : Requester) (p : Nat) (s : State) : Outcome State Fault Refusal := .next (s.partCmd r p)

def execPartitionResetDone (p : Nat) (s : State) : Outcome State Fault Refusal :=
  if s.boot.partReset.contains p then .next ((s.partResetDone p).kick).atuWork else .next s

end Sys2Proof.Machine
end

