-- ==== Sys2Proof/Machine/Power.lean ====
section
/-! DEFINITION. Power domains: requests, entries through their phases, aborts, exits, hub sleep, management sleep, wake sources, and what
PERST_N does (20_power_domains.md R573-R591; 16_host_endpoint.md R508, R511, R514, R516; 21_bring_up_and_reset.md R595). -/
namespace Sys2Proof.Machine
open Host

/-- The pages of a domain (02_register_pages.md R44). -/
def domPages (d : Nat) : List Nat :=
  let run (c k : Nat) : List Nat := (List.range k).map (pg c)
  if d < 400 then [pg cHNK d, pg cBOB d]
  else if d < 800 then [pg cSKN (d - 400), pg cCOH (d - 400)]
  else if d < 804 then [pg cSIT (d - 800)]
  else if d < 812 then [pg cHBM (d - 804), pg cSCR (d - 804)] ++ (List.range 32).map (fun c => pg cHCH (32 * (d - 804) + c))
  else if d < 818 then [pg cFAB (d - 812), pg cMIL (2 * (d - 812)), pg cMIL (2 * (d - 812) + 1)]
  else if d < 820 then [pg cETH (d - 818)]
  else if d = 820 then [pHEP]
  else if d = 821 then run cDSP 16 ++ run cATU 97 ++ run cDMA 64 ++ [pCOL] ++ run cITN 64 ++ run cTIR 16
  else if d = 822 then run cMSH 448 ++ run cTOL 512
  else if d = 823 then [pMGT, pROT]
  else []

/-- PWR.STATUS.PHASE of a domain (R589): 0 none, 1-5 the phases of an entry, 6 an exit. Mesh and core services pass together (R582). -/
def State.phase (s : State) (d : Nat) : Nat := s.fld (pg cPWR d) PgPWR.STATUS_PHASE
/-- [DEDUCED, log entry 56] -/
def State.setPhase (s : State) (d k : Nat) : State :=
  let s1 := s.setFld (pg cPWR d) PgPWR.STATUS_PHASE k
  if d = 821 then s1.setFld (pg cPWR 822) PgPWR.STATUS_PHASE k else s1

/-- The outcome of a transition (R589 LAST_RESULT) with its interrupt. -/
def State.pwrResult (s : State) (d result bit : Nat) : State :=
  (s.setFld (pg cPWR d) PgPWR.STATUS_LAST_RESULT result).setInt (pg cPWR d) bit

/-- The request of a domain (R575): 820 follows PERST_N, 821 to 823 MGT.SLEEP. -/
def State.domReq (s : State) (d : Nat) : Nat :=
  if d < 820 then (s.domSt d).req
  else if d = 820 then (if s.boot.perst then 2 else 0)
  else if d < 823 then s.fld pMGT PgMGT.SLEEP_CORE_REQ
  else if d = 823 then s.fld pMGT PgMGT.SLEEP_MGMT_REQ else 0

/-- Writes the request of a domain back. -/
def State.setReq (s : State) (d v : Nat) : State :=
  if d = 821 then s.setFld pMGT PgMGT.SLEEP_CORE_REQ v
  else if d = 823 then s.setFld pMGT PgMGT.SLEEP_MGMT_REQ v
  else s.setDom d { s.domSt d with req := v }

/-! ### Refusals (R576) -/

/-- A page of the domain that runs an in-service test or loop-back. -/
def State.domTest (s : State) (d : Nat) : Option Nat :=
  let n := d - 400
  if d < 400 then (match s.saf.tst with | some t => if t.kind = 0 && t.inst = d then some (pg cHNK d) else none | none => none)
  else if d < 800 then (if s.flag (pg cSKN n) PgSKN.STATUS_TEST_BUSY then some (pg cSKN n) else none)
  else if d < 804 then (if s.flag (pg cSIT (d - 800)) PgSIT.TEST_START then some (pg cSIT (d - 800)) else none)
  else if 812 ≤ d && d < 818 then (if s.flag (pg cFAB (d - 812)) PgFAB.TEST_START then some (pg cFAB (d - 812)) else none)
  else none

/-- A granule of an attachment that holds data. -/
def State.holdsData (s : State) (a : Nat) : Option Nat :=
  match List.find? (fun (e : Nat × Nat) => gValid e.2 && s.granuleAtt e.1 = some a) s.mem.granules with
  | some e => some (pg cTIR (gOwner e.2))
  | none => if 0 < s.zeroingCount a then some (pg cSCR a) else none

/-- A MIL page of an optical attachment that is ARMED or RUNNING. -/
def State.milBusy (s : State) (a : Nat) : Option Nat :=
  (([2 * a, 2 * a + 1] : List Nat).find? (fun p => s.milState p = msARMED || s.milState p = msRUNNING)).map (pg cMIL)

/-- The first condition that refuses an entry, with the page of the refuser. -/
def State.entryBad (s : State) (d target : Nat) : Option (Nat × Nat) :=
  let a := d - 812
  if s.lc.stage ≠ 0 then some (1, pLCS)
  else if s.flag pDBG PgDBG.CTRL_HALTED && (domPages d).contains (pg (s.fld pDBG PgDBG.CTRL_CLASS) (s.fld pDBG PgDBG.CTRL_INSTANCE)) then
    some (2, pDBG)
  else match s.domTest d with
    | some p => some (3, p)
    | none =>
      if 400 ≤ d && d < 800 && target = 1 && !s.plan.retOk.contains (d - 400) then some (4, pg cSKN (d - 400))
      else match (if 804 ≤ d && d < 812 && target = 2 then s.holdsData (d - 804) else none) with
        | some p => some (5, p)
        | none => match (if 812 ≤ d && d < 818 then s.milBusy a else none) with
          | some p => some (6, p)
          | none =>
            if 812 ≤ d && d < 818 && ([2 * a, 2 * a + 1] : List Nat).any (fun p => s.childPorts.contains p || s.parentPort = some p) then
              some (7, pMGT)
            else if d = 821 then
              ((List.range 821).find? (fun k => s.domOn k && k ≠ 821 && !(k < 820 && (domPages k).all s.pageAbsent))).map (fun k => (8, pg cPWR k))
            else if d = 823 && s.domOn 821 then some (8, pg cPWR 821)
            else none

/-- A refused entry (R576). -/
def State.refuseEntry (s : State) (d cause page : Nat) : State :=
  let p := pg cPWR d
  let s1 := (s.setReq d 0).count p PgPWR.COUNT_REFUSED 1
  (((s1.setFld p PgPWR.STATUS_REF_CAUSE cause).setFld p PgPWR.STATUS_REF_CLASS (pgCls page)).setFld p PgPWR.STATUS_REF_INST
    (pgInst page)).pwrResult d 2 0

/-! ### Entry and exit (R577-R580) -/

/-- Pages of the domain that work are quiesced. -/
def State.domQuiesce (s : State) (d : Nat) : State :=
  (domPages d).foldl (fun s p => if s.pageState p = stBUSY then s.setState p stQUIESCING else s) s

/-- An aborted entry releases its quiesce: a page that it held reaches IDLE when its last unit of work ends (02_register_pages.md R63), and
takes work again.
[DEDUCED, log entry 61] -/
def State.domRelease (s : State) (d : Nat) : State :=
  (domPages d).foldl (fun s p => s.pageFree p) ((domPages d).foldl (fun s p =>
    if s.pageState p = stQUIESCING && !s.pageWork p then s.setState p stIDLE else s) s)

/-- An exit starts (R580): a hank is delivered to anew, a site and the strands of an attachment train again.
[DEDUCED, log entry 52] -/
def State.exitStart (s : State) (d : Nat) : State :=
  let s1 := (s.setPhase d 6).setDom d { s.domSt d with wake := false }
  let off := (s.domSt d).st = 2
  let x := d - 800
  let a := d - 812
  if d < 400 then ((s1.setHank d {}).setDelivery d none)
  else if 800 ≤ d && d < 804 then
    (if s1.live (.site x) then (s1.setSiteLink x (if off then slTRAINING else slRETRAINING)).sendStatus x 1 else s1)
  else if 812 ≤ d && d < 818 then
    (List.range 4).foldl (fun s k =>
      if s.live (.strand a k) then s.setStrandState (4 * a + k) (if off then ssTRAINING else ssRETRAINING) else s)
      (s1.setFld (pg cFAB a) PgFAB.ENGINE_LASER_ON 1)
  else s1

/-- A domain moves toward its request (R575). -/
def State.powerTry (s : State) (d : Nat) : State :=
  let x := s.domSt d
  let req := s.domReq d
  if s.phase d ≠ 0 || req = x.st then s
  else if x.st ≠ 0 then s.exitStart d
  else match s.entryBad d req with
    | some (c, p) => s.refuseEntry d c p
    | none => ((s.setDom d { x with target := req, wake := false }).setPhase d 1).domQuiesce d

/-- The three entries that run to their end (R579). -/
def privileged (d target : Nat) : Bool := (804 ≤ d && d < 812 && target = 1) || (812 ≤ d && d < 818 && target = 2)

/-- A wake reaches a domain (R578, R579): an entry in its phases 1 to 3 is aborted; a later or privileged one completes and is reversed;
a domain at rest starts its exit.
[DEDUCED, log entry 53] -/
def State.wakeDom (s : State) (d : Nat) : State :=
  let x := s.domSt d
  let k := s.phase d
  if k = 6 then s
  else if k = 0 then (if x.st = 0 then s else (s.setReq d 0).powerTry d)
  else
    let s1 := s.setReq d 0
    if 4 ≤ k || privileged d x.target then s1.setDom d { s1.domSt d with wake := true }
    else ((((s1.setPhase d 0).domRelease d).count (pg cPWR d) PgPWR.COUNT_ABORTED 1).pwrResult d 3 1).powerTry d

/-- An entry passes from one phase to the next by the event that ends it. -/
def State.phaseStep (s : State) (d k : Nat) (f : State → State) : State :=
  let e := if d = 822 then 821 else d
  if 824 ≤ d || s.phase e ≠ k then s else (f s).setPhase e (k + 1)

/-- SAVE (R577): a slice writes its dirty lines back and invalidates its cache ways. -/
def State.domSave (s : State) (d : Nat) : State :=
  if 400 ≤ d && d < 800 then s.dropLines (d - 400) true (fun _ _ => true) else s

/-- ISOLATE (R577): a site is told NOT_READY and its protocol state is void (13_chiplet_sites.md R419); strands go DOWN with the lasers
off; a port's link goes down; a hank's tiles run elsewhere. -/
def State.domIsolate (s : State) (d : Nat) : State :=
  let x := d - 800
  let a := d - 812
  if d < 400 then s.hankGone d
  else if 800 ≤ d && d < 804 then
    ((((s.siteTasksEnd x tsSITE_ERROR).siteVoid x).agentGone x).setSiteLink x slDOWN).sendStatus x 0
  else if 812 ≤ d && d < 818 then
    (List.range 4).foldl (fun s k => s.setStrandState (4 * a + k) ssDOWN) (s.setFld (pg cFAB a) PgFAB.ENGINE_LASER_ON 0)
  else if 818 ≤ d && d < 820 then s.ethLink (d - 818) false
  else s

/-- Registers of a page that outlive its domain: the header (02_register_pages.md R53), those shared over the FAB pages, and in the wake
island MGT.I3C_CFG, the sleep and wake registers and the event queue (R585, R589; 22_fault_detection.md R628). -/
def outlives (p off : Nat) : Bool :=
  off < 0x100 || (pgCls p = cFAB && 0x108 ≤ off && off ≤ 0x120) ||
    (p = pMGT && (off = 0x108 || (0x200 ≤ off && off ≤ 0x218) || (0x380 ≤ off && off ≤ 0x3A8)))

/-- The block of a page loses its state: registers but those a slice keeps in Retention (R573), active copies, locks; STATE reads OFF. -/
def State.pageOff (s : State) (p : Nat) (ways : Bool) : State :=
  let keep (o : Nat) : Bool := outlives p o || (ways && pgCls p = cSKN && (o = 0x100 || o = 0x108))
  let s1 : State := { s with
    regs := s.regs.filter (fun e => e.1 / 512 ≠ p || keep (e.1 % 512 * 8))
    active := s.active.filter (fun e => e.1 / 512 ≠ p || keep (e.1 % 512 * 8))
    locks := s.locks.filter (fun l => l / 64 / 512 ≠ p) }
  ((s1.setFld p PgHDR.PAGE_STATE_COMMIT_BUSY 0).setFld p PgHDR.PAGE_STATE_STAGED_PENDING 0).setState p stOFF

/-- A stack held in reset loses its contents (R573; 08_memory_tiers.md R239): its sectors read as those nothing has written. No granule of it holds
data then (R576). -/
def State.stackLost (s : State) (a : Nat) : State :=
  { s with mem := { s.mem with
      hbm := s.mem.hbm.filter (fun e => decide (s.granuleAtt (e.1 / 0x200000) ≠ some a))
      hbmMeta := s.mem.hbmMeta.filter (fun e => decide (s.granuleAtt (e.1 / 65536) ≠ some a)) } }

/-- The supply has moved (R577 SWITCH): what the domain does not keep is lost. -/
def State.domLose (s : State) (d target : Nat) : State :=
  let s1 := (domPages d).foldl (fun s p => if s.pageAbsent p then s else s.pageOff p (target = 1)) s
  let x := d - 800
  let a := d - 812
  if d < 400 then s1.setHank d {}
  else if d < 800 then (if target = 2 then s1.zeroSlice (d - 400) else s1)
  else if d < 804 then
    { s1 with site := NMap.put s1.site {} x { hub := (s1.siteSt x).hub, trained := target = 1 && (s1.siteSt x).trained } }
  else if d < 812 then (if target = 2 then s1.stackLost (d - 804) else s1)
  else if d < 818 then
    ({ s1 with fab := { s1.fab with strands := s1.fab.strands.filter (fun e => e.1 / 4 ≠ a) } } : State)
  else if 818 ≤ d && d < 820 then s1.setEthPort (d - 818) {}
  else s1

/-- Management goes to sleep (R584): its sessions end and the wake timer starts.
[DEDUCED, log entry 54] -/
def State.mgmtAsleep (s : State) (target : Nat) : State :=
  let s1 := (s.sessionsEnd true).setFld pMGT PgMGT.SLEEP_MGMT_STATE target
  { s1 with boot := { s1.boot with wakeTimer := s1.fld pMGT PgMGT.WAKE_TIMER_MS ≠ 0 } }

/-- The last phase of an entry ends (R577); a wake that came too late starts the exit at once (R578, R579). -/
def State.switched (s : State) (d : Nat) : State :=
  let x := s.domSt d
  let p := pg cPWR d
  let s1 := s.domLose d x.target
  let s2 := if d = 821 then ((s1.domLose 822 x.target).setDom 822 { st := x.target }).setFld pMGT PgMGT.SLEEP_CORE_STATE x.target
    else if d = 823 then s1.mgmtAsleep x.target else s1
  let s3 := ((s2.setDom d { x with st := x.target, req := (s2.domSt d).req }).setPhase d 0).count p PgPWR.COUNT_ENTRIES 1
  let s4 := s3.pwrResult d 1 2
  if x.wake then ((s4.count p PgPWR.COUNT_ROUND_TRIPS 1).setFld p PgPWR.STATUS_LAST_RESULT 4).exitStart d
  else s4.powerTry d

/-- A page comes back with its domain (R574; 02_register_pages.md R50, R64): ENABLE stands as it was. With FENCE set its unit leaves the live
floor plan; a unit whose FENCE was cleared meanwhile returns.
[DEDUCED, log entry 231] -/
def State.pageBack (s : State) (p : Nat) : State :=
  if s.pageAbsent p then s
  else match pageUnit p with
    | some u =>
      let fence := s.flag p PgHDR.PAGE_CTRL_FENCE
      let s1 := if !fence && hasCap p capFence && (s.unit u).live = .fenced then s.returnUnit u else s
      if s1.live u then
        (if fence && hasCap p capFence then s1.removeUnit u .fenced scNONE else s1).setState p (if fence then stFENCED else stIDLE)
      else s1.setState p (if (s1.unit u).live = .fenced then stFENCED else stFAULTED)
    | none => s.setState p (if s.flag p PgHDR.PAGE_CTRL_FENCE then stFENCED else stIDLE)

/-- A unit's test on its domain's return fails (R620), with the part that failed. -/
def State.exitFails (s : State) (d : Nat) : State :=
  let f (s : State) (u : UnitId) (sub : Nat) : State := if s.live u then s.faultUnit u sub else s
  if d < 400 then f s (.hank d) scCHECK
  else if d < 800 then f s (.slice (d - 400)) scMEMORY
  else if d < 804 then f s (.site (d - 800)) scTRAINING
  else if d < 812 then f s (.hbmAtt (d - 804)) scTRAINING
  else if d < 818 then (List.range 4).foldl (fun s k => f s (.strand (d - 812) k) scLINK) s
  else if d < 820 then f s (.eth (d - 818)) scTRAINING
  else s

/-- An exit is complete (R580): the pages leave OFF; held accesses go on; a FAULTED Ethernet port whose lane test passes returns
(03_floor_plan.md R654). -/
def State.domBack (s : State) (d : Nat) (testOk : Bool) : State :=
  let off := (s.domSt d).st = 2
  let s1 := ((s.setDom d { s.domSt d with st := 0 }).setPhase d 0).pwrResult d 5 3
  let s2 := if testOk then s1 else s1.exitFails d
  let s3 := if testOk && off && 818 ≤ d && d < 820 && (s2.unit (.eth (d - 818))).live = .faulted then
      (s2.setFld (pg cETH (d - 818)) PgHDR.PAGE_CTRL_FENCE 0).returnUnit (.eth (d - 818))
    else s2
  let s4 := (domPages d).foldl State.pageBack s3
  let s5 := if 400 ≤ d && d < 800 then (if off then s4.wipeStart (d - 400) else (s4.releaseHeld (d - 400)).kick) else s4
  s5.powerTry d

/-- Every page of a domain passes through RESET. -/
def State.domReset (s : State) (d : Nat) : State := (domPages d).foldl (fun s p => s.setState p stRESET) s

/-- Core services and mesh are back: the exit from hub sleep is a resume, a device warm reset (R583). -/
def State.resume (s : State) : State :=
  let s1 := ((s.setDom 821 {}).setDom 822 {}).setFld pMGT PgMGT.SLEEP_CORE_STATE 0
  ((((s1.setPhase 821 0).pwrResult 821 5 3).domReset 821).domReset 822).warmStart .resume 3

/-- Management is back (R584): the ROT has restarted from mask ROM and measured the boot chain anew.
[DEDUCED, log entries 54, 59] -/
def State.mgmtBack (s : State) : State :=
  let s1 := (s.setDom 823 {}).setPhase 823 0
  let s2 := (s1.rotStart []).measureBoot s.plan.fuses
  (domPages 823).foldl State.pageBack (s2.pwrResult 823 5 3)

/-! ### Requests (R575, R582, R584, R590; 02_register_pages.md R59) -/

/-- A write of PWR_CTRL.REQ through a page (R59). -/
def State.powerWrite (s : State) (r : Requester) (p req : Nat) : State :=
  match pageDom p with
  | none => if req = 0 then s else s.order p r 0x48
  | some d =>
    if !hasCap p capPwr then (if req = s.domReq d then s else s.order p r 0x48)
    else if req = 3 then s.order p r 0x48
    else
      let s1 := s.setReq d req
      if req = 0 && s.phase d ≠ 0 then s1.wakeDom d else s1.powerTry d

def execPowerRequest (r : Requester) (cls inst req : Nat) (s : State) : Outcome State Fault Refusal :=
  .next (s.gateHdr r cls inst 0x48 (fun p s => s.powerWrite r p (req % 4)))

/-- A write of a MGT.SLEEP field: 3 is ignored (R590). -/
def State.sleepWrite (s : State) (r : Requester) (d : Nat) (f : Fld) (req : Nat) : State :=
  if req = 3 then s.order pMGT r 0x200
  else
    let s1 := s.setFld pMGT f req
    if req = 0 && s.phase d ≠ 0 then s1.wakeDom d else s1.powerTry d

/-- [DEDUCED, log entry 24] -/
def execCoreSleepRequest (r : Requester) (req : Nat) (s : State) : Outcome State Fault Refusal :=
  .next (s.gateHdr r cMGT 0 0x200 (fun _ s => s.sleepWrite r 821 PgMGT.SLEEP_CORE_REQ (req % 4)))

/-- [DEDUCED, log entry 24] -/
def execMgmtSleepRequest (r : Requester) (req : Nat) (s : State) : Outcome State Fault Refusal :=
  .next (s.gateHdr r cMGT 0 0x200 (fun _ s => s.sleepWrite r 823 PgMGT.SLEEP_MGMT_REQ (req % 4)))

/-! ### The phases (R577) -/

def execPowerQuiesceDone (d : Nat) (s : State) : Outcome State Fault Refusal := .next (s.phaseStep d 1 id)
def execPowerDrainDone (d : Nat) (s : State) : Outcome State Fault Refusal := .next (s.phaseStep d 2 id)
def execPowerSaveDone (d : Nat) (s : State) : Outcome State Fault Refusal :=
  .next (s.phaseStep d 3 (fun s => (s.domSave d).domIsolate d)).kick
def execPowerIsolateDone (d : Nat) (s : State) : Outcome State Fault Refusal := .next (s.phaseStep d 4 id)
def execPowerSwitchDone (d : Nat) (s : State) : Outcome State Fault Refusal :=
  let e := if d = 822 then 821 else d
  if 824 ≤ d || s.phase e ≠ 5 then .next s else .next (s.switched e)

/-- Traffic that needs the domain reaches it (R581): a wake while CFG.DEMAND_WAKE = 1. -/
def execPowerDemand (d : Nat) (s : State) : Outcome State Fault Refusal :=
  if 820 ≤ d || s.domAbsent d || (s.domOn d && s.phase d = 0) || !s.flag (pg cPWR d) PgPWR.CFG_DEMAND_WAKE then .next s
  else .next ((s.count (pg cPWR d) PgPWR.DEMANDS_WAKES 1).wakeDom d)

/-- [DEDUCED, log entry 51] -/
def execPowerExitDone (d : Nat) (testOk : Bool) (s : State) : Outcome State Fault Refusal :=
  let e := if d = 822 then 821 else d
  if 824 ≤ d || s.phase e ≠ 6 then .next s
  else if e = 821 then .next s.resume
  else if e = 823 then .next s.mgmtBack
  else .next (s.domBack e testOk)

/-! ### Wake sources (R585-R587) -/

/-- A wake source fires (R587): its bit, WAKE_N while PERST_N is asserted and PME_En set, and the wake of management, counted unless one is
under way. -/
def State.wakeMgmt (s : State) (src : Nat) : State :=
  let s1 := s.setFld pMGT PgMGT.WAKE_STATUS_SOURCE (s.fld pMGT PgMGT.WAKE_STATUS_SOURCE ||| 2 ^ src)
  let drive := s.boot.perst && s.host.pmeEn && natBit (s.fld pMGT PgMGT.WAKE_CFG_WAKE_N_EN) src && !s.boot.wakeN
  let s2 := if drive then ({ s1 with boot := { s1.boot with wakeN := true } } : State).emit (.wakeN true) else s1
  if s.phase 823 = 6 || (s.domOn 823 && s.phase 823 = 0) then s2
  else (s2.count pMGT PgMGT.WAKE_STATUS_COUNT 1).wakeDom 823

/-- Management is not On, or its entry can no longer be aborted. -/
def State.mgmtDown (s : State) : Bool := !s.domOn 823 || 4 ≤ s.phase 823

/-- An address header on I3C or SMBus that carries the hub's address, while management is not On (R585).
[DEDUCED, log entry 55] -/
def execI3cAddressMatch (addr : Nat) (s : State) : Outcome State Fault Refusal :=
  if !s.mgmtDown || !s.boot.aonOk || !s.boot.io18Ok || addr ≠ s.fld pMGT PgMGT.I3C_CFG_STATIC_ADDR then .next s
  else .next ((s.emit .i3cNack).wakeMgmt 0)

/-- WAKE_LVL crosses its threshold (R586): armed in Retention of management, deaf to pulses below 1 µs. -/
def execWakeLvlCrossing (mv : Nat) (falling : Bool) (ns : Nat) (s : State) : Outcome State Fault Refusal :=
  let thr := 10 * s.fld pMGT PgMGT.WAKE_CFG_LVL_THR
  if (s.domSt 823).st ≠ 1 || !s.flag pMGT PgMGT.WAKE_CFG_EN_LVL || ns < 1000 || falling ≠ s.flag pMGT PgMGT.WAKE_CFG_LVL_FALL ||
      (if falling then decide (thr < mv) else decide (mv < thr)) then .next s
  else .next (s.wakeMgmt 1)

/-- The wake timer expires (R589). -/
def execWakeTimerExpire (s : State) : Outcome State Fault Refusal :=
  if !s.boot.wakeTimer then .next s
  else
    let s1 : State := { s with boot := { s.boot with wakeTimer := false } }
    if s.flag pMGT PgMGT.WAKE_CFG_EN_TIMER then .next (s1.wakeMgmt 3) else .next s1

/-! ### PERST_N (R511, R575, R587; 16_host_endpoint.md R514-R516; 21_bring_up_and_reset.md R595) -/

/-- The host endpoint's domain goes Off with PERST_N (R575, R579): configuration space and HEP registers return to reset. -/
def State.hepOff (s : State) : State :=
  let cause := s.word pHEP 0x110
  let s1 := (((s.hostForget).pageOff pHEP false).setWord pHEP 0x110 cause).setDom 820 { st := 2 }
  let s2 := (s1.setFld pHEP PgHDR.PAGE_CTRL_ENABLE 0).setFld pHEP PgHDR.PAGE_CTRL_FENCE 0
  (s2.count (pg cPWR 820) PgPWR.COUNT_ENTRIES 1).pwrResult 820 1 2

/-- PERST_N is asserted: before ready it resets the host endpoint alone, after ready it starts a host-loss reset, during a warm reset it is
absorbed (R595). -/
def State.perstOn (s : State) : State :=
  let s1 : State := { s with boot := { s.boot with perst := true } }
  if !s.boot.pwrGood || s.rot.halted then s1
  else (s1.warmStart .warm 1).hepOff

/-- [DEDUCED, log entry 60] -/
def execPerstAssert (s : State) : Outcome State Fault Refusal := if s.boot.perst then .next s else .next s.perstOn

/-- PERST_N is deasserted: WAKE_N is released, the host endpoint comes On and may train, stages C2 to C8 may start (R595), and with
EN_PERST the hub wakes (R587). -/
def State.perstOff (s : State) : State :=
  let s0 : State := { s with boot := { s.boot with perst := false, wakeN := false } }
  let s1 := s0.emitIf s.boot.wakeN (.wakeN false)
  if !s.boot.pwrGood || s.rot.halted then s1
  else
    let s2 := (({ s1 with boot := { s1.boot with perstSeen := true } } : State).setDom 820 {}).setState pHEP stRESET
    let up := (s.boot.running = [] && s.boot.ended = [] && s.boot.wasReady) || s.boot.ended.contains 3 || s.boot.ended.contains 10
    let s3 := (if up && s2.domOn 821 then s2.pageResetDone pHEP else s2).pwrResult 820 5 3
    let s4 := if s3.flag pMGT PgMGT.WAKE_CFG_EN_PERST && (!s3.domOn 821 || s3.phase 821 ≠ 0) then (s3.wakeMgmt 2).wakeDom 821 else s3
    s4.bootCheck

/-- [DEDUCED, log entry 60] -/
def execPerstDeassert (s : State) : Outcome State Fault Refusal := if s.boot.perst then .next s.perstOff else .next s

end Sys2Proof.Machine
end

