-- ==== Sys2Proof/Machine/Host.lean ====
section
/-! DEFINITION. The host endpoint (16_host_endpoint.md): configuration space, device memory through BAR4, completions, MSI-X masks, Bus Master
Enable, power states, link events; IDE keys (19_trust_and_tenancy.md R571); loss of a reference clock (23_physical.md R646). -/
namespace Sys2Proof.Machine
open Host

/-! ### What may leave (R499, R507, R571) -/

/-- Vectors that are pending and may go now are sent, one message each (R499). -/
def State.sendPending (s : State) : State :=
  (s.host.msix.filter (fun e => e.2.pend && !e.2.mask)).foldl (fun s e =>
    if s.host.funcMask || !s.host.msixEn || !s.mayLeave e.2.addr then s
    else (s.setVec e.1 { s.vec e.1 with pend := false }).sendVector e.1) s

/-- ATS requests that waited for the link leave (R507).
[DEDUCED, log entry 129] -/
def State.sendAts (s : State) : State :=
  if !s.hostOpen then s
  else
    let xs := s.atu.xreqs.filter (fun x => !x.device && !x.sent)
    xs.foldl State.sendX { s with atu := { s.atu with xreqs := s.atu.xreqs.map (fun (x : XReq) => { x with sent := true }) } }

/-- One held request is looked at, in issue order: what may leave does; one behind a request that stays, on the same footing, stays too.
[DEDUCED, log entry 131] -/
def releaseOne (st : State × List HostReq × Bool) (q : HostReq) : State × List HostReq × Bool :=
  let s := st.1
  let room := match q.kind with
    | .read | .flush => decide (s.host.reads.length < 1024)
    | _ => true
  let go := match q.kind with
    | .pageReq => s.dlUp
    | _ => s.mayLeave q.addr && !st.2.2 && room
  if go then (s.hostSend q, st.2.1, st.2.2) else (s, st.2.1 ++ [q], st.2.2 || s.inStream q.addr)

/-- Held requests leave in order, as far as they may (R507 item 5).
[DEDUCED, log entry 131] -/
def State.hostRelease (s : State) : State :=
  let st := s.host.held.foldl releaseOne ({ s with host := { s.host with held := [] } }, [], false)
  (({ st.1 with host := { st.1.host with held := st.2.1 } } : State).syncHeld.sendPending.sendAts.sendPrgs)

/-- The hub has reached ready and no start runs. -/
def State.hubReady (s : State) : Bool := s.boot.wasReady && s.boot.running.isEmpty && s.boot.ended.isEmpty && s.lc.stage = 0

/-! ### Configuration space (R492, R493, R516, R303) -/

/-- A configuration write changes a field.
[PRESUMED, log entry 43] -/
def State.cfgWrite (s : State) : CfgField → State
  | .mse on => { s with host := { s.host with mse := on } }
  | .msix on mask => ({ s with host := { s.host with msixEn := on, funcMask := mask } } : State).sendPending
  | .ats on => if on then { s with host := { s.host with atsEn := true } } else if s.host.atsEn then s.atsOff else s
  | .pri on alloc =>
    let s1 : State := { s with host := { s.host with priAlloc := alloc } }
    if on then (if s.host.priEn then s1.sendPrgs.atuWork else s1.priCycle)
    else { s1 with host := { s1.host with priEn := false } }
  | .pasid on => { s with host := { s.host with pasidEn := on } }
  | .aspm on => { s with host := { s.host with l1En := on } }
  | .bar4 g => if s.host.mse || 9 < g then s else { s with host := { s.host with bar4Log := g } }
  | .pme en clear => { s with host := { s.host with pmeEn := en, pmeStatus := s.host.pmeStatus && !clear } }
  | .aer clear => { s with host := { s.host with aerPoison := s.host.aerPoison && !clear } }
  | .hdm d on base size dev =>
    if 8 ≤ d then s else { s with host := { s.host with hdm := NMap.put s.host.hdm {} d ⟨on, base, size, dev⟩ } }
  | .ide x assoc =>
    if 2 ≤ x || 4 < assoc.length then s
    else
      ({ s with rot := { s.rot with ide := NMap.put s.rot.ide {} x { NMap.getD s.rot.ide {} x with assoc := assoc } } } : State).hostRelease

/-- What a configuration read of a dword returns (R492): the identifying words and the enables the hub holds, at the places the PCIe
capabilities give them; `none` where the chapter states no contents.
[PRESUMED, log entry 43] -/
def State.cfgRead (s : State) (off : Nat) : Option Nat :=
  let h := s.host
  if off = 0x000 then some (Config.vendorId.toNat + (0x09A1 + s.plan.variant) * 2 ^ 16)
  else if off = 0x004 then some (2 * b2n h.mse + 4 * b2n h.bme)
  else if off = 0x008 then some (0x120000 * 2 ^ 8 + Config.stepping.toNat)
  else if off = 0x044 then some (s.fld pHEP PgHEP.LINK_STATUS_DSTATE + 8 + 2 ^ 8 * b2n h.pmeEn + 2 ^ 15 * b2n h.pmeStatus)
  else if off = 0x054 then some 0x0D010000
  else if off = 0x058 then some 0x0D018000
  else none

/-- PCIe extended capability identifiers at the offsets of R492, which chapter numbers none. -/
def extCapId : Nat → Option Nat
  | 0x100 => some 0x01 | 0x148 => some 0x03 | 0x158 => some 0x0F | 0x160 => some 0x13 | 0x170 => some 0x1B | 0x178 => some 0x18
  | 0x180 => some 0x1E | 0x190 => some 0x15 | 0x1A0 => some 0x19 | 0x1D0 => some 0x25 | 0x1E0 => some 0x26 | 0x210 => some 0x2A
  | 0x240 => some 0x31 | 0x260 => some 0x27 | 0x2B0 => some 0x2E | 0x2D0 => some 0x30 | 0x400 => some 0x23 | 0x460 => some 0x23
  | 0x480 => some 0x23 | _ => none

/-- Bits of a configuration dword that the chapter fixes, and their value (R490, R492, R493, R504), at the places the PCIe capabilities give
them: FLR, D1, D2 and L0s read as not supported. The other bits are free values.
[PRESUMED, log entry 43] -/
def State.cfgPart (s : State) (off : Nat) : Nat × Nat :=
  let h := s.host
  let low (k : Nat) : Nat := 2 ^ k - 1
  match off with
  | 0x00C => (0x7F0000, 0)
  | 0x010 => (low 28, 0x4)
  | 0x018 => (low 24, 0x4)
  | 0x020 => (low (min 32 (30 + h.bar4Log)), 0xC)
  | 0x040 => (0xFF + 2 ^ 25 + 2 ^ 26 + 2 ^ 28 + 2 ^ 29 + 2 ^ 30 + 2 ^ 31, 0x01 + 2 ^ 30 + 2 ^ 31)
  | 0x050 => (0xFF + 0xFFFF * 2 ^ 16, 0x11 + (2047 + 2 ^ 14 * b2n h.funcMask + 2 ^ 15 * b2n h.msixEn) * 2 ^ 16)
  | 0x060 => (0xFF + 0xFF * 2 ^ 16, 0x10 + 2 * 2 ^ 16)
  | 0x064 => (0x7 + 2 ^ 5 + 2 ^ 28, 2 + 2 ^ 5)
  | 0x06C => (0xFFF, 6 + 16 * 2 ^ 4 + 2 * 2 ^ 10)
  | 0x084 => (0xF + 7 * 2 ^ 7 + 2 ^ 11 + 3 * 2 ^ 16, 0xF + 7 * 2 ^ 7 + 2 ^ 11 + 3 * 2 ^ 16)
  | 0x08C => (0xFE, 0x7E)
  | 0x104 => (2 ^ 12, 2 ^ 12 * b2n h.aerPoison)
  | 0x15C => (2 ^ 31, 2 ^ 31 * b2n h.atsEn)
  | 0x164 => (1, b2n h.priEn)
  | 0x16C => (low 32, h.priAlloc)
  | 0x174 => (2 ^ 16, 2 ^ 16 * b2n h.pasidEn)
  | 0x408 => (0xFFFF, 0)
  | 0x468 => (0xFFFF, 7)
  | 0x488 => (0xFFFF, 8)
  | o => match extCapId o with
    | some i => (0xFFFF, i)
    | none => (0, 0)

/-- A configuration request: Request Retry Status until the hub is ready and has sent DRS (R516), else served.
[DESIGN CHOICE, log entry 44] -/
def State.configReq (s : State) (off : Nat) (w : Option CfgField) : State :=
  if !s.dlUp then s
  else if !s.host.drsSent then s.rxTlp.hostAnswer ⟨0, none, 3, false, []⟩
  else
    let s1 := s.rxTlp
    match w with
    | some f => (s1.cfgWrite f).hostAnswer ⟨0, none, 0, false, []⟩
    | none => match s1.cfgRead off with
      | some v => s1.hostReply ⟨s1.nextJoin, none, 0, false, natLe 4 v⟩
      | none =>
        let k := s1.cfgPart off
        let v := s1.fresh.1.toNat % 2 ^ 32
        s1.fresh.2.hostReply ⟨s1.nextJoin, none, 0, false, natLe 4 ((v - (v &&& k.1)) + (k.2 &&& k.1))⟩

def execConfigRequest (off : Nat) (w : Option CfgField) (s : State) : Outcome State Fault Refusal := .next (s.configReq off w)

/-! ### Device memory through BAR4 (R210, R494-R498) -/

/-- The active window that holds a BAR4 offset (R495). -/
def State.winOf (s : State) (off : Nat) : Option Nat :=
  (List.range 32).find? (fun w =>
    let b := s.actFld pHEP (PgHEP.WIN_MAP_BAR_BASE w) * 0x200000
    s.actFlag pHEP (PgHEP.WIN_MAP_ENABLE w) && decide (b ≤ off) && decide (off < b + s.actFld pHEP (PgHEP.WIN_MAP_LEN w) * 0x200000))

/-- The partition of a window. -/
def State.winPart (s : State) (w : Nat) : Nat := s.actFld pHEP (PgHEP.WIN_MAP_PART w)

/-- The address a window gives a BAR4 offset (R495). -/
def State.winAddr (s : State) (w off : Nat) : Option Addr :=
  let t := s.actFld pHEP (PgHEP.WIN_TGT_TGT_OFFSET w) * 0x200000 + (off - s.actFld pHEP (PgHEP.WIN_MAP_BAR_BASE w) * 0x200000)
  if s.actFlag pHEP (PgHEP.WIN_MAP_WINSEL w) then s.windowT2 (s.winPart w) t else windowT0 t

/-- The parts of a run of bytes at a BAR4 offset in a window, a read of 32 bytes or less on the sector path (R214): none where the window check
fails. -/
def State.winParts (s : State) (w off len : Nat) (read : Bool) (op : Nat → Nat → AccOp) : Option (List Part) :=
  (if read then pathCuts off len else cutsOf off len).mapM (fun c => (s.winAddr w (off + c.1)).map (fun a =>
    ({ addr := a, len := c.2, op := op c.1 c.2, sector := read && decide (len ≤ 32) } : Part)))

/-- A request that is refused (R496): logged and counted; a non-posted one is answered Unsupported Request, for KIND 2 Completer Abort. -/
def State.barRefuse (s : State) (kind off reqId : Nat) (posted : Bool) : State :=
  let s1 := s.closedLog kind off reqId posted
  if posted then s1 else s1.hostReply ⟨s1.nextJoin, none, if kind = 2 then 2 else 1, false, []⟩

/-- A request to BAR4 as it is decoded (R494-R496): `writes`, its parts in a window. -/
def State.barServe (s : State) (off reqId : Nat) (posted writes ide : Bool) (parts : Nat → Option (List Part)) : State :=
  if !s.dlUp || 2 ^ (30 + s.host.bar4Log) ≤ off then s
  else
    let s1 := s.rxTlp
    if !s1.hostReach then (if posted then s1 else s1.hostReply ⟨s1.nextJoin, none, 1, false, []⟩)
    else if !ide && (match s1.rot.owner with | some o => o.policy.ideRequired | none => false) then s1.barRefuse 0 off reqId posted
    else match s1.winOf off with
      | none => s1.barRefuse 0 off reqId posted
      | some w =>
        if writes && !s1.actFlag pHEP (PgHEP.WIN_MAP_WRITE w) then s1.barRefuse 1 off reqId posted
        else match parts w with
          | none => s1.barRefuse 2 off reqId posted
          | some ps =>
            (s1.workStart pHEP).serveParts (.host off reqId posted) 476 (s1.winPart w) (s1.fld (pg cTOL 476) PgTOL.CLASS_CFG_DEFAULT_CLASS)
              (if writes then s1.actFld pHEP (PgHEP.WIN_TGT_HINT w) else 0) .plain 5 ps

def execBar4Read (off len reqId : Nat) (ide : Bool) (s : State) : Outcome State Fault Refusal :=
  .next (s.barServe off reqId false false ide (fun w => s.winParts w off len true (fun _ _ => .read))).kick

/-- A poisoned TLP is reported through AER (R496) where the link carries it and its offset lies in BAR4. -/
def State.aerPoisoned (s : State) (off : Nat) : State :=
  if s.dlUp && decide (off < 2 ^ (30 + s.host.bar4Log)) then { s with host := { s.host with aerPoison := true } } else s

/-- A posted write; a poisoned one writes every sector it touches as poisoned and is reported (R496). -/
def execBar4Write (off reqId : Nat) (ide poisoned : Bool) (data : List Byte) (s : State) : Outcome State Fault Refusal :=
  .next ((if poisoned then s.aerPoisoned off else s).barServe off reqId true true ide (fun w =>
    s.winParts w off data.length false (fun o n => .write ((data.drop o).take n) (if poisoned then 3 else 0)))).kick

/-- A PCIe AtomicOp (R210): 0 FetchAdd, 1 Swap, 2 CAS map to the fetch forms of ADD, SWAP, CAS. -/
def hostAtomic (op : Nat) (operand : List Byte) : AccOp :=
  if op = 0 then .atomic 0 (if operand.length = 4 then 0 else if operand.length = 8 then 1 else 15) true operand
  else if op = 1 then .atomic (if operand.length = 16 then 15 else 4) 0 true operand
  else .atomic 5 0 true operand

def execHostAtomicop (off op reqId : Nat) (ide : Bool) (operand : List Byte) (s : State) : Outcome State Fault Refusal :=
  let a := hostAtomic op operand
  let n := match a with | .atomic o _ _ d => atomLen o d | _ => 0
  .next (s.barServe off reqId false true ide (fun w => (s.winAddr w off).map (fun x => [{ addr := x, len := n, op := a }]))).kick

/-! ### Completions (R304, R501, R502, R507) -/

/-- A translated read fails (R304): the translation it used is removed.
[DEDUCED, log entry 127] -/
def State.hostFail (s : State) (q : HostReq) : State :=
  if q.untranslated then s
  else s.tlbDrop (fun t =>
    (match s.ctx t.slot with | some c => !c.device | none => true) && !t.unt && decide (t.base ≤ q.addr) &&
      decide (q.addr < t.base + (if t.big then 2 ^ 30 else 2 ^ 21)))

/-- A read of the hub completes: its initiator is answered; posted writes before it have arrived, since reads do not pass them (R501); a
flush only ends (R502). Poisoned data arrive with their poison, by sectors (R278).
[DEDUCED, log entry 126] -/
def State.readDone (s : State) (q : HostReq) (ok : Bool) (data : List Byte) (pois : Nat) : State :=
  let h := s.host
  let s1 : State := { s with host := { h with reads := h.reads.filter (fun x => x.id ≠ q.id), posted := h.posted.filter (fun x => q.id ≤ x.id) } }
  let s2 := match q.kind, q.back with
    | .read, some (src, i) =>
      if ok then s1.answer src i q.task 0 data pois
      else (s1.hostFail q).answer src i q.task (if q.untranslated then tsTIER_FAIL else tsXLATE_REFUSED) [] 0
    | _, _ => s1
  s2.hostRelease.hostBusy

def execHostReadCompletion (id : Nat) (ok : Bool) (data : List Byte) (poison : Nat) (s : State) : Outcome State Fault Refusal :=
  match s.host.reads.find? (fun q => q.id = id) with
  | none => .next s
  | some q => if !s.dlUp then .next s else .next (s.rxTlp.readDone q ok data poison).kick

/-! ### MSI-X masks (R499) -/

/-- [DEDUCED, log entry 37] -/
def execMsixUnmask (v : Nat) (s : State) : Outcome State Fault Refusal :=
  if 2048 ≤ v || !s.hostReach then .next s else .next (s.rxTlp.setVec v { s.vec v with mask := false }).sendPending

/-! ### Bus Master Enable (R507) -/

def execBmeClear (s : State) : Outcome State Fault Refusal := .next { s with host := { s.host with bme := false } }
def execBmeSet (s : State) : Outcome State Fault Refusal :=
  if !s.dlUp then .next s else .next ({ s with host := { s.host with bme := true } } : State).hostRelease

/-- A request held for BME_HOLD_MS is discarded, its task fails with BME_OFF and is counted once; of a SIGNAL no record is written. -/
def State.holdTimeout (s : State) (q : HostReq) : State :=
  let failed := match q.task with | some t => NMap.getD s.taskErrs 0 (taskKey t) ≠ 0 | none => false
  let signal := match q.task with
    | some t => (match s.task? t with | some x => x.ty = 7 | none => false)
    | none => false
  let s1 := ({ s with host := { s.host with held := s.host.held.filter (fun x => !(x.id = q.id || (signal && x.task = q.task))) } } : State).syncHeld
  let s2 := if failed || q.task = none then s1 else s1.count pHEP PgHEP.BME_FAILED 1
  let s3 := match q.back with
    | some (src, i) => if q.kind = .read then s2.answer src i q.task tsBME_OFF [] 0 else s2
    | none => s2
  match q.task with
  | some t => if signal then s3.taskEnd t tsBME_OFF else s3.taskErr (some t) tsBME_OFF
  | none => s3

def execBmeHoldTimeout (id : Nat) (s : State) : Outcome State Fault Refusal :=
  match s.host.held.find? (fun q => q.id = id) with
  | none => .next s
  | some q => if q.kind = .pageReq || s.mayLeave q.addr then .next s else .next (s.holdTimeout q).kick

/-! ### Power states (R508-R511) -/

def execDstateChange (d3 : Bool) (s : State) : Outcome State Fault Refusal :=
  if !s.dlUp || s.d3hot = d3 then .next s
  else
    let s1 := (s.rxTlp.setFld pHEP PgHEP.LINK_STATUS_DSTATE (if d3 then 3 else 0)).setInt pHEP 5
    .next (if d3 then s1 else s1.hostRelease)

def execPmeTurnOff (s : State) : Outcome State Fault Refusal :=
  if !s.dlUp then .next s else .next { s.rxTlp with host := { s.rxTlp.host with turnOff := true } }

/-- PME_TO_Ack (R511): once every read has completed and every posted write been transmitted; held requests stay. -/
def execPmeToAck (s : State) : Outcome State Fault Refusal :=
  if !s.host.turnOff || !s.host.reads.isEmpty || !s.dlUp then .next s
  else
    let s1 : State := { s with host := { s.host with turnOff := false, posted := [] } }
    .next ((s1.emit .pmeToAck).setFld pHEP PgHEP.LINK_STATUS_PM 3)

/-- ASPM L1, L1.1 (`sub` false) or L1.2 (R509): the link is idle both ways; L1.2 needs the LTR value of an idle hub. -/
def execL1Entry (sub : Bool) (s : State) : Outcome State Fault Refusal :=
  if !s.dlUp || !(s.host.l1En || s.d3hot) || !s.host.reads.isEmpty || (sub && !s.host.held.isEmpty) || s.fld pHEP PgHEP.LINK_STATUS_PM = 3 then
    .next s
  else .next (({ s with host := { s.host with posted := [] } } : State).setFld pHEP PgHEP.LINK_STATUS_PM (if sub then 2 else 1))

/-! ### Link events (R512-R516) -/

/-- A speed (1 to 6: 2.5 to 64.0 GT/s) and a width the link supports (R490): ×2 is not. -/
def linkOk (speed width : Nat) : Bool :=
  1 ≤ speed && speed ≤ 6 && (width = 1 || width = 4 || width = 8 || width = 16)

/-- Speed and width as negotiated; a change raises SPEED_CHANGE (R512). -/
def execLinkRecovery (speed width replayed : Nat) (s : State) : Outcome State Fault Refusal :=
  if !s.dlUp || !linkOk speed width then .next s
  else
    let differ := decide (s.fld pHEP PgHEP.LINK_STATUS_SPEED ≠ speed) || decide (s.fld pHEP PgHEP.LINK_STATUS_WIDTH ≠ width)
    let s1 := (s.count pHEP PgHEP.PERF1_RECOVERIES 1).count pHEP PgHEP.PERF1_REPLAYS replayed
    let s2 := ((s1.setFld pHEP PgHEP.LINK_STATUS_SPEED speed).setFld pHEP PgHEP.LINK_STATUS_WIDTH width).setFld pHEP PgHEP.LINK_STATUS_PM 0
    .next (if differ then s2.setInt pHEP 4 else s2)

def execLinkDown (acked : Nat) (s : State) : Outcome State Fault Refusal := if s.dlUp then .next (s.hostDown acked) else .next s

/-- A posted write is transmitted again, as it was (R513).
[DEDUCED, log entry 133] -/
def State.rePost (s : State) (q : HostReq) : State :=
  s.txTlp.emit (match q.kind with | .msix => .msix q.pasid q.addr (s.vec q.pasid).data | _ => .hostReq q)

/-- A read is issued again with a new tag (R513). -/
def State.reRead (s : State) (q : HostReq) : State :=
  let q1 := { q with id := s.host.nextReq }
  ({ s with host := { s.host with nextReq := s.host.nextReq + 1, reads := s.host.reads ++ [q1] } } : State).txTlp.emit (.hostReq q1)

/-- DL_Up (R513, R516): unacknowledged writes in order, reads and translation requests anew; a hub that is ready sends DRS if it has not;
held requests leave.
[DEDUCED, log entry 132] -/
def State.hostUp (s : State) (speed width : Nat) (flit cxl : Bool) : State :=
  let s1 := (((s.setFld pHEP PgHEP.LINK_STATUS_DL_UP 1).setFld pHEP PgHEP.LINK_STATUS_SPEED speed).setFld pHEP PgHEP.LINK_STATUS_WIDTH width).setFld
    pHEP PgHEP.LINK_STATUS_PM 0
  let s2 := (s1.setFld pHEP PgHEP.LINK_STATUS_FLIT (b2n flit)).setFld pHEP PgHEP.LINK_STATUS_CXL (b2n cxl)
  let old := s2.host.reads
  let s3 := s2.host.posted.foldl State.rePost { s2 with host := { s2.host with grace := false, reads := [] } }
  let s4 := old.foldl State.reRead s3
  let s5 : State := { s4 with atu := { s4.atu with xreqs := s4.atu.xreqs.map (fun (x : XReq) => if x.device then x else { x with sent := false }) } }
  let s6 := if s5.hubReady && !s5.host.drsSent then ({ s5 with host := { s5.host with drsSent := true } } : State).emit .drs else s5
  (s6.setInt pHEP 1).hostRelease

/-- The link comes up, at a speed and width the hub supports, 64 GT/s and CXL in flit mode (R490, R504); it is held down where the host endpoint
or its edge router is lost (03_floor_plan.md R91). -/
def execLinkUp (speed width : Nat) (flit cxl : Bool) (s : State) : Outcome State Fault Refusal :=
  if s.dlUp || s.boot.perst || !s.boot.pwrGood || !s.domOn 820 || s.lc.stage ≠ 0 || !s.live .host || !linkOk speed width ||
      (speed = 6 && !flit) || (cxl && !flit) then .next s else .next (s.hostUp speed width flit cxl)

/-- The grace period ends with the link still down (R514): a host-loss reset. -/
def execGraceExpire (s : State) : Outcome State Fault Refusal :=
  if s.dlUp || !s.host.grace then .next s
  else .next (({ s with host := { s.host with grace := false } } : State).warmStart .warm 2)

/-! ### IDE keys (19_trust_and_tenancy.md R571) -/

/-- A message of IDE_KM for a stream inside a DOE secure session; its answer names the message. -/
def State.ideKm (s : State) (stream kind : Nat) (f : IdeStream → IdeStream) (vals : IdeStream → List Nat) : State :=
  if 2 ≤ stream || !s.rot.sessions.any (fun x => x.up && x.tr = Transport.doe) then s
  else
    let x := f (NMap.getD s.rot.ide {} stream)
    (({ s with rot := { s.rot with ide := NMap.put s.rot.ide {} stream x } } : State).emit (.spdm .doe kind (stream :: vals x))).hostRelease

def execKeyProg (stream set : Nat) (s : State) : Outcome State Fault Refusal :=
  .next (s.ideKm stream 0x100 (fun x => if 2 ≤ set || x.prog.contains set then x else { x with prog := x.prog ++ [set] }) (fun _ => [set]))
def execKSetGo (stream set : Nat) (s : State) : Outcome State Fault Refusal :=
  .next (s.ideKm stream 0x101 (fun x => if x.prog.contains set then { x with go := some set } else x) (fun _ => [set]))
def execKSetStop (stream set : Nat) (s : State) : Outcome State Fault Refusal :=
  .next (s.ideKm stream 0x102 (fun x => { x with prog := x.prog.filter (fun k => k ≠ set), go := if x.go = some set then none else x.go })
    (fun _ => [set]))
def execIdeQuery (stream : Nat) (s : State) : Outcome State Fault Refusal :=
  .next (s.ideKm stream 0x103 (fun x => x) (fun x => [(x.prog.map (fun k => 2 ^ k)).foldl (· + ·) 0, match x.go with | some k => k + 1 | none => 0]))

/-! ### Reference clocks (23_physical.md R639, R646) -/

/-- A reference clock is lost: the links of its interface go down, the rest runs on. TREF_IN is ignored away from the time root, whose step
cells keep their rate; MGMT_REFCLK times only the management SGMII.
[DEDUCED, log entry 82] -/
def State.clockLost (s : State) : RefClk → State
  | .pcie => if s.dlUp then s.hostDown 0 else s
  | .eth => (s.ethLink 0 false).ethLink 1 false
  | .hbm =>
    let s1 := ((List.range 24).filter (fun g => s.strandState g = ssUP)).foldl (fun s g => s.strandRetrain g true) s
    ((List.range 256).filter s1.chLive).foldl State.retrainStart s1
  | .mgmt => s
  | .tref => s

def execRefclkLoss (clk : RefClk) (s : State) : Outcome State Fault Refusal := .next (s.clockLost clk)

end Sys2Proof.Machine
end

