-- ==== Sys2Proof/Machine/PageOps.lean ====
section
/-! DEFINITION. Header control of the pages (02_register_pages.md R55-R72): fence, quiesce, enable, commit, block reset, owner, parity; changes
of the live floor plan (03_floor_plan.md R88). -/
namespace Sys2Proof.Machine
open Host

/-! ### Fence (R65) -/

/-- A requested commit is applied (R69, R70).
[DEDUCED, log entries 135, 144] -/
def State.commitApply (s : State) (p : Nat) : State :=
  let i := pgInst p
  let c := pgCls p
  if !s.flag p PgHDR.PAGE_STATE_COMMIT_BUSY then s
  else if c = cSKN then
    if 0 < s.openTxns i then s else if s.wayCommitBad i then (s.commitRefuse p).releaseHeld i else s.wayMapCommit i
  else if c = cTIR then
    if s.tirCommitBad i then s.commitRefuse p
    else if s.tirOverQuota i then (s.setFld p PgTIR.GCMD_RESULT 4).commitRefuse p
    else if !s.tirCommitReady i then s.tirCommitStart i
    else ((s.tirCommitApply i).copyStaged p).commitDone p
  else if c = cSIT then
    if (s.siteSt i).binding then s else let ch := s.funcsChanged i; (s.copyStaged p).siteBind i ch
  else if c = cHEP then (if winsBad s then s.commitRefuse p else (s.copyStaged p).commitDone p)
  else if c = cMIL then s
  else (s.copyStaged p).commitDone p

/-- A software fence that is ignored (11_mesh_and_regulation.md R337, R353): of edge router 434 or 437, or of a grid router whose removal would
break R91. -/
def State.fenceBreaks (s : State) : UnitId → Bool
  | .router n => n = 434 || n = 437 || (n < 400 && (((UnitId.router n) :: unitDependents (.router n)).foldl (fun s d =>
      if s.live d then s.setUnit d { s.unit d with live := .fenced } else s) s).meshBroken)
  | _ => false

/-- The block stops in FENCED with a sub-cause (R65, R72): its unit leaves the live floor plan as FENCED, its work ends in error, and a commit
that waits completes.
[DEDUCED, log entry 135] -/
def State.fenceStop (s : State) (p sub : Nat) : State :=
  match pageUnit p with
  | some u => if s.live u then s.removeUnit u .fenced sub else (s.setState p stFENCED).commitStop p
  | none => (s.setState p stFENCED).commitApply p

/-- FENCE is set (R65). In OFF and RESET, and in a page that is FENCED or FAULTED by another cause, the bit is stored and nothing else
changes: it holds the block when it would leave that state.
[DEDUCED, log entry 231] -/
def State.fenceSet (s : State) (r : Requester) (p : Nat) : State :=
  let st := s.pageState p
  if !hasCap p capFence || (r ≠ .hub && (match pageUnit p with | some u => s.fenceBreaks u | none => false)) then s.order p r 0x18
  else
    let s1 := s.setFld p PgHDR.PAGE_CTRL_FENCE 1
    if st = stOFF || st = stRESET || st = stFENCED || st = stFAULTED then s1 else s1.fenceStop p scNONE

/-- Strands of an attachment that were fenced with their port rejoin when FENCE is cleared (14_fabric_links.md R445, R450). -/
def State.strandsBack (s : State) (p : Nat) : State :=
  let a := pgInst p
  let ks := if pgCls p = cFAB then (List.range 4).filter (fun k => decide ((s.unit (.strand a k)).live = .fenced)) else []
  ks.foldl (fun s k => (s.returnUnit (.strand a k)).pumpStrand (4 * a + k)) s

/-- FENCE is cleared (R65): the block returns to IDLE and its unit to the live floor plan, where what it needs is live (03_floor_plan.md R89);
refused with ORDER while FAULTED. A page without FENCE that a parity error stopped returns by the same write (R72).
[DEDUCED, log entry 19] -/
def State.fenceClear (s : State) (r : Requester) (p : Nat) : State :=
  let st := s.pageState p
  if st = stFAULTED then s.order p r 0x18
  else
    let s1 := (s.setFld p PgHDR.PAGE_CTRL_FENCE 0).strandsBack p
    if st ≠ stFENCED then s1
    else match pageUnit p with
      | some u =>
        if !hasCap p capFence then (if s1.live u then (s1.setState p stIDLE).pageFree p else s1)
        else
          let s2 := if (s1.unit u).live = .fenced then s1.returnUnit u else s1
          (s2.backPages [u]).pageFree p
      | none => (s1.setState p stIDLE).pageFree p

/-! ### Quiesce and enable (R63) -/

/-- No new work starts; work in flight finishes. -/
def State.holdPage (s : State) (p : Nat) : State := if s.pageState p = stBUSY then s.setState p stQUIESCING else s

/-- The hub works again: REQ credits that a quiescing site was not given back go to it (13_chiplet_sites.md R415).
[DEDUCED, log entry 136] -/
def State.quiesceClear (s : State) (p : Nat) : State :=
  let s1 := s.setFld p PgHDR.PAGE_CTRL_QUIESCE_REQ 0
  let x := pgInst p
  let s2 := if pgCls p = cSIT then
      (s1.siteSt x).chans.foldl (fun s e => s.aspFree x e.1 0 (e.2.used.getD 0 0)) s1
    else s1
  s2.pageFree p
def State.enableSet (s : State) (p : Nat) : State := (s.setFld p PgHDR.PAGE_CTRL_ENABLE 1).pageFree p
def State.enableClear (s : State) (p : Nat) : State := (s.setFld p PgHDR.PAGE_CTRL_ENABLE 0).holdPage p

/-- A quiesced slice writes back every dirty line and keeps it clean (07_skein_memory.md R224). -/
def State.sliceClean (s : State) (n : Nat) : State :=
  (s.linesOf n).foldl (fun s x =>
    if x.2.2.dirty = 0 then s else (s.writeBackLine n x.1 x.2.1 x.2.2).setTag n x.1 x.2.1 { x.2.2 with dirty := 0 }) s

/-- QUIESCE_REQ is set: the page is held; an idle slice has nothing in flight and writes back at once (07_skein_memory.md R224).
[DEDUCED, log entry 109] -/
def State.quiesceSet (s : State) (r : Requester) (p : Nat) : State :=
  if !hasCap p capQuiesce then s.order p r 0x18
  else
    let s1 := (s.setFld p PgHDR.PAGE_CTRL_QUIESCE_REQ 1).holdPage p
    if pgCls p = cSKN && s1.pageState p = stIDLE then s1.sliceClean (pgInst p) else s1

/-- The last in-flight unit of a QUIESCING block ends. -/
def State.quiesceDone (s : State) (p : Nat) : State :=
  if s.pageState p ≠ stQUIESCING || s.pageWork p then s
  else ((if pgCls p = cSKN then s.sliceClean (pgInst p) else s).setState p stIDLE).pageFree p

/-! ### Commit request (R69, R70) -/

def State.commitRequest (s : State) (r : Requester) (p : Nat) : State :=
  let st := s.pageState p
  if !hasCap p capStaged || st = stOFF || st = stRESET || s.flag p PgHDR.PAGE_STATE_COMMIT_BUSY then s.order p r 0x20
  else
    let s1 := s.setFld p PgHDR.PAGE_STATE_COMMIT_BUSY 1
    if pgCls p = cMIL then s1.milRequest (pgInst p) else s1

/-! ### Block reset (R60) -/

/-- [DEDUCED, log entry 74] -/
def State.blockRst (s : State) (r : Requester) (p : Nat) : State :=
  if !hasCap p capRst || s.pageState p = stOFF then s.order p r 0x58
  else if s.flag p PgHDR.RST_CTRL_BLOCK_RST then s
  else s.blockReset p

/-! ### Interrupt injection (R58) -/

/-- The bits of INT_STATUS and INT_ENABLE (R57). -/
def intMask : Nat := 7 <<< 61 + (2 ^ 56 - 1)

/-- Writing 1 to bits of INT_TEST sets the same bits of INT_STATUS. -/
def State.intTest (s : State) (r : Requester) (p v : Nat) : State :=
  if v &&& intMask = 0 then s
  else if !hasCap p capInt then s.order p r 0x40
  else s.withIrq p (fun s => s.setWord p 0x30 (s.word p 0x30 ||| BitVec.ofNat 64 (v &&& intMask)))

/-! ### Owner (R62, R68, R73-R75) -/

/-- A write of OWNER: values, rights, then the rule of QUIESCE fields. -/
def State.ownerWrite (s : State) (r : Requester) (p v : Nat) : State :=
  let part := natBits v 12 8
  let ac := natBits v 1 0
  let old := s.accessClass p
  if r = .host then s.pageErr p .access r 0x68
  else if (16 ≤ part && part ≤ 30) || ac = 3 then s.order p r 0x68
  else if r = .mgmt && ac ≠ old && (classAccess (pgCls p) ≠ 0 || ac = 2) then s.pageErr p .access r 0x68
  else if !s.quiet p then s.pageErr p .qwrite r 0x68
  else (s.setFld p PgHDR.OWNER_PARTITION part).setFld p PgHDR.OWNER_ACCESS_CLASS ac

/-- A write of the half of OWNER that holds no field (R61, R68, R74): refused as every write of the register is. -/
def State.ownerHigh (s : State) (r : Requester) (p : Nat) : State :=
  if r = .host then s.pageErr p .access r 0x6C else if !s.quiet p then s.pageErr p .qwrite r 0x6C else s

/-! ### Parity (R72) -/

/-- A register of a page fails its parity check: the block is fenced, with sub-cause PARITY (03_floor_plan.md R80), and the event reported
CONTAINED. A page without FENCE stops alone and its unit stays.
[DEDUCED, log entry 137] -/
def State.regParityFail (s : State) (p off : Nat) : State :=
  let s1 := s.pageErr p .parity .hub off
  let s2 := if s1.pageState p = stIDLE || s1.pageState p = stBUSY || s1.pageState p = stQUIESCING then
      (if hasCap p capFence then (s1.setFld p PgHDR.PAGE_CTRL_FENCE 1).fenceStop p scPARITY else (s1.setState p stFENCED).commitApply p)
    else s1
  s2.report true (s2.ev .contained evPARITY scNONE p (s2.ownerPart p) off 0)

/-! ### Rows -/

def execFenceSet (r : Requester) (cls inst : Nat) (s : State) : Outcome State Fault Refusal :=
  .next (s.gateHdr r cls inst 0x18 (fun p s => s.fenceSet r p)).kick
def execFenceClear (r : Requester) (cls inst : Nat) (s : State) : Outcome State Fault Refusal :=
  .next (s.gateHdr r cls inst 0x18 (fun p s => s.fenceClear r p)).kick
def execQuiesceReqSet (r : Requester) (cls inst : Nat) (s : State) : Outcome State Fault Refusal :=
  .next (s.gateHdr r cls inst 0x18 (fun p s => s.quiesceSet r p))
def execQuiesceReqClear (r : Requester) (cls inst : Nat) (s : State) : Outcome State Fault Refusal :=
  .next (s.gateHdr r cls inst 0x18 (fun p s => s.quiesceClear p)).kick
def execEnableSet (r : Requester) (cls inst : Nat) (s : State) : Outcome State Fault Refusal :=
  .next (s.gateHdr r cls inst 0x18 (fun p s => s.enableSet p)).kick
def execEnableClear (r : Requester) (cls inst : Nat) (s : State) : Outcome State Fault Refusal :=
  .next (s.gateHdr r cls inst 0x18 (fun p s => s.enableClear p))

def execQuiesceComplete (cls inst : Nat) (s : State) : Outcome State Fault Refusal :=
  if s.pageAbsent (pg cls inst) || 2048 ≤ inst then .next s else .next (s.quiesceDone (pg cls inst)).kick

def execCommitRequest (r : Requester) (cls inst : Nat) (s : State) : Outcome State Fault Refusal :=
  .next (s.gateHdr r cls inst 0x20 (fun p s => s.commitRequest r p))

def execCommitApply (cls inst : Nat) (s : State) : Outcome State Fault Refusal :=
  if s.pageAbsent (pg cls inst) || 2048 ≤ inst then .next s else .next (s.commitApply (pg cls inst)).kick

def execBlockRst (r : Requester) (cls inst : Nat) (s : State) : Outcome State Fault Refusal :=
  .next (s.gateHdr r cls inst 0x58 (fun p s => s.blockRst r p)).kick

/-- A block reset completes (R60, R654); `testOk`: what the reset tests of the unit passed. A hank's reset ends with its self-test, a site's
with its enumeration, so those are other commands. -/
def execBlockRstComplete (cls inst : Nat) (testOk : Bool) (s : State) : Outcome State Fault Refusal :=
  let p := pg cls inst
  if 2048 ≤ inst || s.pageAbsent p || !s.flag p PgHDR.RST_CTRL_BLOCK_RST || s.pageState p ≠ stRESET || !s.pageOn p || cls = cHNK || cls = cBOB
      || cls = cSIT then .next s
  else
    let s1 := match pageUnit p with
      | some u => if !testOk && s.live u then s.faultUnit u scNONE else s
      | none => s
    .next (s1.blockResetDone p).kick

/-- INT_TEST holds BLK, which crosses bit 31, so only a 64-bit write acts (R61). -/
def execIntTestWrite (r : Requester) (cls inst size : Nat) (high : Bool) (data : Nat) (s : State) : Outcome State Fault Refusal :=
  let off := 0x40 + (if high && size = 4 then 4 else 0)
  .next (s.gateHdr r cls inst off (fun p s =>
    if size = 8 then s.intTest r p (mergeHalf 0 size high data) else s.pageErr p .access r off))

def execOwnerWrite (r : Requester) (cls inst data : Nat) (s : State) : Outcome State Fault Refusal :=
  .next (s.gateHdr r cls inst 0x68 (fun p s => s.ownerWrite r p data))

/-- The background sweep visits a page (R72): `bad`, the register that fails, if one does. -/
def execParitySweep (cls inst : Nat) (bad : Option Nat) (s : State) : Outcome State Fault Refusal :=
  if 2048 ≤ inst || s.pageAbsent (pg cls inst) then .next s
  else match bad with
    | some off => .next (s.regParityFail (pg cls inst) off).kick
    | none => .next s

/-- A change of the live floor plan (03_floor_plan.md R88): a fence, a lasting fault, the start of an in-service test of a hank or of strands,
or the return of a unit whose test passed. -/
def State.floorChange (s : State) (u : UnitId) (c : Cause) (sub : Nat) : State :=
  match c with
  | .faulted =>
    if s.absent u || (s.unit u).live = .faulted then s
    else match u with
      | .spindle n j => if 400 ≤ n || 64 ≤ j then s else s.spindleLost n j
      | _ => s.faultUnit u sub
  | .fenced =>
    if s.live u then
      (match (unitPages u).find? (fun p => hasCap p capFence) with | some p => s.fenceSet .hub p | none => s.removeUnit u .fenced scNONE)
    else s
  | .inTest =>
    (match u with
     | .hank _ => if s.live u then s.removeUnit u .inTest scNONE else s
     | .strand _ _ => if s.live u then s.removeUnit u .inTest scNONE else s
     | _ => s)
  | .good => if (s.unit u).live = .inTest then s.returnUnit u else s
  | .degraded => if (s.unit u).live = .inTest then s.returnUnit u else s
  | _ => s

def execFloorPlanChange (u : UnitId) (cause : Cause) (sub : Nat) (s : State) : Outcome State Fault Refusal := .next (s.floorChange u cause sub).kick

end Sys2Proof.Machine
end

