-- ==== Sys2Proof/Machine/LifeCycle.lean ====
section
/-! DEFINITION. Life-cycle transitions and the debug page (18_life_cycle.md R535-R552). -/
namespace Sys2Proof.Machine
open Host

/-! ### The write of TARGET (R536, R537, R546) -/

/-- A row of R536: whether management and the TAP may ask for it, and whether it erases user secrets. -/
structure LcRow where
  mgmt : Bool
  tap : Bool
  erase : Bool

/-- The transitions the hub accepts (R536). -/
def lcRow (src target : Nat) : Option LcRow :=
  let live := src = lcPROVISIONED || src = lcDEPLOYED || src = lcFIELD_DEBUG
  if target = lcTEST then (if src = lcBLANK then some ⟨false, true, false⟩ else none)
  else if target = lcPROVISIONED then (if src = lcTEST then some ⟨false, true, false⟩ else none)
  else if target = lcDEPLOYED then
    (if src = lcPROVISIONED then some ⟨true, false, false⟩ else if src = lcFIELD_DEBUG then some ⟨true, false, true⟩ else none)
  else if target = lcFIELD_DEBUG then (if src = lcDEPLOYED then some ⟨true, false, true⟩ else none)
  else if target = lcRETURNED then (if live then some ⟨true, false, true⟩ else none)
  else if target = lcSCRAPPED then
    (if live then some ⟨true, false, true⟩ else if src = lcBLANK || src = lcTEST || src = lcRETURNED then some ⟨true, true, false⟩ else none)
  else none

/-- The slot a transition uses (R539): 31 for SCRAPPED, else the lowest unused of 0 to 30.
[DEDUCED, log entry 138] -/
def LcSt.freeSlot (l : LcSt) (target : Nat) : Option Nat :=
  if target = lcSCRAPPED then (if NMap.getD l.slots 0 31 = 0 then some 31 else none)
  else (List.range 31).find? (fun i => decide (NMap.getD l.slots 0 i = 0))

/-- The open slot of an incomplete transition (R540). -/
def LcSt.openSlot (l : LcSt) : Option Nat :=
  match ((List.range 32).filter (fun i => slotValid (NMap.getD l.slots 0 i))).getLast? with
  | some i => if natBit (NMap.getD l.slots 0 i) 63 then none else some i
  | none => none

/-- The write completes the recorded transition (R546). -/
def LcSt.completes (l : LcSt) (target : Nat) : Bool := l.incomplete && decide (target = l.intentTarget)

/-- RESULT of a write of TARGET (R537): the lowest code that applies (R651).
[DEDUCED, log entry 91] -/
def State.lcResult (s : State) (path : LcPath) (target : Nat) : Nat :=
  let l := s.lc
  if l.completes target then (if (l.openSlot = none) && l.freeSlot target = none then 4 else 0)
  else match lcRow l.state target with
    | none => 1
    | some row =>
      if l.incomplete && target ≠ lcSCRAPPED then 2
      else if target = lcFIELD_DEBUG && 16 ≤ excCount l.excWord then 3
      else if l.freeSlot target = none then 4
      else if l.state = lcPROVISIONED && target = lcDEPLOYED && s.rot.owner = none then 5
      else if (match path with | .mgmt => row.mgmt | .tap => row.tap) then 0
      else 7

/-- A write of TARGET on a path (R537, R542 T0): ignored with ORDER while one is in progress, refused with its RESULT, or accepted. -/
def State.lcTarget (s : State) (r : Requester) (path : LcPath) (target : Nat) : State :=
  if s.flag pLCS PgLCS.STATUS_BUSY then s.order pLCS r 0x108
  else
    let res := s.lcResult path target
    let s1 := s.setFld pLCS PgLCS.STATUS_RESULT res
    if res ≠ 0 then s1
    else
      let l := s.lc
      let slot := match (if l.completes target then l.openSlot else none) with | some i => i | none => (l.freeSlot target).getD 31
      let wipe := if l.completes target then l.intentWipe else match lcRow l.state target with | some r => r.erase | none => false
      (({ s1 with lc := { l with stage := 1, target := target, src := if l.completes target then l.intentFrom else l.state, wipe := wipe, slot := slot } } :
        State).setFld pLCS PgLCS.STATUS_BUSY 1).workStart pLCS

/-- [DEDUCED, log entry 39] -/
def execLcsTargetWrite (r : Requester) (target : Nat) (s : State) : Outcome State Fault Refusal :=
  .next (s.gateBlk r cLCS 0 0x108 (fun _ s => s.lcTarget r .mgmt (target % 16)))

/-! ### The sequence (R541-R545) -/

/-- DBG leaves MGMT-ONLY (R548, R551): its halt is released. -/
def State.dbgClose (s : State) : State :=
  let t := pg (s.fld pDBG PgDBG.CTRL_CLASS) (s.fld pDBG PgDBG.CTRL_INSTANCE)
  let on := s.flag pDBG PgDBG.CTRL_HALT
  let s1 := ((s.setFld pDBG PgHDR.OWNER_ACCESS_CLASS 2).setFld pDBG PgDBG.CTRL_HALT 0).setFld pDBG PgDBG.CTRL_HALTED 0
  let s2 : State := { s1 with tap := { s1.tap with step := false, arrays := [] } }
  if on then s2.pageFree t else s2

/-- Where the sequence goes after the transition reset (R545, R546): a recorded slot is not written again, a finished erase not repeated. -/
def LcSt.afterReset (l : LcSt) : Nat :=
  let v := NMap.getD l.slots 0 l.slot
  if !slotValid v then 2 else if l.wipe && !natBit v 62 then 3 else 4

/-- T1: the transition reset (R542, R543), in which every slice is wiped (07_skein_memory.md R225). -/
def execLcTransitionResetDone (s : State) : Outcome State Fault Refusal :=
  if s.lc.stage ≠ 1 then .next s
  else
    let s1 := (s.dbgClose.setFld pLCS PgLCS.STATUS_DEBUG_READY 0).setFld pGLB PgGLB.BOOT_READY 0
    let s2 := s1.warmRegion true
    let s3 := (List.range 400).foldl (fun s n => if s.live (.slice n) then s.wipeDone n else s) (s2.report true (s2.ev .contained evRESET 0 pLCS 31 3 0))
    .next { s3 with lc := { s3.lc with stage := s3.lc.afterReset } }

/-- A bit of OTP fails to program twice (R541): OTP_FAIL, a FATAL event to management, and the transition stops. -/
def State.otpFail (s : State) : State :=
  let s1 := ((s.setFld pLCS PgLCS.STATUS_RESULT 6).setFld pLCS PgLCS.STATUS_BUSY 0).setInt pLCS 2
  let s2 := s1.report true (s1.ev .fatal evOTP_FAIL 0 pLCS 31 0 0)
  ({ s2 with lc := { s2.lc with stage := 6 } } : State).workEnd pLCS

/-- Programs bits of the transition's slot; OTP bits that are set stay set (R541). -/
def State.lcSlot (s : State) (v stage : Nat) : State :=
  { s with lc := { s.lc with slots := NMap.put s.lc.slots 0 s.lc.slot (NMap.getD s.lc.slots 0 s.lc.slot ||| v), stage := stage } }

/-- T2: the intent slot is programmed (R539); a failure leaves it torn, with the bits below CHECK programmed.
[DEDUCED, log entry 134] -/
def execLcIntentProgrammed (fail : Bool) (s : State) : Outcome State Fault Refusal :=
  let l := s.lc
  if l.stage ≠ 2 then .next s
  else if fail then .next (s.lcSlot (slotWord l.src l.target l.wipe % 2 ^ 16) 2).otpFail
  else .next (s.lcSlot (slotWord l.src l.target l.wipe) (if l.wipe then 3 else 4))

/-- T3: the user secrets are erased, then WIPE_DONE is programmed (R542): the owner record here; keys and memories went with the
transition reset. -/
def execLcEraseDone (fail : Bool) (s : State) : Outcome State Fault Refusal :=
  if s.lc.stage ≠ 3 then .next s
  else
    let s1 : State := { s with rot := { s.rot with owner := none } }
    if fail then .next s1.otpFail
    else .next (s1.lcSlot (natSetBits (NMap.getD s.lc.slots 0 s.lc.slot) 62 62 1) 4)

/-- The bits a transition programs at T4 (R538): of the state word (first list), of the excursion word. -/
def LcSt.bits (l : LcSt) : List Nat × List Nat :=
  let grp (g : Nat) : List Nat := (List.range 8).map (fun k => 8 * g + k)
  let cell : List Nat :=
    let i := excCount l.excWord
    if (l.target = lcFIELD_DEBUG && i % 2 = 1) || (l.target = lcDEPLOYED && i % 2 = 0) then [] else [2 * i, 2 * i + 1]
  if l.target = lcTEST then (grp 0, [])
  else if l.target = lcPROVISIONED then (grp 0 ++ grp 1, [])
  else if l.target = lcDEPLOYED && l.src ≠ lcFIELD_DEBUG then (grp 0 ++ grp 1 ++ grp 2, [])
  else if l.target = lcRETURNED then (grp 0 ++ grp 1 ++ grp 2 ++ grp 3, [])
  else if l.target = lcSCRAPPED then (grp 7, [])
  else ([], cell)

/-- Programs bits of a word. -/
def programBits (w : Nat) (bs : List Nat) : Nat := bs.foldl (fun w b => natSetBits w b b 1) w

/-- T4: the state groups or the excursion cell are programmed, in order, from the first bit that is not set; `fail`: so many of those still
to do are, and the next one fails. -/
def execLcStateProgrammed (fail : Option Nat) (s : State) : Outcome State Fault Refusal :=
  let l := s.lc
  if l.stage ≠ 4 then .next s
  else
    let b := l.bits
    let n := match fail with | some k => k | none => 64
    let st := (b.1.filter (fun k => !natBit l.stateWord k)).take n
    let ex := (b.2.filter (fun k => !natBit l.excWord k)).take n
    let s1 : State := { s with lc := { l with stateWord := programBits l.stateWord st, excWord := programBits l.excWord ex } }
    match fail with
    | some _ => .next s1.otpFail
    | none => .next { s1 with lc := { s1.lc with stage := 5 } }

/-- T5: DONE is programmed; the page's work is over. -/
def execLcDoneProgrammed (fail : Bool) (s : State) : Outcome State Fault Refusal :=
  if s.lc.stage ≠ 5 then .next s
  else if fail then .next s.otpFail
  else .next (((s.lcSlot (natSetBits (NMap.getD s.lc.slots 0 s.lc.slot) 63 63 1) 6).setFld pLCS PgLCS.STATUS_BUSY 0).workEnd pLCS)

/-- T6: the ROT restarts from mask ROM in the state OTP now reads, and the hub starts as for a device warm reset, its first two stages
behind it (R542). In SCRAPPED every domain but the wake island is Off (R535).
[DEDUCED, log entry 141] -/
def execLcRestartDone (images : List BootImage) (s : State) : Outcome State Fault Refusal :=
  if s.lc.stage ≠ 6 then .next s
  else
    let s1 := ({ s with lc := { s.lc with stage := 0 } } : State).rotStart images
    if s1.rot.halted then
      .next (if s1.lc.state = lcSCRAPPED then
        (List.range 824).foldl (fun s d => s.setDom d { st := 2 }) { s1 with boot := { s1.boot with wasReady := false } } else s1)
    else
      let s2 := s1.measureBoot s1.plan.fuses
      let b := s2.boot
      let s3 : State := { s2 with boot := { b with kind := .lifeCycle, running := [9], ended := [], overrun := [], warm := true, lossCause := 3
                                                   sitesPend := [], hbmPend := [], optPend := [], hankPend := [] } }
      .next ((s3.stageOver 9).stageOver 10)

/-! ### Debug access (R548, R551) -/

/-- Zero-fill has ended on every live attachment in FIELD_DEBUG or RETURNED (R542 T7): DEBUG_READY, and DBG is MGMT-ONLY. -/
def execDebugReadySet (s : State) : Outcome State Fault Refusal :=
  if !(s.lc.state = lcFIELD_DEBUG || s.lc.state = lcRETURNED) || s.lc.incomplete || !s.hubReady ||
      (List.range 8).any (fun a => s.live (.hbmAtt a) && decide (0 < s.zeroingCount a)) then .next s
  else .next ((s.setFld pLCS PgLCS.STATUS_DEBUG_READY 1).setFld pDBG PgHDR.OWNER_ACCESS_CLASS 1)

/-- The page DBG.CTRL names. -/
def State.dbgTarget (s : State) : Nat := pg (s.fld pDBG PgDBG.CTRL_CLASS) (s.fld pDBG PgDBG.CTRL_INSTANCE)

/-- The halt in force is released. -/
def State.dbgRelease (s : State) : State :=
  let t := s.dbgTarget
  let s1 := (s.setFld pDBG PgDBG.CTRL_HALT 0).setFld pDBG PgDBG.CTRL_HALTED 0
  ({ s1 with tap := { s1.tap with step := false, arrays := [] } } : State).pageFree t

/-- HALT is set on a target (R551): it stops at its next boundary, as QUIESCE_REQ would have it. -/
def State.dbgHalt (s : State) (cls inst : Nat) : State :=
  let s0 := if s.flag pDBG PgDBG.CTRL_HALT then s.dbgRelease else s
  let s1 := ((s0.setFld pDBG PgDBG.CTRL_CLASS cls).setFld pDBG PgDBG.CTRL_INSTANCE inst).setFld pDBG PgDBG.CTRL_HALT 1
  s1.holdPage s1.dbgTarget

def execDbgHalt (r : Requester) (cls inst : Nat) (s : State) : Outcome State Fault Refusal :=
  .next (s.gateBlk r cDBG 0 0x100 (fun _ s => s.dbgHalt cls inst))

/-- The target reaches its boundary. -/
def execDbgHalted (s : State) : Outcome State Fault Refusal :=
  let t := s.dbgTarget
  if !s.flag pDBG PgDBG.CTRL_HALT || s.flag pDBG PgDBG.CTRL_HALTED || s.tap.step || s.pageWork t then .next s
  else
    let s1 := if s.pageState t = stQUIESCING || s.pageState t = stBUSY then s.setState t stIDLE else s
    .next (s1.setFld pDBG PgDBG.CTRL_HALTED 1)

def execDbgResume (r : Requester) (s : State) : Outcome State Fault Refusal :=
  .next (s.gateBlk r cDBG 0 0x100 (fun _ s => s.dbgRelease)).kick

/-- The place of an entry in the banks of a slice, where ARRAY 0 of an SKN target names one (09_memory_integrity.md R268). -/
def State.dbgBank (s : State) : Option Nat :=
  let i := s.fld pDBG PgDBG.ADDR_INDEX
  if s.fld pDBG PgDBG.CTRL_CLASS = cSKN && s.fld pDBG PgDBG.ADDR_ARRAY = 0 && i < 32768 && s.fld pDBG PgDBG.CTRL_INSTANCE < 400 then
    some (bankAddr (s.fld pDBG PgDBG.CTRL_INSTANCE) 0 0 + 8 * i)
  else none

def State.dbgKey (s : State) : Nat := s.fld pDBG PgDBG.ADDR_ARRAY * 2 ^ 40 + s.fld pDBG PgDBG.ADDR_INDEX

/-- A read of DATA (R551): the entry while HALTED = 1, else 0 and ORDER. The layout of arrays other than the slices' banks is not given: an
entry reads a free value, the same one until it is written or the halt ends.
[DESIGN CHOICE, log entry 140] -/
def State.dbgRead (s : State) (r : Requester) : State × Nat :=
  if !s.flag pDBG PgDBG.CTRL_HALTED then (s.order pDBG r 0x110, 0)
  else match s.dbgBank with
    | some a => (s, leNat (readBytes s.mem.banks a 8))
    | none => match NMap.find? s.tap.arrays s.dbgKey with
      | some w => (s, w.toNat)
      | none =>
        let f := s.fresh
        ({ f.2 with tap := { f.2.tap with arrays := NMap.insert f.2.tap.arrays s.dbgKey f.1 } }, f.1.toNat)

def State.dbgWrite (s : State) (r : Requester) (v : Nat) : State :=
  if !s.flag pDBG PgDBG.CTRL_HALTED then s.order pDBG r 0x110
  else match s.dbgBank with
    | some a => { s with mem := { s.mem with banks := NMap.putRun s.mem.banks 0 a (natLe 8 v) } }
    | none => { s with tap := { s.tap with arrays := NMap.insert s.tap.arrays s.dbgKey (BitVec.ofNat 64 v) } }

/-- STEP: the halted target takes one unit of work.
[DESIGN CHOICE, log entry 140] -/
def State.dbgStep (s : State) : State :=
  if !s.flag pDBG PgDBG.CTRL_HALTED then s
  else ({ s with tap := { s.tap with step := true, arrays := [] } } : State).setFld pDBG PgDBG.CTRL_HALTED 0

/-- The byte address of a register of a page (02_register_pages.md R42). -/
def regAddr (p off : Nat) : Nat := pgCls p * 0x800000 + pgInst p * 0x1000 + off

def execDbgDataRead (r : Requester) (s : State) : Outcome State Fault Refusal :=
  .next (s.gateHdr r cDBG 0 0x110 (fun _ s =>
    if s.pageState pDBG = stOFF || s.pageState pDBG = stRESET then s.emit (.regValue r (regAddr pDBG 0x110) 0)
    else let x := s.dbgRead r; x.1.emit (.regValue r (regAddr pDBG 0x110) x.2)))
def execDbgDataWrite (r : Requester) (data : Nat) (s : State) : Outcome State Fault Refusal :=
  .next (s.gateBlk r cDBG 0 0x110 (fun _ s => s.dbgWrite r data))
def execDbgStep (r : Requester) (s : State) : Outcome State Fault Refusal := .next (s.gateBlk r cDBG 0 0x118 (fun _ s => s.dbgStep))

end Sys2Proof.Machine
end

