-- ==== Sys2Proof/Machine/CoreRate.lean ====
section
/-! DEFINITION. Step rate and delay margins (01_anatomy.md R25-R31), the shadow power cap (13_chiplet_sites.md R385), and UNBIND of a context
(10_address_translation.md R301). -/
namespace Sys2Proof.Machine
open Host

/-! ### The monitor window (R30, R31) -/

/-- A 1 µs window ends (R30): its rate, its worst region; the next window runs under RATE_FLOOR and DMM_CFG as they now stand.
[DEDUCED, log entry 111] -/
def State.rateWindow (s : State) (msps cls inst margin : Nat) : State :=
  let now := min 0xFFFF msps
  let s1 := (s.setFld pGLB PgGLB.CORE_RATE_NOW_MSPS now).setFld pGLB PgGLB.CORE_RATE_MIN_MSPS (min now (s.fld pGLB PgGLB.CORE_RATE_MIN_MSPS))
  let s2 := ((s1.setFld pGLB PgGLB.DMM_STATUS_WORST_CLASS cls).setFld pGLB PgGLB.DMM_STATUS_WORST_INST inst).setFld pGLB
    PgGLB.DMM_STATUS_WORST_MARGIN (min 255 margin)
  let s3 := if now < s2.rateFloor then s2.setInt pGLB 0 else s2
  { s3 with rateFloor := s3.fld pGLB PgGLB.RATE_FLOOR_FLOOR_MSPS, dmmCfg := (s3.word pGLB 0x110).toNat }

def execCoreRateWindow (msps worstClass worstInst worstMargin : Nat) (s : State) : Outcome State Fault Refusal :=
  .next (s.rateWindow msps worstClass worstInst worstMargin)

/-! ### Delay margins (R28, R29) -/

/-- ACT, WARN and RETREAT_MS as the window in progress uses them (R31). -/
def State.dmmAct (s : State) : Nat := natBits s.dmmCfg 7 0
def State.dmmWarn (s : State) : Nat := natBits s.dmmCfg 15 8
def State.dmmRetreat (s : State) : Nat := natBits s.dmmCfg 23 16

/-- The page of a monitored region: hanks, slices with their homes, routers, core-services blocks, the core-side logic of attachments.
[DEDUCED, log entry 112] -/
def regionPage (cls inst : Nat) : Option Nat :=
  let ok := inst < classCount cls && (cls = cHNK || cls = cSKN || cls = cCOH || cls = cMSH || cls = cHBM || cls = cTIR || cls = cITN ||
    cls = cATU || cls = cDSP || cls = cDMA || cls = cSIT || cls = cFAB || cls = cCOL || cls = cHEP || cls = cETH)
  if ok then some (pg (if cls = cCOH then cSKN else cls) inst) else none

/-- A region that is present and powered, which its monitor watches. -/
def State.region (s : State) (cls inst : Nat) (k : Nat → DmmSt → State) : State :=
  match regionPage cls inst with
  | none => s
  | some p => if s.pageAbsent p || !s.pageOn p then s else k p (NMap.getD s.dmm {} p)

/-- Writes a region's taps and stops; MAX_TAP follows. -/
def State.setDmm (s : State) (p : Nat) (d : DmmSt) : State :=
  let s1 : State := { s with dmm := NMap.put s.dmm {} p d }
  s1.setFld pGLB PgGLB.DMM_STATUS_MAX_TAP ((s1.dmm.map (fun e => e.2.taps)).foldl max 0)

/-- A margin below ACT adds a tap (R28). -/
def State.tapAdd (s : State) (cls inst margin : Nat) : State :=
  s.region cls inst (fun p d =>
    if d.stopped || 4 ≤ d.taps || s.dmmAct ≤ margin then s
    else ((s.setDmm p { d with taps := d.taps + 1 }).count pGLB PgGLB.DMM_STATUS_TAP_EVENTS 1).setInt pGLB 1)

/-- A margin above WARN for RETREAT_MS removes a tap (R28); RETREAT_MS 0 means never. -/
def State.tapRemove (s : State) (cls inst margin ms : Nat) : State :=
  s.region cls inst (fun p d =>
    if d.stopped || d.taps = 0 || s.dmmRetreat = 0 || ms < s.dmmRetreat || margin ≤ s.dmmWarn then s
    else s.setDmm p { d with taps := d.taps - 1 })

/-- A lasting margin fault (R29, R620): the region stays stopped and its unit becomes FAULTED with sub-cause MARGIN.
[DEDUCED, log entry 114] -/
def State.marginLasting (s : State) (p : Nat) (d : DmmSt) : State :=
  let s1 := (s.setDmm p { d with stopped := true, watch := false, dead := true }).setInt pGLB 2
  match pageUnit p with
  | some u => s1.faultUnit u scMARGIN
  | none =>
    let s2 := (s1.setState p stFAULTED).count p PgHDR.ERR_COUNT_LASTING 1
    s2.report true (s2.ev .contained evLASTING scMARGIN p (s2.ownerPart p) 0 0)

/-- A margin below ACT with all four taps in use (R29): the region stops, and a second fall is lasting.
[DEDUCED, log entry 113] -/
def State.marginFall (s : State) (cls inst margin : Nat) : State :=
  s.region cls inst (fun p d =>
    if d.stopped || d.taps < 4 || s.dmmAct ≤ margin then s
    else
      let s1 := s.report true (s.ev .corrected evMARGIN scMARGIN p (s.ownerPart p) 0 0)
      if d.watch then s1.marginLasting p d else (s1.setDmm p { d with stopped := true }).setInt pGLB 2)

/-- 10 µs after the stop the region resumes with its margin back, else the fault is lasting (R29). -/
def State.marginResume (s : State) (cls inst margin : Nat) : State :=
  s.region cls inst (fun p d =>
    if !d.stopped || d.dead then s
    else if margin < s.dmmAct then s.marginLasting p d
    else (s.setDmm p { d with stopped := false, watch := true }).pageFree p)

/-- 1 ms passes after the resume with no second fall: the fault was transient (R29, R620).
[DEDUCED, log entry 113] -/
def State.marginTransient (s : State) (cls inst : Nat) : State :=
  s.region cls inst (fun p d => if d.watch then (s.setDmm p { d with watch := false }).transient p scMARGIN 0 else s)

def execDmmTapAdd (cls inst margin : Nat) (s : State) : Outcome State Fault Refusal := .next (s.tapAdd cls inst margin)
def execDmmTapRemove (cls inst margin aboveMs : Nat) (s : State) : Outcome State Fault Refusal := .next (s.tapRemove cls inst margin aboveMs)
def execDmmFault (cls inst margin : Nat) (s : State) : Outcome State Fault Refusal := .next (s.marginFall cls inst margin).kick
def execDmmResume (cls inst margin : Nat) (s : State) : Outcome State Fault Refusal := .next (s.marginResume cls inst margin).kick
def execDmmTransient (cls inst : Nat) (s : State) : Outcome State Fault Refusal := .next (s.marginTransient cls inst)

/-- A write of DMM_CFG (R31): ignored whole, with CFG_REJECT, where ACT or WARN is out of its bounds. -/
def State.dmmCfgWrite (s : State) (v : Nat) : State :=
  let act := natBits v 7 0
  let warn := natBits v 15 8
  if act < 4 || warn ≤ act || 64 < warn then s.setFld pGLB PgGLB.DMM_STATUS_CFG_REJECT 1
  else s.setWord pGLB 0x110 (BitVec.ofNat 64 (v % 2 ^ 24))

def execDmmCfgWrite (r : Requester) (size : Nat) (high : Bool) (data : Nat) (s : State) : Outcome State Fault Refusal :=
  .next (s.gateBlk r cGLB 0 0x110 (fun p s => s.dmmCfgWrite (mergeHalf (s.word p 0x110).toNat size high data)))

/-! ### The shadow power cap (R385) -/

/-- A 1 µs power estimate of a populated site's shadow ends: above CAP_DW its hanks are throttled for the microsecond. -/
def execShadowPowerWindow (s' estDw : Nat) (s : State) : Outcome State Fault Refusal :=
  let p := pg cSIT s'
  if 4 ≤ s' || s.pageAbsent p || !s.pageOn p then .next s
  else
    let s1 := s.setFld p PgSIT.THERM_EST_DW (min 0xFFFF estDw)
    .next (if s1.fld p PgSIT.THERM_CAP_DW < estDw then (s1.count p PgSIT.THERM_THROTTLE_US 1).setInt p 4 else s1)

/-! ### UNBIND (R301) -/

/-- Something still names a context: a created queue, a tiered range, a site function binding
(FUNC names the partition, and so its contexts), an Ethernet registration (through its queue pair, which holds the PASID), a fault-queue entry.
[DEDUCED, log entry 115] -/
def State.ctxInUse (s : State) (slot : Nat) (c : CtxRec) : Bool :=
  s.dsp.queues.any (fun e => decide (e.2.st ≠ .absent) && e.2.pasid = c.pasid) ||
  (List.range 8).any (fun i => s.actFlag (pg cTIR c.part) (PgTIR.TR_CFG_ENABLE i) && s.actFld (pg cTIR c.part) (PgTIR.TR_CFG_PASID i) = c.pasid) ||
  (List.range 4).any (fun x => (List.range 8).any (fun f =>
    s.actFlag (pg cSIT x) (PgSIT.FUNC_ENABLE f) && s.actFld (pg cSIT x) (PgSIT.FUNC_PART f) = c.part)) ||
  s.eth.qps.any (fun e => e.2.st ≠ 0 && e.2.ctx.pasid = c.pasid) ||
  s.atu.fq.any (fun e => e.slot = slot)

/-- UNBIND: the slot's cached translations go, and it waits for the requests issued under it. -/
def State.ctxUnbind (s : State) (slot : Nat) : State :=
  match s.ctx slot with
  | none => s.ctxDone 2
  | some c =>
    if s.ctxInUse slot c then s.ctxDone 5
    else
      let s1 := s.tlbDrop (fun t => t.slot = slot)
      ({ s1 with atu := { s1.atu with draining := some slot } } : State).setFld pATU PgATU.CTX_CMD_BUSY 1

def execCtxUnbind (r : Requester) (slot : Nat) (s : State) : Outcome State Fault Refusal :=
  .next (s.ctxCmd r slot (fun s => s.ctxUnbind (slot % 4096)))

end Sys2Proof.Machine
end

