-- ==== Sys2Proof/Machine/Faults.lean ====
section
/-! DEFINITION. Fault detection and in-service test (22_fault_detection.md R616-R634): watchdogs, lockstep, monitors, the reporting registers,
the latent self-test and TST. -/
namespace Sys2Proof.Machine
open Host

/-- The fields of a register that a write may change, as a mask. -/
def writableMask (p off : Nat) : Nat :=
  (fieldsAt p off).foldl (fun m f => if f.acc = Acc.rw then m ||| (2 ^ (f.hi + 1) - 2 ^ f.lo) else m) 0

/-- The value a register takes from a write: writable fields as written, every other as it stands. -/
def State.mergeReg (s : State) (p off v : Nat) : Nat :=
  let m := writableMask p off
  let old := (s.word p off).toNat
  (v &&& m) ||| (old - (old &&& m))

/-- Ticks of 10 ns in a second (01_anatomy.md R37). -/
def tickSec : Nat := 100000000

/-! ### Hank controllers (R618) -/

/-- The failure's retry: a hank reset.
[DEDUCED, log entry 116] -/
def State.ctlRetry (s : State) (n : Nat) : State :=
  ({ s with saf := { s.saf with ctlReset := NMap.insert s.saf.ctlReset n s.clock, ctlRetry := s.saf.ctlRetry.filter (· ≠ n) ++ [n] } } :
    State).blockReset (pg cHNK n)

/-- A watchdog expiry or a failed signature: the hank is reset, and a second one within 1 s is lasting. -/
def State.ctlFail (s : State) (n : Nat) : State :=
  let p := pg cHNK n
  let s1 := s.report true (s.ev .corrected evWATCHDOG scCONTROLLER p (s.ownerPart p) 0 0)
  match NMap.find? s.saf.ctlReset n with
  | some t =>
    if s.clock - t < tickSec then
      ({ s1 with saf := { s1.saf with ctlReset := NMap.erase s1.saf.ctlReset n, ctlRetry := s1.saf.ctlRetry.filter (· ≠ n) } } : State).faultUnit
        (.hank n) scCONTROLLER
    else s1.ctlRetry n
  | none => s1.ctlRetry n
/-- The hank's controller runs: its unit is live and its page is out of RESET and OFF.
[DEDUCED, log entry 116] -/
def State.ctlRuns (s : State) (n : Nat) : Bool :=
  n < 400 && s.live (.hank n) && (s.pageState (pg cHNK n) = stIDLE || s.pageState (pg cHNK n) = stBUSY || s.pageState (pg cHNK n) = stQUIESCING)

def execHankWatchdogExpire (n : Nat) (s : State) : Outcome State Fault Refusal :=
  if s.ctlRuns n then .next ((s.setInt (pg cHNK n) 2).ctlFail n).kick else .next s

def execHankSignatureTest (n : Nat) (pass : Bool) (s : State) : Outcome State Fault Refusal :=
  if s.ctlRuns n && !pass then .next (s.ctlFail n).kick else .next s

/-! ### Lockstep (R617) -/

/-- The ROT restarts management from its active image.
[DEDUCED, log entry 124] -/
def State.mgmtRestart (s : State) : State :=
  let s1 : State := { s with saf := { s.saf with mgmtMismatch := some s.clock } }
  s1.report true (s1.ev .corrected evLOCKSTEP 0 pMGT 31 0 0)

/-- A mismatch on management:  a second mismatch within 1 s holds it in reset. -/
def State.mgmtMismatch (s : State) : State :=
  if s.saf.mgmtHeld then s
  else match s.saf.mgmtMismatch with
    | some t =>
      if s.clock - t < tickSec then
        let s1 : State := { s with saf := { s.saf with mgmtHeld := true } }
        s1.report true (s1.ev .fatal evLOCKSTEP 0 pMGT 31 0 0)
      else s.mgmtRestart
    | none => s.mgmtRestart

def State.lockstep (s : State) : LockUnit → State
  | .management => s.mgmtMismatch
  | .dispatcher => s.report true (s.ev .fatal evLOCKSTEP 0 (pg cDSP 0) 31 0 0)
  | .rot => if s.rot.halted then s else s.rotHalt evLOCKSTEP 0

def execLockstepMismatch (u : LockUnit) (s : State) : Outcome State Fault Refusal := .next (s.lockstep u)

/-! ### Monitors (R619, R641, R644, R646) -/

/-- A FATAL THERMAL or VOLTAGE event; a life-cycle transition that programs OTP stops (23_physical.md R646).
[DEDUCED, log entry 119] -/
def State.monitorFatal (s : State) (cause detail : Nat) : State :=
  let s1 := s.report true (s.ev .fatal cause 0 pSAF 31 detail 0)
  if 2 ≤ s1.lc.stage && s1.lc.stage ≤ 5 && cause = evTHERMAL then
    (({ s1 with lc := { s1.lc with stage := 6 } } : State).setFld pLCS PgLCS.STATUS_BUSY 0).workEnd pLCS
  else s1

/-- The hottest sensor of the readings, the lowest on a tie. -/
def hottest (m : NMap Int) : Option (Nat × Int) :=
  m.foldl (fun b e => match b with | none => some e | some x => if x.2 < e.2 then some e else b) none

/-- A sensor's reading (R619): above WARN_C, a CORRECTED THERMAL event as it crosses; at 115 °C a FATAL one.
[DEDUCED, log entry 118] -/
def State.thermal (s : State) (k : Nat) (t : Int) : State :=
  let old : Int := match NMap.find? s.saf.temps k with | some x => x | none => -274
  let s1 : State := { s with saf := { s.saf with temps := NMap.insert s.saf.temps k t } }
  let s2 := match hottest s1.saf.temps with
    | some (h, x) => (s1.setFld pSAF PgSAF.MON_STATUS_HOT_SENSOR h).setFld pSAF PgSAF.MON_STATUS_TJ_MAX_C (x % 256).toNat
    | none => s1
  let warn : Int := s2.fld pSAF PgSAF.MON_CFG_WARN_C
  let s3 := if warn < t && old ≤ warn then (s2.setInt pSAF 7).report true (s2.ev .corrected evTHERMAL 0 pSAF 31 k 0) else s2
  if 115 ≤ t && old < 115 then s3.monitorFatal evTHERMAL k else s3

def execThermalSample (sensor : Nat) (tempC : Int) (s : State) : Outcome State Fault Refusal :=
  if 32 ≤ sensor || !s.boot.pwrGood then .next s else .next (s.thermal sensor tempC)

/-- VDD_CORE has left its range for so long (R619, R641): above 10 µs outside 0.65 V to 0.90 V, or below 0.60 V, the event is FATAL. None
is raised after PWR_GOOD_IN is deasserted (R646). -/
def execVoltageExcursion (mv us : Nat) (s : State) : Outcome State Fault Refusal :=
  if !s.boot.pwrGood then .next s
  else
    let s1 := s.setFld pSAF PgSAF.MON_STATUS_VDD_CORE_MV (min 0xFFFF mv)
    .next (if ((mv < 650 || 900 < mv) && 10 < us) || mv < 600 then s1.monitorFatal evVOLTAGE 0 else s1)

/-! ### Reporting registers (R623, R628, R629) -/

/-- FAULT_CFG.RELEASE (R623): refused with ORDER while a FATAL condition persists.
[DEDUCED, log entry 117] -/
def State.faultRelease (s : State) (r : Requester) : State :=
  if s.flag pSAF PgSAF.STATUS_FATAL_ACTIVE then s.order pSAF r 0x118
  else if s.flag pSAF PgSAF.STATUS_FAULT_N then (s.setFld pSAF PgSAF.STATUS_FAULT_N 0).emit (.faultN false)
  else s

def execFaultRelease (r : Requester) (s : State) : Outcome State Fault Refusal :=
  .next (s.gateBlk r cSAF 0 0x118 (fun _ s => s.faultRelease r))

/-- EVQ_POP.POP (R628): the oldest event goes; EVENT is set while the queue is not empty (R630).
[DEDUCED, log entry 120] -/
def State.evqPop (s : State) : State :=
  let s1 : State := { s with saf := { s.saf with evq := s.saf.evq.drop 1 } }
  if s1.saf.evq = [] then s1.withIrq pMGT (fun s => s.setWord pMGT 0x30 (BitVec.ofNat 64 (natSetBits (s.word pMGT 0x30).toNat 1 1 0)))
  else s1.setInt pMGT 1

def execEvqPop (r : Requester) (s : State) : Outcome State Fault Refusal := .next (s.gateBlk r cMGT 0 0x3A8 (fun _ s => s.evqPop))

/-- A write of RING_CFG (R629): `v`, the register as the write leaves it. What a ring that is disabled still owes is not written.
[DESIGN CHOICE, log entry 246] -/
def State.ringCfg (s : State) (r : Requester) (ring v : Nat) : State :=
  let off := 0x208 + 0x20 * ring
  let was := s.flag pSAF (PgSAF.RING_CFG_EN ring)
  let log2 := natBits v 55 51
  if was && natBit v 63 then s.order pSAF r off
  else if natBit v 63 && (log2 < 6 || 16 < log2 || !s.ringCtx ring (natBits v 19 0)) then s.order pSAF r off
  else
    let s1 := s.setWord pSAF off (BitVec.ofNat 64 v)
    if natBit v 63 then (s1.setFld pSAF (PgSAF.RING_HEAD_HEAD ring) 0).setFld pSAF (PgSAF.RING_TAIL_TAIL ring) 0 else s1.ringDrop ring

def execRingEnable (r : Requester) (ring size : Nat) (high : Bool) (data : Nat) (s : State) : Outcome State Fault Refusal :=
  if 17 ≤ ring then .next s
  else
    let off := 0x208 + 0x20 * ring
    .next (s.gateBlk r cSAF 0 off (fun p s => s.ringCfg r ring (s.mergeReg p off (mergeHalf (s.word p off).toNat size high data))))

/-! ### The latent self-test (R631) -/

/-- The unit a detector belongs to, where it can be fenced, and the sub-cause it fails with.
[DEDUCED, log entry 121] -/
def detectorUnit : Detector → Option (UnitId × Nat)
  | .checkSpindle n => some (.hank n, scCHECK)
  | .fecDecoder (.eth e) => some (.eth e, scLINK)
  | .fecDecoder (.optAtt a) => some (.optAtt a, scLINK)
  | .fecDecoder (.strand a _) => some (.optAtt a, scLINK)
  | .flitChecker r => if r = 434 || r = 437 then none else some (.router r, scROUTER)
  | .watchdog n => some (.hank n, scCONTROLLER)
  | .residue n => some (.hank n, scCONTROLLER)
  | _ => none

/-- A latent test fails twice: LATENT.FAILS, a LATENT event, the unit FAULTED where it can be fenced; of a lockstep comparator FATAL.
[DEDUCED, log entry 121] -/
def State.latentFail (s : State) (d : Detector) : State :=
  let s1 := (s.count pSAF PgSAF.LATENT_FAILS 1).setInt pSAF 6
  let ev (p sub : Nat) (sev : Severity) (s : State) : State := s.report true (s.ev sev evLATENT sub p (s.ownerPart p) 0 0)
  match d with
  | .lockstep => ev pSAF 0 .fatal s1
  | d => match detectorUnit d with
    | some (u, sub) =>
      let s2 := ev (unitPage u) sub .corrected s1
      if s2.live u then s2.faultUnit u sub else s2
    | none => ev pSAF 0 .corrected s1

/-- The detector exists: its unit, if it has one, is live. -/
def State.hasDetector (s : State) (d : Detector) : Bool :=
  match d with
  | .hbmDecoder a => a < 8 && s.live (.hbmAtt a)
  | d => match detectorUnit d with
    | some (u, _) => !s.pageAbsent (unitPage u) && s.live u
    | none => true

def execLatentTest (d : Detector) (pass repeatPass : Bool) (s : State) : Outcome State Fault Refusal :=
  if pass || repeatPass || !s.hasDetector d then .next s else .next (s.latentFail d).kick

/-! ### TST (R633, R634; 07_skein_memory.md R228) -/

/-- A write of TST.CMD with OP START: ignored with ORDER while a test runs, else KIND and INSTANCE are stored and it starts. -/
def State.tstStart (s : State) (r : Requester) (kind inst : Nat) (f : State → State) : State :=
  if s.flag pTST PgTST.CMD_BUSY then s.order pTST r 0x100
  else f ((s.setFld pTST PgTST.CMD_KIND kind).setFld pTST PgTST.CMD_INSTANCE inst)

/-- A start is refused: 2 REFUSED_STATE, 3 REFUSED_ABSENT.
[DEDUCED, log entry 123] -/
def State.tstRefuse (s : State) (res : Nat) : State := s.setFld pTST PgTST.CMD_RESULT res

/-- A test runs. -/
def State.tstRun (s : State) (kind n : Nat) : State :=
  ({ s with saf := { s.saf with tst := some ⟨kind, n⟩ } } : State).setFld pTST PgTST.CMD_BUSY 1

/-- START of a HANK test (R634): the hank is IN_TEST and takes a delivery with full self-test.
[DEDUCED, log entry 125] -/
def State.tstHank (s : State) (r : Requester) (n : Nat) : State :=
  s.tstStart r 0 n (fun s =>
    let st := s.pageState (pg cHNK n)
    if 400 ≤ n || s.pageAbsent (pg cHNK n) then s.tstRefuse 3
    else if !(st = stIDLE || st = stFENCED || st = stFAULTED) then s.tstRefuse 2
    else (((s.tstRun 0 n).removeUnit (.hank n) .inTest scNONE).hankReset n { inTest := true }))

def execTstStartHank (r : Requester) (n : Nat) (s : State) : Outcome State Fault Refusal :=
  .next (s.gateBlk r cTST 0 0x100 (fun _ s => s.tstHank r n)).kick

/-- START of a SLICE test (R228): only with every way unassigned and no way-map commit pending (R230).
[DEDUCED, log entry 123] -/
def State.tstSlice (s : State) (r : Requester) (n : Nat) : State :=
  s.tstStart r 1 n (fun s =>
    let p := pg cSKN n
    if 400 ≤ n || s.pageAbsent p then s.tstRefuse 3
    else if s.pageState p = stOFF || s.pageState p = stRESET || s.flag p PgSKN.STATUS_TEST_BUSY then s.tstRefuse 2
    else if s.flag p PgHDR.PAGE_STATE_COMMIT_BUSY || !(List.range 16).all (fun w => s.wayUse n w = 0) then (s.tstRefuse 2).order pTST r 0x100
    else (s.tstRun 1 n).setFld p PgSKN.STATUS_TEST_BUSY 1)

def execTstStartSlice (r : Requester) (n : Nat) (s : State) : Outcome State Fault Refusal :=
  .next (s.gateBlk r cTST 0 0x100 (fun _ s => s.tstSlice r n))

/-- START of a LATENT pass (R631): every test runs at once; `fails`, the detectors that fail twice.
[DESIGN CHOICE, log entry 122] -/
def State.tstLatent (s : State) (r : Requester) (fails : List Detector) : State :=
  s.tstStart r 2 0 (fun s =>
    let bad := fails.filter s.hasDetector
    let s1 := bad.foldl State.latentFail s
    let f := s1.fresh
    (f.2.setFld pSAF PgSAF.LATENT_LAST_PASS_MS (f.1.toNat % 2 ^ 16)).testOver (b2n (decide (bad ≠ []))) 0)

/-- [DESIGN CHOICE, log entry 122] -/
def execTstStartLatent (r : Requester) (fails : List Detector) (s : State) : Outcome State Fault Refusal :=
  .next (s.gateBlk r cTST 0 0x100 (fun _ s => s.tstLatent r fails)).kick

/-- ABORT (R633): the test stops with RESULT 4 and its unit is left FENCED.
[DEDUCED, log entry 22] -/
def State.tstAbort (s : State) : State :=
  match s.saf.tst with
  | none => s
  | some t =>
    let n := t.inst
    let s1 := s.testOver 4 0
    if t.kind = 0 then
      let s2 := (s1.removeUnit (.hank n) .fenced scNONE).hankSettled n
      (s2.setFld (pg cHNK n) PgHDR.PAGE_CTRL_FENCE 1).hankLeaves n
    else
      let s2 := s1.setFld (pg cSKN n) PgSKN.STATUS_TEST_BUSY 0
      if s2.live (.slice n) then (s2.setFld (pg cSKN n) PgHDR.PAGE_CTRL_FENCE 1).removeUnit (.slice n) .fenced scNONE else s2

def execTstAbort (r : Requester) (s : State) : Outcome State Fault Refusal :=
  .next (s.gateBlk r cTST 0 0x100 (fun _ s => s.tstAbort)).kick

end Sys2Proof.Machine
end

