-- ==== Sys2Proof/Machine/Image.lean ====
section
/-! DEFINITION. The image broadcast (15_milestone_schedule.md R485-R487). -/
namespace Sys2Proof.Machine
open Host

/-- IMG_STATUS.STATE codes (R487). -/
def imIDLE : Nat := 0
def imRECEIVING : Nat := 1
def imREPAIRING : Nat := 2
def imCOMPLETE : Nat := 3
def imINCOMPLETE : Nat := 4
def imSENDING : Nat := 5

def State.imgState (s : State) : Nat := s.fld pMGT PgMGT.IMG_STATUS_STATE
def State.setImgState (s : State) (st : Nat) : State := s.setFld pMGT PgMGT.IMG_STATUS_STATE st
def State.setImg (s : State) (x : ImgSt) : State := { s with mil := { s.mil with img := x } }

/-- Chunks of the image not held. -/
def ImgSt.missing (x : ImgSt) : List Nat := (List.range x.chunks).filter (fun c => !x.held.contains c)

/-- Writes MISSING and CHUNKS. -/
def State.imgCounts (s : State) : State :=
  (s.setFld pMGT PgMGT.IMG_STATUS_MISSING s.mil.img.missing.length).setFld pMGT PgMGT.IMG_STATUS_CHUNKS s.mil.img.chunks

/-- Bytes of the staging area, through the windows of IMG_CFG.PART. -/
def State.stagingAddr (s : State) (o : Nat) : Option Addr :=
  s.regWindow (s.fld pMGT PgMGT.IMG_CFG_PART) (s.fld pMGT PgMGT.IMG_CFG_STAGING + o)

/-- A chunk of the staging area is read and sent on a port, in pieces of 256 bytes. -/
def State.chunkOut (s : State) (port chunk : Nat) : State :=
  (List.range 16).foldl (fun (s : State) i =>
    let o := chunk * 4096 + 256 * i
    match bytesParts (s.fld pMGT PgMGT.IMG_CFG_STAGING + o) 256 (fun k => s.stagingAddr (o + k)) (fun _ _ => .read) with
    | none => s
    | some ps => s.serveParts (.image port s.mil.img.image o) 490 (s.fld pMGT PgMGT.IMG_CFG_PART) 3 0 .plain 5 ps) s

/-- A write of IMG_CMD. -/
def State.imgCmd (s : State) (r : Requester) (image : Nat) (f : State → State) : State :=
  s.gateBlk r cMGT 0 0x348 (fun q s => f (s.setFld q PgMGT.IMG_CMD_IMAGE image))

/-- SEND (R486, R489): the image flows to the children, then END. An image above 16,384 chunks is not sent.
[DESIGN CHOICE, log entry 6] -/
def execImgSend (r : Requester) (image chunks : Nat) (s : State) : Outcome State Fault Refusal :=
  .next (if 16384 < chunks then s.gateBlk r cMGT 0 0x348 (fun q s => s.order q r 0x348)
    else s.imgCmd r (image % 65536) (fun s =>
      let s1 := ((s.setImg { image := image % 65536, chunks := chunks, held := List.range chunks }).setImgState imSENDING).imgCounts
      let s2 := (List.range chunks).foldl (fun s c => s.childPorts.foldl (fun s p => s.chunkOut p c) s) (s1.setFld pMGT PgMGT.IMG_STATUS_ROUND 0)
      s2.childPorts.foldl (fun s p => s.emit (.imagePkt p 3 (image % 65536) chunks [])) s2))

def execImgArm (r : Requester) (image : Nat) (s : State) : Outcome State Fault Refusal :=
  .next (s.imgCmd r (image % 65536) (fun s =>
    (((s.setImg { image := image % 65536 }).setImgState imRECEIVING).setFld pMGT PgMGT.IMG_STATUS_ROUND 0).imgCounts))

def execImgAbort (r : Requester) (image : Nat) (s : State) : Outcome State Fault Refusal :=
  .next (s.imgCmd r (image % 65536) (fun s => ((s.setImg {}).setImgState imIDLE).imgCounts))

/-- Where a chunk is asked for, in order: the neighbours by port, then the parent (R486).
[DEDUCED, log entry 161] -/
def State.askList (s : State) : List Nat := s.livePorts ++ s.parentPort.toList

/-- Asks for the first missing chunk from one on, at the neighbour after those tried; a chunk nobody holds waits for the next round. -/
def State.imgAsk (s : State) (chunk : Nat) (tried : List Nat) : Nat → State
  | 0 => s.setImg { s.mil.img with asking := none }
  | fuel + 1 =>
    match s.mil.img.missing.find? (fun c => chunk ≤ c) with
    | none => s.setImg { s.mil.img with asking := none }
    | some c =>
      let tr := if c = chunk then tried else []
      match s.askList[tr.length]? with
      | some p => (s.setImg { s.mil.img with asking := some (c, tr ++ [p]) }).emit (.imagePkt p 1 s.mil.img.image (c * 4096) [])
      | none => s.imgAsk (c + 1) [] fuel

def State.imgAskFrom (s : State) (chunk : Nat) (tried : List Nat) : State := s.imgAsk chunk tried (s.mil.img.chunks + 1)

/-- The image is complete (R486): it goes to the ROT. -/
def State.imgComplete (s : State) : State :=
  (s.setImgState imCOMPLETE).emit (.imageReady s.mil.img.image s.mil.img.chunks)

/-- A chunk is held: it is sent on to the children; a chunk that was asked for leads to the next. -/
def State.chunkHeld (s : State) (c : Nat) (pieces : NMap (List Byte)) : State :=
  let mine := pieces.filter (fun e => e.1 / 4096 = c)
  let x := s.mil.img
  let s1 := (s.setImg { x with held := x.held ++ [c], pieces := pieces.filter (fun e => e.1 / 4096 ≠ c) }).imgCounts
  let s2 := s1.childPorts.foldl (fun s p => mine.foldl (fun s e => s.emit (.imagePkt p 0 x.image e.1 e.2)) s) s1
  match x.asking with
  | some (k, _) => if k = c then s2.imgAskFrom (c + 1) [] else s2
  | none => s2

/-- A piece of a chunk (R486): written to staging; the last one of a chunk whose digest matches makes it held. `good`: the digest of the chunk, as far
as it is there, matches.
[DEDUCED, log entry 161] -/
def State.imgPiece (s : State) (offset : Nat) (data : List Byte) (good : Bool) : State :=
  let x := s.mil.img
  let c := offset / 4096
  if x.held.contains c || 16384 ≤ c || data.length ≠ 256 || offset % 256 ≠ 0 then s
  else
    let s1 := match bytesParts (s.fld pMGT PgMGT.IMG_CFG_STAGING + offset) 256 (fun k => s.stagingAddr (offset + k)) (fun o n => .write ((data.drop o).take n) 0) with
      | none => s
      | some ps => s.serveParts .staged 490 (s.fld pMGT PgMGT.IMG_CFG_PART) 3 0 .plain 5 ps
    let pcs := NMap.insert x.pieces offset data
    if (pcs.filter (fun e => e.1 / 4096 = c)).length < 16 then s1.setImg { s1.mil.img with pieces := pcs }
    else if good then s1.chunkHeld c pcs
    else s1.setImg { s1.mil.img with pieces := pcs.filter (fun e => e.1 / 4096 ≠ c) }

def execImageData (port image offset : Nat) (data : List Byte) (good : Bool) (s : State) : Outcome State Fault Refusal :=
  if 12 ≤ port || (s.imgState ≠ imRECEIVING && s.imgState ≠ imREPAIRING) || s.mil.img.image ≠ image then .next s
  else .next (s.imgPiece offset data good).kick

def execImageReq (port image offset : Nat) (s : State) : Outcome State Fault Refusal :=
  if 12 ≤ port then .next s
  else if s.mil.img.image = image && s.imgState ≠ imIDLE && s.mil.img.held.contains (offset / 4096) then .next (s.chunkOut port (offset / 4096)).kick
  else .next (s.emit (.imagePkt port 2 image offset []))

def execImageNotHeld (port image offset : Nat) (s : State) : Outcome State Fault Refusal :=
  match s.mil.img.asking with
  | some (c, tried) =>
    if s.imgState = imREPAIRING && s.mil.img.image = image && c = offset / 4096 && tried.getLast? = some port then .next (s.imgAskFrom c tried) else .next s
  | none => .next s

/-- END (R486): the chunk count is known; a hub that misses chunks starts its first repair round. -/
def execImageEnd (port image chunks : Nat) (s : State) : Outcome State Fault Refusal :=
  if 12 ≤ port || s.imgState ≠ imRECEIVING || s.mil.img.image ≠ image || 16384 < chunks then .next s
  else
    let s1 := (s.setImg { s.mil.img with chunks := chunks }).imgCounts
    let s2 := s1.childPorts.foldl (fun s p => s.emit (.imagePkt p 3 image chunks [])) s1
    if s2.mil.img.missing = [] then .next s2.imgComplete
    else .next (((s2.setImgState imREPAIRING).setFld pMGT PgMGT.IMG_STATUS_ROUND 1).imgAskFrom 0 [])

/-- A repair round ends (R486). -/
def execImageRepairRound (s : State) : Outcome State Fault Refusal :=
  if s.imgState ≠ imREPAIRING then .next s
  else if s.mil.img.missing = [] then .next s.imgComplete
  else
    let r := s.fld pMGT PgMGT.IMG_STATUS_ROUND
    if r < 3 then .next ((s.setFld pMGT PgMGT.IMG_STATUS_ROUND (r + 1)).imgAskFrom 0 [])
    else .next ((s.setImg { s.mil.img with asking := none }).setImgState imINCOMPLETE |>.emit (.mgmtIrq pMGT))

end Sys2Proof.Machine
end

