-- ==== Sys2Proof/Machine/Milestones.lean ====
section
/-! DEFINITION. Commands of the time domain, of schedules, XFER and COLL tasks (15_milestone_schedule.md). -/
namespace Sys2Proof.Machine
open Host

/-! ### XFER, COLL, packets -/

def execXferDispatch (s : State) : Outcome State Fault Refusal :=
  match s.pick 4 (fun t => s.milBound (t.body.getD 0 0).toNat < 1024) with
  | none => .next s
  | some (t, s) => .next (s.xferBind t)

/-- COLL_DISPATCH: at most 16 run; one at a time on a ply; at most 1,024 tasks bound to a port its ply is scheduled on. -/
def execCollDispatch (srcPages dstPages : List Addr) (s : State) : Outcome State Fault Refusal :=
  match s.pick 5 (fun t =>
    let k := leNat (t.body.take 2)
    s.mil.colls.length < 16 && !s.mil.colls.any (fun c => c.ply = k) &&
      (List.range 12).all (fun p => !(match (s.milPort p).active with | some x => x.plies.contains k | none => false) || s.milBound p < 1024)) with
  | none => .next s
  | some (t, s) => .next (s.collStart t srcPages dstPages).kick

/-- A scheduled delivery (R467): written under R438 whether or not a RECV entry counts it. -/
def State.schedIn (s : State) (a : Nat) (q : FabPkt) : State :=
  if !s.jobMatches q then s.count (pg cFAB a) PgFAB.PERF2_DROPPED 1
  else
    let s1 := s.recvCount a q
    match s1.pktParts q with
    | none => s1.schedDone a q tsACCESS
    | some ps => s1.serveParts (.schedIn a q) (470 + a) q.dpart 0 q.hint .plain 5 ps

def execSched (a : Nat) (p : FabPkt) (s : State) : Outcome State Fault Refusal :=
  if 6 ≤ a || p.ty ≠ 4 then .next s else .next (s.schedIn a p).kick

def execCollPacket (a : Nat) (p : FabPkt) (s : State) : Outcome State Fault Refusal :=
  if 6 ≤ a || p.ty ≠ 5 then .next s else .next (s.collPacket a p).kick

/-! ### Time -/

def execTimeSyncCmd (r : Requester) (s : State) : Outcome State Fault Refusal :=
  .next (s.gateBlk r cMGT 0 0x310 (fun _ s => s.syncStart))

def execTimeStop (r : Requester) (s : State) : Outcome State Fault Refusal :=
  .next (s.gateBlk r cMGT 0 0x310 (fun _ s => (s.setTimeState tmOFF).setTime { children := s.mil.time.children }))

/-- A PING is answered; the turnaround at the PHY is a time the spec does not give.
[DESIGN CHOICE, log entry 148] -/
def execTimePing (port tick : Nat) (s : State) : Outcome State Fault Refusal :=
  if 12 ≤ port then .next s
  else
    let r := s.fresh
    .next (r.2.emit (.timePkt port 1 [tick, r.1.toNat]))

def execTimePong (port turnPs roundPs : Nat) (s : State) : Outcome State Fault Refusal :=
  if s.timeState ≠ tmMEASURING || !s.portUp port || (NMap.find? s.mil.time.delay port).isSome then .next s
  else .next (s.pong port turnPs roundPs)

def execTimeSync (port rootTick period lead depth : Nat) (phasePs : Int) (s : State) : Outcome State Fault Refusal :=
  if s.isRoot || s.parentPort ≠ some port || (s.timeState ≠ tmLOCKING && s.timeState ≠ tmRUNNING) then .next s
  else .next (s.syncIn port rootTick period lead depth phasePs)

def execTimeReady (port through node : Nat) (locked : Bool) (s : State) : Outcome State Fault Refusal :=
  if !s.childPorts.contains port then .next s
  else
    let t := s.mil.time
    .next ((s.setTime { t with children := NMap.insert t.children port (some (through, node, locked)) }).timeReport false)

def execTimeGo (port n tick culprit : Nat) (s : State) : Outcome State Fault Refusal :=
  if s.parentPort ≠ some port || s.timeState ≠ tmRUNNING then .next s else .next (s.sendGo n tick culprit)

/-- HOLD(n): forwarded; NOTICE.HOLD is set in every frame until the GO (R475). -/
def execTimeHold (port n : Nat) (s : State) : Outcome State Fault Refusal :=
  if s.parentPort ≠ some port || s.timeState ≠ tmRUNNING then .next s
  else .next ((s.setTime { s.mil.time with hold := some n }).toChildren 5 [n])

def execTimeAdopt (port : Nat) (s : State) : Outcome State Fault Refusal :=
  if 12 ≤ port then .next s
  else .next (s.setTime { s.mil.time with children := NMap.insert s.mil.time.children port none })

def execTimeStart (port tick : Nat) (s : State) : Outcome State Fault Refusal :=
  if s.parentPort ≠ some port || (s.timeState ≠ tmLOCKING && s.timeState ≠ tmRUNNING) then .next s
  else .next ((s.setTime { s.mil.time with epoch := some tick }).toChildren 7 [tick]).bootCheck

def execSyncPeriod (s : State) : Outcome State Fault Refusal :=
  if !s.isRoot || (s.timeState ≠ tmLOCKING && s.timeState ≠ tmRUNNING) then .next s else .next s.syncOut.bootCheck

/-- The parent port fails (R460): the next live entry of TIME_PARENT is taken, else STATE is LOST. The hub reports its counter + K while it
switches.
[DEDUCED, log entry 150] -/
def State.parentFail (s : State) (p : Nat) : State :=
  let l := s.parentList
  let rest := (l.dropWhile (fun q => q ≠ p)).drop 1 ++ l.takeWhile (fun q => q ≠ p)
  let s1 := (s.adoptParent (rest.filter (fun q => q ≠ p))).setInt pGLB 4
  match s1.parentPort with
  | some q =>
    let v := (s1.msNow + min s1.mil.time.k s1.readyAhead) % 2 ^ 48
    (s1.setTime { s1.mil.time with sent := some (v, s1.node) }).emit (.timePkt q 3 [v, s1.node, b2n s1.allLocked])
  | none => s1

def execParentFail (s : State) : Outcome State Fault Refusal :=
  if s.isRoot || s.timeState = tmOFF then .next s
  else match s.parentPort with
    | none => .next s
    | some p => .next (s.parentFail p)

def execEpochReached (s : State) : Outcome State Fault Refusal :=
  match s.mil.time.epoch with
  | none => .next s
  | some e => if s.tick < e then .next s else .next (s.epochAt e)

def execRootDecision (s : State) : Outcome State Fault Refusal :=
  if !s.isRoot || s.timeState ≠ tmRUNNING then .next s else .next s.rootDecide

/-- The tick of the oldest GO arrives (R476). -/
def execMilestoneBoundary (s : State) : Outcome State Fault Refusal :=
  match s.mil.time.go with
  | [] => .next s
  | (n, tick, culprit) :: rest =>
    if (s.timeState ≠ tmRUNNING && s.timeState ≠ tmLOST) || s.tick < tick then .next s
    else .next ((s.setTime { s.mil.time with go := rest }).moveTo n tick culprit)

/-! ### Spans and limits (R474, R477) -/

/-- The span of an occurrence ends (R474): a send that has not finished is an overrun. -/
def State.spanEnd (s : State) (p : Nat) (e : SchedEnt) (r : MilRun) : State :=
  let late := (e.kind = 1 || e.kind = 3) && !r.done
  let s1 := s.setMil p ((s.milPort p).putRun { r with endTick := some s.tick, late := late })
  if late && !r.late then ((s1.count (pg cMIL p) PgMIL.PERF2_OVERRUNS 1).setInt (pg cMIL p) 2).timeReport false else s1

def execSpanEnd (p entry : Nat) (s : State) : Outcome State Fault Refusal :=
  match (s.milPort p).ent? entry with
  | none => .next s
  | some e =>
    match (s.milPort p).runs.find? (fun r => r.ent = entry && r.endTick = none && 0 ≤ msDiff s.msNow ((r.occ + e.span) % 2 ^ 48)) with
    | none => .next s
    | some r => .next (s.spanEnd p e r)

/-- A stretch exceeds STRETCH_LIMIT_MS (R477). -/
def execStretchLimit (s : State) : Outcome State Fault Refusal :=
  if s.held then .next (s.milFailAll 3) else .next s

/-- A RECV has not counted its BYTES STRETCH_LIMIT_MS after its span (R477). -/
def execRecvLost (p entry : Nat) (s : State) : Outcome State Fault Refusal :=
  match (s.milPort p).ent? entry with
  | none => .next s
  | some e =>
    if (e.kind = 2 || e.kind = 4) && (s.milPort p).runs.any (fun r => r.ent = entry && r.endTick ≠ none && decide (r.moved < r.need)) then
      .next (s.milFailAll 5)
    else .next s

/-! ### Loading schedules (R471) -/

/-- A write of LOAD_CMD with a command.
[DEDUCED, log entry 154] -/
def State.loadCmd (s : State) (r : Requester) (p : Nat) (f : Nat → State → State) : State :=
  s.gateBlk r cMIL p 0x110 (fun q s =>
    if s.flag q PgMIL.LOAD_CMD_BUSY then s.order q r 0x110
    else if s.milCommit p then s.setFld q PgMIL.LOAD_CMD_RESULT 4
    else f q s)

/-- LOAD: the staged bank is empty until the image has been checked whole.
[DESIGN CHOICE, log entry 6] -/
def execSchedLoad (r : Requester) (p : Nat) (s : State) : Outcome State Fault Refusal :=
  .next (s.loadCmd r p (fun q s =>
    ((s.setMil p { s.milPort p with staged := none }).setFld q PgMIL.STATUS_STAGED_ENTRIES 0).setFld q PgMIL.LOAD_CMD_BUSY 1))

def execSchedLoadDone (p : Nat) (image : Option (List Byte)) (s : State) : Outcome State Fault Refusal :=
  if 12 ≤ p || !s.flag (pg cMIL p) PgMIL.LOAD_CMD_BUSY then .next s else .next (s.schedLoaded p image)

def execSchedClear (r : Requester) (p : Nat) (s : State) : Outcome State Fault Refusal :=
  .next (s.loadCmd r p (fun q s =>
    ((s.setMil p { s.milPort p with staged := none }).setFld q PgMIL.STATUS_STAGED_ENTRIES 0).setFld q PgMIL.LOAD_CMD_RESULT 0))

/-! ### Plies (R484) -/

/-- A write of PLY_CMD with a command: it completes at once. -/
def State.plyCmd (s : State) (r : Requester) (ply : Nat) (f : State → Nat × State) : State :=
  s.gateBlk r cCOL 0 0x108 (fun q s =>
    if s.flag q PgCOL.PLY_CMD_BUSY then s.order q r 0x108
    else
      let x := f (s.setFld q PgCOL.PLY_CMD_PLY ply)
      (x.2.setFld q PgCOL.PLY_CMD_RESULT x.1).setInt q 0)

/-- A COLL uses the slot, or waits READY for it (R484, R488). -/
def State.plyInUse (s : State) (k : Nat) : Bool :=
  s.mil.colls.any (fun c => c.ply = k) || s.dsp.tasks.any (fun t => t.ty = 5 && t.phase = .ready && leNat (t.body.take 2) = k)

def State.setPly (s : State) (k : Nat) (y : Option Ply) : State :=
  { s with mil := { s.mil with plies := NMap.put s.mil.plies none k y } }

/-- SET: the descriptor as fetched. -/
def State.plySet (s : State) (k : Nat) (desc : Option (List Byte)) : Nat × State :=
  let inUse := (s.ply? k).isSome || s.plyInUse k
  match desc with
  | none => (if inUse then 3 else 4, s)
  | some b =>
    if !Sys2Proof.Machine.checkOk (b.take 64) then (1, s)
    else match s.plyOf b with
      | none => (2, s)
      | some y => if inUse then (3, s) else (0, s.setPly k (some y))

/-- The descriptor SET reads (R478, R484): at PLY_ARG in the windows of the PART it names.
[DESIGN CHOICE, log entry 6] -/
def State.plyDesc (s : State) (given : Option (List Byte)) : Option (List Byte) :=
  match given with
  | none => none
  | some b => s.readRegion (fieldAt b 3 1 % 16) (s.fld pCOL PgCOL.PLY_ARG_DESC) 64 given

def execPlySet (r : Requester) (ply : Nat) (desc : Option (List Byte)) (s : State) : Outcome State Fault Refusal :=
  .next (s.plyCmd r (ply % 1024) (fun s => s.plySet (ply % 1024) (s.plyDesc desc)))

def execPlyClear (r : Requester) (ply : Nat) (s : State) : Outcome State Fault Refusal :=
  .next (s.plyCmd r (ply % 1024) (fun s => if s.plyInUse (ply % 1024) then (3, s) else (0, s.setPly (ply % 1024) none)))

/-- [DEDUCED, log entry 40] -/
def execPlyQuery (r : Requester) (ply : Nat) (s : State) : Outcome State Fault Refusal :=
  .next (s.plyCmd r (ply % 1024) (fun s => (0, s.setFld pCOL PgCOL.PLY_ARG_DESC (match s.ply? (ply % 1024) with
    | some y => 2 ^ 63 + y.part % 16
    | none => 0))))

/-- An unscheduled step's inputs have not arrived (R483). -/
def execCollStepTimeout (t : TaskId) (s : State) : Outcome State Fault Refusal :=
  match s.coll? t with
  | none => .next s
  | some c =>
    if c.phase ≠ 1 || (match s.ply? c.ply with | some y => y.sched | none => true) then .next s
    else .next (s.collEnd t tsFABRIC_ERROR).kick

end Sys2Proof.Machine
end

