-- ==== Sys2Proof/Machine/RegRead.lean ====
section
/-! DEFINITION. What a read of a register answers (02_register_pages.md R46, R49-R61), with the fields that follow the state of the blocks. -/
namespace Sys2Proof.Machine

/-- The 32 bytes of a record of the management queue, as four words (22_fault_detection.md R624, R628). -/
def EvqEntry.words (q : EvqEntry) : List Nat := q.ev.words q.seq Config.queuePhase q.lost

/-- A header register (R52-R60). -/
def State.readHdr (s : State) (p off : Nat) : Nat :=
  let w := (s.word p off).toNat
  if off = 0x00 then
    pgCls p <<< 40 + pgInst p <<< 28 + (Config.pageMajor (pgCls p)).toNat <<< 20 + (Config.pageMinor (pgCls p)).toNat <<< 12 + 1
  else if off = 0x08 then blkCap p <<< 32 + blkLen p <<< 16 + capBits p
  else if off = 0x10 && pgCls p = cSCR && s.scrubRuns (pgInst p) then natSetBits w PgHDR.PAGE_STATE_STATE.hi PgHDR.PAGE_STATE_STATE.lo stBUSY
  else if off = 0x40 then 0
  else if off = 0x48 then (match pageDom p with | some d => s.domReq d | none => 0)
  else if off = 0x50 then (match pageDom p with
    | some d => (s.domSt d).st + 4 * b2n (decide (s.phase d ≠ 0))
    | none => 0)
  else if 0x70 ≤ off then 0
  else w

/-- Attachment training as HBM.STATUS.TRAIN shows it (R243). -/
def State.hbmTrain (s : State) (a : Nat) : Nat :=
  if s.boot.hbmPend.contains a then 1
  else if s.live (.hbmAtt a) then 2
  else match (s.unit (.hbmAtt a)).live with | .startupFail => 3 | .faulted => 3 | _ => 0

/-- A block register whose fields follow the state of the block; `w`, the register as stored. -/
def State.liveReg (s : State) (c i off w : Nat) : Nat :=
  let k (base stride : Nat) : Nat := (off - base) / stride
  match c with
  | 0 =>
    if off = 0x120 then natSetBits w 48 48 (b2n s.held) else if off = 0x160 then s.deliveryReg else w
  | 2 =>
    if off = 0x100 then s.lcsStatus else if off = 0x110 then s.lc.stateWord else if off = 0x118 then s.lc.excWord
    else if 0x120 ≤ off then NMap.getD s.lc.slots 0 (k 0x120 8) else w
  | 4 =>
    if off = 0x320 then natSetBits w 35 4 (NMap.getD s.mil.time.delay 0 (natBits w 3 0))
    else if off = 0x380 then natSetBits w 8 0 s.saf.evq.length
    else if 0x388 ≤ off && off < 0x3A8 then (match s.saf.evq with | e :: _ => e.words.getD (k 0x388 8) 0 | [] => 0)
    else w
  | 8 =>
    if off = 0x110 then
      let g := s.spindles i
      let open_ := s.dsp.batches.filter (fun b => s.lead b.hanks = i)
      let pend := (open_.map (fun b => b.reqs.length)).foldl (· + ·) 0 + (s.dsp.arriving.filter (fun a => s.lead a.hanks = i)).length
      natSetBits (natSetBits (natSetBits (natSetBits w 31 30 (passes g - 1)) 29 25 (usedRows g).length) 18 16 open_.length) 6 0 pend
    else w
  | 10 => if off = 0x118 then natSetBits w 29 17 (s.dirtyLines i) else w
  | 11 =>
    if off = 0x100 then natSetBits w 3 0 (s.linkDown i)
    else if off = 0x108 then
      let q := s.routeQ i (natBits w 8 0)
      natSetBits (natSetBits w 26 24 q.1) 15 10 q.2
    else w
  | 12 =>
    if off = 0x138 && i ≤ 490 then natSetBits w 15 0 (min 0xFFFF (s.mesh.outs.filter (fun o => o.tol = i)).length)
    else if off = 0x130 && blkCap (pg cTOL i) = 0 then 0
    else w
  | 13 =>
    if off = 0x108 then
      let ents := (NMap.slice s.mem.filter (i * 4096 * 8) ((i + 1) * 4096 * 8)).filter (fun e => e.2.isSome)
      natSetBits (natSetBits (natSetBits w 47 32 ents.length) 23 16 (s.openTxns i)) 6 0
        (s.mem.lost.filter (fun l => decide (i * 4096 * 8 ≤ l) && decide (l < (i + 1) * 4096 * 8))).length
    else w
  | 14 => if off = 0x110 then natSetBits (natSetBits w 2 2 (b2n ((s.domSt (804 + i)).st = 1))) 1 0 (s.hbmTrain i) else w
  | 15 =>
    if off = 0x108 then
      natSetBits (natSetBits (natSetBits w 23 16 (s.queueOcc i 0 false + s.queueOcc i 1 false)) 15 8
        (s.queueOcc i 0 true + s.queueOcc i 1 true)) 7 0 (s.wbufOcc i)
    else w
  | 16 =>
    if off = 0x110 then natSetBits (natSetBits w 50 32 (s.t3Used i)) 18 0 (s.t2Used i)
    else if 0x138 ≤ off && (off - 0x138) % 0x20 = 0 then
      natSetBits (natSetBits w 63 45 (s.promotedOf i (k 0x138 0x20)).length) 44 26 (s.poolOf i (k 0x138 0x20)).length
    else w
  | 18 =>
    if off = 0x108 then natSetBits w 31 31 (b2n (decide (0 < s.zeroingCount i)))
    else if off = 0x120 then natSetBits w 16 0 (s.zeroingCount i) else w
  | 19 =>
    if i ≠ 0 then w
    else if off = 0x130 then
      (match s.reported with
       | some e => 1 <<< 63 + b2n e.w <<< 62 + b2n e.r <<< 61 + (e.reason % 16) <<< 57 + (e.idx % 1024) <<< 47 + (e.slot % 4096) <<< 35 + e.vpn2 % 2 ^ 27
       | none => 0)
    else if off = 0x140 then
      b2n s.atu.priStopped <<< 63 + (s.atu.ctx.filter (fun e => e.2.isSome)).length <<< 48 + s.atu.fq.length <<< 32 +
        (s.atu.prg.filter (fun e => e.2.isSome)).length <<< 16 + s.atu.invs.length
    else w
  | 20 => if off = 0x128 then s.liveOf i <<< 32 + s.reserved i else w
  | 22 => if 0x158 ≤ off && off < 0x198 then natSetBits w 39 32 (natBits (s.caps i (k 0x158 8)) 7 0) else w
  | 23 =>
    if off = 0x168 then
      let l := NMap.getD s.fab.lanes (0, 0) (i * 17 + natBits w 4 0)
      if 17 ≤ natBits w 4 0 then natBits w 4 0 else natSetBits (natSetBits w 63 32 (min (2 ^ 32 - 1) l.1)) 31 16 (min 0xFFFF l.2)
    else if off = 0x188 then
      let m (port : Nat) : Nat := maskOf 16 (fun j => (NMap.getD s.fab.keys {} (port * 16 + j)).cur.isSome)
      natSetBits (natSetBits w 31 16 (m (2 * i + 1))) 15 0 (m (2 * i))
    else w
  | 24 => if off = 0x120 then natSetBits w 10 0 (s.milBound i) else w
  | 25 =>
    if off = 0x118 then natSetBits (natSetBits w 26 16 (s.mil.plies.filter (fun e => e.2.isSome)).length) 4 0 s.mil.colls.length else w
  | 26 =>
    if 0x300 ≤ off && off < 0x400 then
      let c := k 0x300 8
      maskOf 64 (fun g => (List.range 16).any (fun j =>
        decide (16 * g + j < classCount c) && s.accessClass (pg c (16 * g + j)) = 0 && s.asserts (pg c (16 * g + j))))
    else w
  | 27 =>
    if off = 0x110 then
      natSetBits w 26 16 ((((NMap.getD s.eth.ports {} i).buf.map Prod.snd).foldl (· + ·) 0 + 1023) / 1024)
    else if 0x138 ≤ off && i ≠ 0 then 0
    else w
  | _ => w

/-- Registers that lie in the wake island, whatever the state of their page (20_power_domains.md R589, R590). -/
def wakeIsland (p off : Nat) : Bool := pgCls p = cPWR || (p = pMGT && 0x200 ≤ off && off ≤ 0x218)

/-- A block register reads 0 and ignores writes with ORDER (R56, R66): OFF and RESET. -/
def State.blockShut (s : State) (p off : Nat) : Bool :=
  !wakeIsland p off && s.shut p

/-- The value of a register of a present page at a multiple of 8.
[DEDUCED, log entries 29, 33, 34, 36; DESIGN CHOICE, log entry 32] -/
def State.readWord (s : State) (p off : Nat) : Nat :=
  if off < 0x100 then s.readHdr p off
  else if 0x100 + 8 * blkLen p ≤ off || s.blockShut p off then 0
  else if pgCls p = cFPD then s.fpdWord (pgInst p) off
  else s.liveReg (pgCls p) (pgInst p) off (s.word p off).toNat

/-- Fields an access reads: of the low half, of the high half, of both. -/
def inHalf (f : Fld) (size : Nat) (high : Bool) : Bool :=
  size = 8 || (if high then decide (32 ≤ f.lo) else decide (f.hi < 32))

/-- RC fields in the half read return to their reset values (R61).
[DEDUCED, log entry 28] -/
def State.readClears (s : State) (p off size : Nat) (high : Bool) : State :=
  if 0x100 ≤ off && s.blockShut p off then s
  else (fieldsAt p off).foldl (fun s f => if f.acc = .rc && inHalf f size high then s.setFld p f f.reset else s) s

/-- Bits of a word that an access reads. -/
def halfOf (w size : Nat) (high : Bool) : Nat :=
  if size = 8 then w % 2 ^ 64 else if high then natBits w 63 32 else w % 2 ^ 32

/-- A read of a register of a visible, present page: the value, and what the read itself changes. -/
def State.pageRead (s : State) (r : Requester) (p off size : Nat) (high : Bool) : State × Nat :=
  if p = pDBG && off = 0x110 && !s.blockShut p off then
    let x := s.dbgRead r
    (x.1, halfOf x.2 size high)
  else (s.readClears p off size high, halfOf (s.readWord p off) size high)

/-! ### Areas of BAR0 and BAR2 that only the host reaches (02_register_pages.md R45; 06_task_graphs.md R164; 16_host_endpoint.md R492, R499) -/

/-- The MSI-X table at a multiple of 8: address, or data and vector control. -/
def State.msixWord (s : State) (off : Nat) : Nat :=
  let x := s.vec (off / 16)
  if off % 16 = 0 then x.addr % 2 ^ 64 else x.data % 2 ^ 32 + b2n x.mask <<< 32

/-- The pending bits of 64 vectors. -/
def State.pbaWord (s : State) (k : Nat) : Nat := maskOf 64 (fun j => (s.vec (64 * k + j)).pend)

/-- A word of a doorbell page (R164). -/
def State.dbWord (s : State) (q off : Nat) : Nat :=
  let x := s.queue q
  if x.st = .absent then 0
  else if off = 0x008 then x.tail <<< 32 + x.head
  else if off = 0x010 then
    x.errIndex <<< 32 + x.errCode <<< 8 + (match x.st with | .absent => 0 | .active => 1 | .stoppedSw => 2 | .stoppedErr => 3)
  else 0

/-- Instance positions 16 to 47 of the HEP region hold no page.
[DEDUCED, log entry 15] -/
def hostArea (addr : Nat) : Bool := addr / 0x800000 = cHEP && 16 ≤ addr / 0x1000 % 2048 && addr / 0x1000 % 2048 < 48

/-- A read of the area: the table and the pending bits; the CXL component registers, whose layout is CXL 3.1's, answer an open value. -/
def State.areaRead (s : State) (addr : Nat) : State × Nat :=
  let o := addr - 0x0D010000
  if o < 0x8000 then (s, s.msixWord (o / 8 * 8))
  else if o < 0x8100 then (s, s.pbaWord ((o - 0x8000) / 8))
  else if o < 0x10000 then (s, 0)
  else (s.fresh.2, s.fresh.1.toNat)

/-! ### Reads -/

/-- The access has a size and an alignment the hub accepts (R46, R47).
[DEDUCED, log entry 17] -/
def goodAccess (addr size : Nat) : Bool := (size = 4 && addr % 4 = 0) || (size = 8 && addr % 8 = 0)

/-- The value a read answers, and the state after it (R46-R49, R61, R74); BAR2 lies above the register space. -/
def State.regRead (s : State) (r : Requester) (addr size : Nat) : State × Nat :=
  let p := pg (addr / 0x800000) (addr / 0x1000 % 2048)
  let off := addr % 0x1000
  let high := decide (4 ≤ addr % 8)
  if 2 ^ 28 ≤ addr then
    (if r = .host && addr < 2 ^ 28 + 2 ^ 24 && goodAccess addr size then
       (s, halfOf (s.dbWord ((addr - 2 ^ 28) / 0x1000) (off / 8 * 8)) size high) else (s, 0))
  else if hostArea addr then
    (if r = .host && goodAccess addr size then let x := s.areaRead addr; (x.1, halfOf x.2 size high) else (s, 0))
  else if s.pageAbsent p then (s, 0)
  else if !sees r (s.accessClass p) || !goodAccess addr size then (s.pageErr p .access r off, 0)
  else s.pageRead r p (off / 8 * 8) size high

/-- A read by a requester: the host's passes the link (16_host_endpoint.md R494, R496, R498), others are answered at once. -/
def State.readReq (s : State) (r : Requester) (addr size : Nat) : State :=
  if r ≠ .host then
    let x := s.regRead r addr size
    x.1.emit (.regValue r addr x.2)
  else if !s.dlUp then s
  else
    let s1 := s.rxTlp
    if !s1.hostReach then s1.hostReply ⟨s1.nextJoin, none, 1, false, []⟩
    else if s1.ideShut then (s1.closedLog 0 0 0 false).hostReply ⟨s1.nextJoin, none, 1, false, []⟩
    else
      let x := s1.regRead .host addr size
      x.1.hostReply ⟨x.1.nextJoin, some addr, 0, false, natLe size x.2⟩

end Sys2Proof.Machine
end

