-- ==== Sys2Proof/Machine/RegRules.lean ====
section
/-! DEFINITION. The values a register refuses: what the register tables and their rules say is ignored whole, setting ORDER. -/
namespace Sys2Proof.Machine

/-- A field of a value about to be written. -/
def Fld.of (f : Fld) (w : Nat) : Nat := natBits w f.hi f.lo

/-- A value lies outside lo..hi. -/
def outside (v lo hi : Nat) : Bool := decide (v < lo) || decide (hi < v)

/-- Two ranges (base, length) share an element. -/
def overlap (a n b m : Nat) : Bool := decide (0 < n) && decide (0 < m) && decide (a < b + m) && decide (b < a + n)

/-- A register of another partition's page of a class shares an element of two ranges, or the sum over all partitions passes a limit. -/
def otherParts (p : Nat) : List Nat := (List.range 16).filter (· ≠ p)

def sumParts (p v : Nat) (f : Nat → Nat) : Nat := ((otherParts p).map f).foldl (· + ·) v

/-- PRT registers (06_task_graphs.md R191; 08_memory_tiers.md R250; 10_address_translation.md R313; 14_fabric_links.md R442; 17_network_ports.md R533;
19_trust_and_tenancy.md R570). -/
def State.prtBad (s : State) (p off w : Nat) : Bool :=
  let q (o : Nat) (f : Fld) : Nat := s.fld (pg cPRT o) f
  if off = 0x100 then
    let b := PgPRT.DSP_QUOTA_QUEUE_BASE.of w
    let n := PgPRT.DSP_QUOTA_QUEUE_COUNT.of w
    decide (65536 < sumParts p (PgPRT.DSP_QUOTA_TASKS.of w) (fun o => q o PgPRT.DSP_QUOTA_TASKS)) || decide (4096 < b + n) ||
      (otherParts p).any (fun o => overlap b n (q o PgPRT.DSP_QUOTA_QUEUE_BASE) (q o PgPRT.DSP_QUOTA_QUEUE_COUNT))
  else if off = 0x108 then
    let b := PgPRT.DSP_EVT_EVT_BASE.of w
    let n := PgPRT.DSP_EVT_EVT_COUNT.of w
    decide (16384 < b + n) || (otherParts p).any (fun o => overlap b n (q o PgPRT.DSP_EVT_EVT_BASE) (q o PgPRT.DSP_EVT_EVT_COUNT))
  else if off = 0x110 then
    decide (PgPRT.TIER_QUOTA_T3_LIMIT.of w < s.t3Used p) || decide (PgPRT.TIER_QUOTA_T2_LIMIT.of w < s.t2Used p)
  else if off = 0x118 then
    let used (use : Nat) : Nat := ((List.range 400).map (fun n => (s.waysOf n use p).length)).foldl (· + ·) 0
    decide (128 * PgPRT.WAY_QUOTA_T1_LIMIT.of w < used 1) || decide (128 * PgPRT.WAY_QUOTA_T0_LIMIT.of w < used 2)
  else if off = 0x120 then decide (262144 < PgPRT.T2_WIN_T2_BASE.of w + PgPRT.T2_WIN_T2_LEN.of w)
  else if off = 0x128 then
    let held := (s.atu.ctx.filter (fun e => match e.2 with | some c => decide (c.part = p) | none => false)).length
    decide (4096 < sumParts p (PgPRT.ATU_QUOTA_CTX_LIMIT.of w) (fun o => q o PgPRT.ATU_QUOTA_CTX_LIMIT)) ||
      decide (PgPRT.ATU_QUOTA_CTX_LIMIT.of w < held)
  else if off = 0x130 then s.jobBad (natBit w 63) (natBits w 15 0)
  else if off = 0x138 then
    decide (16384 < sumParts p (PgPRT.ETH_QUOTA_QP_LIMIT.of w) (fun o => q o PgPRT.ETH_QUOTA_QP_LIMIT)) ||
      decide (16384 < sumParts p (PgPRT.ETH_QUOTA_MR_LIMIT.of w) (fun o => q o PgPRT.ETH_QUOTA_MR_LIMIT))
  else if off = 0x140 then
    (otherParts p).any (fun o => decide ((PgPRT.STRANDS_MASK.of w) &&& (q o PgPRT.STRANDS_MASK) ≠ 0))
  else false

/-- Share registers (11_mesh_and_regulation.md R352). -/
def State.shareBad (s : State) (i off w : Nat) : Bool :=
  let p := i - 496
  let sum (f : Fld) : Nat := sumParts p (f.of w) (fun o => s.fld (pg cTOL (496 + o)) f)
  if off = 0x100 then
    let lr := PgTSH.HBM_SHARE_LINE_RSV.of w
    let lc := PgTSH.HBM_SHARE_LINE_CAP.of w
    let nr := PgTSH.HBM_SHARE_NARROW_RSV.of w
    let nc := PgTSH.HBM_SHARE_NARROW_CAP.of w
    outside (PgTSH.HBM_SHARE_WRBUF_CAP.of w) 1 64 || decide (16 < PgTSH.HBM_SHARE_HEADROOM.of w) || outside nc 1 32 || decide (8 < nr)
      || outside lc 1 48 || decide (12 < lr) || decide (lc < lr) || decide (nc < nr)
      || decide (24 < sum PgTSH.HBM_SHARE_LINE_RSV) || decide (16 < sum PgTSH.HBM_SHARE_NARROW_RSV)
  else if off = 0x108 then decide (8 < PgTSH.DSP_SHARE_RT_LEVELS.of w) || PgTSH.DSP_SHARE_WEIGHT.of w = 0
  else if off = 0x110 then decide (16 < PgTSH.CACHE_SHARE_STREAM_WAYS.of w)
  else false

/-- The command registers of R651: the bits of OP, the highest code that names a command, the BUSY bit. -/
def cmdReg (c i off : Nat) : Option (Nat × Nat × Nat × Option Nat) :=
  match c, off with
  | 20, 0x108 => some (15, 12, 5, some 31)
  | 20, 0x130 => some (17, 16, 2, some 31)
  | 16, 0x100 => some (26, 23, 11, some 18)
  | 19, 0x108 => if i = 0 then some (19, 16, 4, some 31) else none
  | 19, 0x120 => if i = 0 then some (17, 16, 2, some 31) else none
  | 19, 0x138 => if i = 0 then some (17, 16, 2, none) else none
  | 22, 0x130 => some (15, 14, 2, some 31)
  | 24, 0x110 => some (15, 12, 2, some 31)
  | 25, 0x108 => some (15, 12, 3, some 31)
  | 4, 0x310 => some (1, 0, 2, none)
  | 4, 0x348 => some (17, 16, 3, none)
  | 27, 0x138 => if i = 0 then some (15, 12, 3, some 31) else none
  | 27, 0x148 => if i = 0 then some (15, 12, 2, some 31) else none
  | 3, 0x100 => some (23, 20, 4, some 31)
  | 7, 0x100 => some (23, 20, 2, some 31)
  | _, _ => none

/-- A value is refused. `w`: the register as the write would leave it, command bits as written.
[DEDUCED, log entry 25; DESIGN CHOICE, log entry 26] -/
def State.regBad (s : State) (p off w : Nat) : Bool :=
  let i := pgInst p
  match cmdReg (pgCls p) i off with
  | some (hi, lo, max, busy) =>
    decide (max < natBits w hi lo) || (match busy with | some b => natBit (s.word p off).toNat b | none => false)
      || (p = pTST && decide (2 < natBits w 19 16))
  | none =>
    match pgCls p with
    | 0 => off = 0x148 && outside (PgGLB.LAYBY_CFG_DRAIN_US.of w) 100 20000
    | 4 =>
      if off = 0x300 then
        s.timeState = tmMEASURING || s.timeState = tmLOCKING || s.timeState = tmRUNNING ||
          decide (32 * PgMGT.TIME_CFG_PERIOD_TICKS.of w < PgMGT.TIME_CFG_HOLD_LEAD_TICKS.of w)
      else if off = 0x308 then s.timeState = tmMEASURING || s.timeState = tmLOCKING || s.timeState = tmRUNNING
      else off = 0x208 && outside (PgMGT.WAKE_CFG_LVL_THR.of w) 20 100
    | 6 =>
      if off = 0x120 then outside (PgSAF.LATENT_PERIOD_MS.of w) 1000 10000
      else if off = 0x128 then outside (PgSAF.MON_CFG_WARN_C.of w) 60 110
      else 0x200 ≤ off && off < 0x420 && (off - 0x200) % 0x20 = 0 && s.flag pSAF (PgSAF.RING_CFG_EN ((off - 0x200) / 0x20))
    | 8 => off = 0x100 && (outside (PgHNK.DST_CFG_FILL.of w) 1 16 || outside (PgHNK.DST_CFG_MAX_OPEN.of w) 1 4)
    | 9 => off = 0x100 && decide (PgBOB.CFG_LOOKAHEAD.of w < 8)
    | 12 =>
      if 496 ≤ i then s.shareBad i off w
      else if 0x108 ≤ off && off ≤ 0x120 then decide (natBits w 47 32 < 4)
      else if off = 0x128 then outside (PgTOL.LAT_CFG_TIMEOUT_US.of w) 1 100000
      else if off = 0x130 then
        let t1 := PgTOL.URG_CFG_T1.of w
        let t2 := PgTOL.URG_CFG_T2.of w
        let t3 := PgTOL.URG_CFG_T3.of w
        blkCap p ≠ 0 && !(decide (1 ≤ t1) && decide (t1 < t2) && decide (t2 < t3) && decide (t3 ≤ 100))
      else false
    | 13 => off = 0x100 && outside (PgCOH.CFG_SNP_TIMEOUT_US.of w) 1 100000
    | 14 => off = 0x100 && outside (PgHBM.CAL_CAL_MS.of w) 16 1000
    | 17 => off = 0x100 && outside (PgITN.CFG_MAX_INFLIGHT.of w) 1 8
    | 18 => off = 0x100 && decide (1024 < PgSCR.CFG_RATE_MIBPS.of w)
    | 19 => i = 0 && off = 0x100 && outside (PgATU.CFG_PRI_TIMEOUT_MS.of w) 1 10000
    | 22 =>
      if off = 0x100 then PgSIT.CFG_PROTO_PREF.of w = 3 || outside (PgSIT.CFG_MIN_CHANNELS.of w) 1 64
      else off = 0x140 && outside (PgSIT.THERM_CAP_DW.of w) 100 594
    | 23 =>
      if off = 0x100 then s.fabModeBad (natBit w 16)
      else if off = 0x108 then
        decide (PgFAB.TOPO_SZ_X.of w < natBits w 5 0) || decide (PgFAB.TOPO_SZ_Y.of w < natBits w 11 6) || decide (PgFAB.TOPO_SZ_Z.of w < natBits w 17 12)
      else if off = 0x120 then decide (PgFAB.E2E_TIMEOUT_US.of w < 10)
      else off = 0x158 && PgFAB.TEST_MODE.of w = 3
    | 26 =>
      off = 0x108 && (outside (PgHEP.LINK_CFG_BME_HOLD_MS.of w) 1 10000 || outside (PgHEP.LINK_CFG_GRACE_MS.of w) 1 100)
    | 27 => off = 0x108 && decide (PgETH.FC_XOFF_KIB.of w ≤ PgETH.FC_XON_KIB.of w)
    | 29 => s.prtBad i off w
    | _ => false

end Sys2Proof.Machine
end

