-- ==== Sys2Proof/Machine/Pages.lean ====
section
/-! DEFINITION. Accesses to the register space (02_register_pages.md R42-R76; 24_limits.md R651): writes under their field class, refused
accesses, reads. -/
namespace Sys2Proof.Machine
open Host

/-- The state a meaning leads to, where another meaning calls it. -/
def after (s : State) : Outcome State Fault Refusal → State
  | .next t => t
  | _ => s

/-! ### Header registers (R52-R60) -/

/-- A write of PAGE_CTRL: the bits that change, in the order ENABLE, QUIESCE_REQ, FENCE; while FAULTED a write that clears FENCE is ignored
(R65).
[DEDUCED, log entries 18, 19] -/
def State.ctrlWrite (s : State) (r : Requester) (p v : Nat) : State :=
  if s.pageState p = stFAULTED && s.flag p PgHDR.PAGE_CTRL_FENCE && !natBit v 2 then s.order p r 0x18
  else if s.pageState p = stFENCED && !hasCap p capFence && v % 8 = (s.word p 0x18).toNat % 8 then s.fenceClear r p
  else
    let s1 := if natBit v 0 = s.flag p PgHDR.PAGE_CTRL_ENABLE then s else if natBit v 0 then s.enableSet p else s.enableClear p
    let s2 := if natBit v 1 = s1.flag p PgHDR.PAGE_CTRL_QUIESCE_REQ then s1 else if natBit v 1 then s1.quiesceSet r p else s1.quiesceClear p
    if natBit v 2 = s2.flag p PgHDR.PAGE_CTRL_FENCE then s2 else if natBit v 2 then s2.fenceSet r p else s2.fenceClear r p

/-- EVENT of the MGT page stays set while the management queue is not empty (22_fault_detection.md R630). -/
def State.eventKept (s : State) (p : Nat) : State := if p = pMGT && !s.saf.evq.isEmpty then s.setInt pMGT 1 else s

/-- A write of a header register: `v`, the bits as written, 0 in a half not written; `w`, the register with the written half in place; `low`,
bits [31:0] are written.
[DEDUCED, log entry 20] -/
def State.hdrWrite (s : State) (r : Requester) (p off v w : Nat) (low : Bool) : State :=
  if off = 0x18 then (if low then s.ctrlWrite r p v else s)
  else if off = 0x20 then (if natBit v 0 then s.commitRequest r p else s)
  else if off = 0x28 then s.setWord p 0x28 (s.word p 0x28 &&& ~~~(BitVec.ofNat 64 (natBits v 3 0)))
  else if off = 0x30 then (s.setWord p 0x30 (s.word p 0x30 &&& ~~~(BitVec.ofNat 64 (v &&& intMask)))).eventKept p
  else if off = 0x38 then
    (if w &&& intMask = 0 || hasCap p capInt then s.withIrq p (fun s => s.setWord p 0x38 (BitVec.ofNat 64 (w &&& intMask))) else s.order p r 0x38)
  else if off = 0x40 then s.intTest r p v
  else if off = 0x48 then (if low then s.powerWrite r p (natBits v 1 0) else s)
  else if off = 0x58 then (if natBit v 0 then s.blockRst r p else s)
  else if off = 0x68 then (if low then s.ownerWrite r p v else s.ownerHigh r p)
  else s

/-! ### Block registers (R61, R66-R71) -/

/-- A writable field of the register crosses bit 31 (R61); INT_TEST has the layout of INT_STATUS (R57). -/
def spans (p off : Nat) : Bool :=
  off = 0x40 || (fieldsAt p off).any (fun f => (f.acc = .rw || f.acc = .wo || f.acc = .w1c || f.acc = .w1s) && decide (f.lo < 32) && decide (32 ≤ f.hi))

/-- The page takes a write of a QUIESCE register (R68); the shared registers of the FAB pages while every present one is IDLE or FENCED
(14_fabric_links.md R452), or FAULTED, in which block registers behave as in FENCED (R66). -/
def State.quietReg (s : State) (p off : Nat) : Bool :=
  if pgCls p = cFAB && 0x108 ≤ off && off ≤ 0x118 then
    (List.range 6).all (fun a => s.pageAbsent (pg cFAB a) || s.quiet (pg cFAB a))
  else s.quiet p

/-- Registers that a page of the class has and this one does not: they read 0 and ignore writes (11_mesh_and_regulation.md R351; 17_network_ports.md
R532).
[DEDUCED, log entry 27] -/
def notThere (p off : Nat) : Bool :=
  (pgCls p = cTOL && off = 0x130 && pgInst p ≤ 490 && blkCap p = 0) || (pgCls p = cETH && pgInst p ≠ 0 && 0x138 ≤ off)

/-- W1C bits written as 1 clear; every other bit is as `w` has it. -/
def clearOnes (p off v w : Nat) : Nat :=
  (fieldsAt p off).foldl (fun w f => if f.acc = .w1c then natSetBits w f.hi f.lo (natBits w f.hi f.lo &&& (2 ^ 64 - 1 - natBits v f.hi f.lo)) else w) w

/-- What follows a stored register (11_mesh_and_regulation.md R353; 07_skein_memory.md R211; 20_power_domains.md R590).
[DEDUCED, log entry 35] -/
def State.written (s : State) (r : Requester) (p off : Nat) : State :=
  let i := pgInst p
  match pgCls p with
  | 4 => if off = 0x208 then s.setFld p PgMGT.WAKE_CFG_WAKE_N_EN (s.fld p PgMGT.WAKE_CFG_WAKE_N_EN &&& 0xB) else s
  | 10 =>
    if 0x138 ≤ off && off < 0x1B8 then
      let k := (off - 0x138) / 8
      let op := s.fld p (PgSKN.APERTURE_OP k)
      if s.flag p (PgSKN.APERTURE_ENABLE k) && !((op ≤ 3 || op = 6) && atomAccepts op (s.fld p (PgSKN.APERTURE_TYPE k))) then s.order p r off else s
    else s
  | 12 =>
    if i ≤ 490 && 0x108 ≤ off && off ≤ 0x120 then
      let c := (off - 0x108) / 8
      let burst := s.fld p (PgTOL.BUCKET_BURST c)
      if (burst : Int) < s.tokens i c then s.setFld p (PgTOL.BUCKET_TOKENS c) burst else s
    else s
  | _ => s

/-- Registers whose write is an operation of its own; `w`, the register as the write would leave it; `full`, both halves as written over the
stored ones. -/
def State.regOp (s : State) (r : Requester) (p off v w full : Nat) (low : Bool) : Option State :=
  let i := pgInst p
  match pgCls p with
  | 0 => if off = 0x110 then some (s.dmmCfgWrite full) else none
  | 2 => if off = 0x108 then some (if low then s.lcTarget r .mgmt (v % 16) else s) else none
  | 4 =>
    if off = 0x200 then some (
      if !low then s
      else if natBits v 1 0 = 3 || natBits v 3 2 = 3 then s.order p r off
      else (s.sleepWrite r 821 PgMGT.SLEEP_CORE_REQ (natBits v 1 0)).sleepWrite r 823 PgMGT.SLEEP_MGMT_REQ (natBits v 3 2))
    else none
  | 6 =>
    if off = 0x118 then
      let s1 := s.setWord p off (BitVec.ofNat 64 w)
      some (if natBit v 7 then s1.faultRelease r else s1)
    else if 0x208 ≤ off && off < 0x420 && (off - 0x208) % 0x20 = 0 then some (s.ringCfg r ((off - 0x208) / 0x20) w)
    else none
  | 8 => if off = 0x108 then some (s.spFence r p i full) else none
  | 10 => if 0x1B8 ≤ off && off < 0x1D8 then some (s.gatherWrite i ((off - 0x1B8) / 8) w) else none
  | 30 =>
    if off = 0x100 then some (
      if natBit v 39 then s.dbgHalt (natBits v 35 31) (natBits v 30 19)
      else ((if s.flag p PgDBG.CTRL_HALT then s.dbgRelease else s).setFld p PgDBG.CTRL_CLASS (natBits v 35 31)).setFld p PgDBG.CTRL_INSTANCE
        (natBits v 30 19))
    else if off = 0x110 then some (s.dbgWrite r v)
    else if off = 0x118 then some (if natBit v 0 then s.dbgStep else s)
    else none
  | _ => none

/-- A write of a block register under its field class; `src` is the offset PAGE_ERR captures. -/
def State.blockWrite (s : State) (r : Requester) (p off src v full : Nat) (low : Bool) : State :=
  let fs := fieldsAt p off
  let w := clearOnes p off v (s.mergeReg p off full)
  let wo := fs.foldl (fun w f => if f.acc = .wo then natSetBits w f.hi f.lo (natBits v f.hi f.lo) else w) w
  if !fs.any (fun f => f.acc = .rw || f.acc = .wo || f.acc = .w1c || f.acc = .w1s) then s
  else if fs.any (fun f => f.cls = .quiesce) && !s.quietReg p off then s.pageErr p .qwrite r src
  else if fs.any (fun f => f.cls = .staged) && s.flag p PgHDR.PAGE_STATE_COMMIT_BUSY then s.order p r src
  else if s.regBad p off wo then s.order p r src
  else match s.regOp r p off v w full low with
    | some t => t
    | none =>
      let s1 := s.setWord p off (BitVec.ofNat 64 w)
      let s2 := if fs.any (fun f => f.cls = .staged) then s1.setFld p PgHDR.PAGE_STATE_STAGED_PENDING 1 else s1
      s2.written r p off

/-! ### Commands that a write starts (R651) -/

/-- START of a loop-back test with its arguments: they are kept where the test starts. -/
def State.testArgs (s : State) (p off v : Nat) (m : Nat) (start : Fld) (f : State → Outcome State Fault Refusal) : State :=
  let s1 := if s.flag p start then s else s.setWord p off (BitVec.ofNat 64 (((s.word p off).toNat - ((s.word p off).toNat &&& m)) ||| (v &&& m)))
  let s2 := after s1 (f s1)
  if s2.flag p start then s2 else after s (f s)

/-- The row a write of a command register stands for: `v`, the bits as written; `w`, the register with the written fields in place. Commands
whose data are operands of their own row (PLY SET, IMG SEND, the mailbox, QP CREATE where the hub does not hold its context) start by that row.
[DESIGN CHOICE, log entry 21; DEDUCED, log entry 22] -/
def State.cmdStart (s : State) (r : Requester) (c i off v w : Nat) (low wide : Bool) : Option State :=
  let go (o : Outcome State Fault Refusal) : Option State := some (after s o)
  let bad := s.regBad (pg c i) off
  match c, off with
  | 20, 0x108 =>
    let q := natBits w 11 0
    match natBits v 15 12 with
    | 1 => go (execQueueCreate r i q s) | 2 => go (execQueueDestroy r i q s) | 3 => go (execQueueStop r i q s)
    | 4 => go (execQueueStart r i q s) | 5 => go (execQueueQuery r i q s) | _ => none
  | 20, 0x130 =>
    let e := natBits w 13 0
    if !low then none
    else match natBits v 17 16 with
      | 0 => go (execEventRead r i e .good s) | 1 => go (execEventSet r i e s) | 2 => go (execEventForward r i e s) | _ => none
  | 16, 0x100 =>
    let a := natBits w 63 46
    let n := natBits w 45 27
    let k := natBits w 17 14
    match natBits v 26 23 with
    | 1 => go (execAlloc r i a n k s) | 2 => go (execFree r i a n k s) | 3 => go (execSetGroup r i a n k s) | 4 => go (execShare r i a n k s)
    | 5 => go (execUnshare r i a n k s) | 6 => go (execSetReplica r i a n k s) | 7 => go (execClearReplica r i a n k s)
    | 8 => go (execAttachPool r i a n k s) | 9 => go (execDetachPool r i a n k s) | 10 => go (execGranuleQuery r i a n k s)
    | 11 => go (execFreeAll r i a n k s) | _ => none
  | 19, 0x108 =>
    let k := natBits w 11 0
    if i ≠ 0 then none
    else match natBits v 19 16 with
      | 1 => go (execCtxBind r k s) | 2 => go (execCtxUnbind r k s) | 3 => go (execCtxQuery r k s) | 4 => go (execCtxFind r k s) | _ => none
  | 19, 0x120 =>
    let k := natBits w 11 0
    if i ≠ 0 then none
    else match natBits v 17 16 with | 1 => go (execInvRange r k s) | 2 => go (execInvContext r k s) | _ => none
  | 19, 0x138 =>
    if i ≠ 0 then none
    else match natBits v 17 16 with
      | 1 => go (execFqRetry r (natBits v 9 0) s) | 2 => go (execFqFail r (natBits v 9 0) s) | _ => none
  | 19, 0x118 => if i ≠ 0 && natBit v 0 then go (execL1Flush r i s) else none
  | 22, 0x130 =>
    match natBits v 15 14 with
    | 1 => go (execSiteCfgRead r i (natBits w 11 9) (natBits w 8 0) s)
    | 2 => go (execSiteCfgWrite r i (natBits w 11 9) (natBits w 8 0) s)
    | _ => none
  | 22, 0x148 => if natBit v 0 then some (s.testArgs (pg cSIT i) off w 0xFF02 PgSIT.TEST_START (execSiteTestStart r i)) else none
  | 22, 0x218 => go (execChannelRetrain r i v s)
  | 23, 0x158 =>
    if natBit v 0 && !bad w then some (s.testArgs (pg cFAB i) off w 0xFF0F06 PgFAB.TEST_START (execFabTestStart r i)) else none
  | 24, 0x110 => match natBits v 15 12 with | 1 => go (execSchedLoad r i s) | 2 => go (execSchedClear r i s) | _ => none
  | 25, 0x108 =>
    match natBits v 15 12 with | 2 => go (execPlyClear r (natBits w 9 0) s) | 3 => go (execPlyQuery r (natBits w 9 0) s) | _ => none
  | 4, 0x310 => match natBits v 1 0 with | 1 => go (execTimeSyncCmd r s) | 2 => go (execTimeStop r s) | _ => none
  | 4, 0x348 =>
    match natBits v 17 16 with | 2 => go (execImgArm r (natBits w 15 0) s) | 3 => go (execImgAbort r (natBits w 15 0) s) | _ => none
  | 4, 0x360 => if natBit v 0 then go (execWarmReset r s) else none
  | 4, 0x3A8 => if natBit v 0 then go (execEvqPop r s) else none
  | 27, 0x138 =>
    if i ≠ 0 then none
    else match natBits v 15 12 with
      | 1 => if (s.qpCtxAt (natBits w 51 48)).isNone then none else go (execQpCreate r (natBits w 51 48) (natBits w 45 32) none s)
      | 2 => go (execQpDestroy r (natBits w 51 48) (natBits w 45 32) s) | 3 => go (execQpQuery r (natBits w 51 48) (natBits w 45 32) s) | _ => none
  | 27, 0x148 =>
    if i ≠ 0 then none
    else match natBits v 15 12 with
      | 1 => go (execMrRegister r (natBits w 45 32) (natBits w 7 0) s) | 2 => go (execMrInvalidate r (natBits w 45 32) (natBits w 7 0) s) | _ => none
  | 27, 0x160 =>
    if i ≠ 0 || !wide then none
    else match natBits v 63 62 with
      | 0 => go (execEthDbSq r (natBits v 45 32) (natBits v 31 0) s) | 1 => go (execEthDbRq r (natBits v 45 32) (natBits v 31 0) s)
      | 2 => go (execEthDbCq r (natBits v 45 32) (natBits v 31 0) s) | _ => none
  | 15, 0x100 => if natBit v 0 then go (execHchRetrain r i s) else none
  | 29, 0x148 => if natBit v 0 then go (execPartitionReset r i s) else none
  | 7, 0x100 =>
    match natBits v 23 20, natBits w 19 16 with
    | 1, 0 => go (execTstStartHank r (natBits w 8 0) s)
    | 1, 1 => go (execTstStartSlice r (natBits w 8 0) s)
    | 1, 2 => go (execTstStartLatent r (Config.latentFails s.freeCtr) { s with freeCtr := s.freeCtr + 1 })
    | 2, k => if k ≤ 2 then go (execTstAbort r s) else none
    | _, _ => none
  | _, _ => none

/-! ### Areas that only the host writes -/

/-- The MSI-X table (16_host_endpoint.md R499): an unmasked vector that is pending sends its message. -/
def State.msixWrite (s : State) (o size data : Nat) (high : Bool) : State :=
  let v := o / 16
  let x := s.vec v
  let full := mergeHalf (s.msixWord (o / 8 * 8)) size high data
  if o % 16 < 8 then s.setVec v { x with addr := full }
  else (s.setVec v { x with data := natBits full 31 0, mask := natBit full 32 }).sendPending

/-- A write of a doorbell page (06_task_graphs.md R164). -/
def State.doorbell (s : State) (addr data : Nat) : State :=
  let q := (addr - 2 ^ 28) / 0x1000
  match addr % 0x1000 with
  | 0x000 => after s (execDbTail q (data % 2 ^ 32) s)
  | 0x018 => after s (execDbEvent q (data % 2 ^ 14) s)
  | _ => s.hostIn id

/-! ### Writes -/

/-- A write by a requester (R46-R49, R61, R66-R71, R74, R651).
[DEDUCED, log entry 17] -/
def State.regWrite (s : State) (r : Requester) (addr size data : Nat) : State :=
  let c := addr / 0x800000
  let i := addr / 0x1000 % 2048
  let src := addr % 0x1000
  let off := src / 8 * 8
  let high := decide (4 ≤ addr % 8)
  let ok := goodAccess addr size
  if 2 ^ 28 ≤ addr then
    (if r ≠ .host || 2 ^ 28 + 2 ^ 24 ≤ addr then s else if ok then s.doorbell addr data else s.hostIn id)
  else if hostArea addr then
    (if r ≠ .host then s else s.hostIn (fun s => if ok && addr - 0x0D010000 < 0x8000 then s.msixWrite (addr - 0x0D010000) size data high else s))
  else
    let p := pg c i
    let v := mergeHalf 0 size high data
    let full := mergeHalf (s.word p off).toNat size high data
    let started := if ok && 0x100 ≤ off && !(size = 4 && spans p off) then
        s.cmdStart r c i off v (s.mergeReg p off full) (size = 8 || !high) (size = 8)
      else none
    match started with
    | some t => t
    | none =>
      s.gateHdr r c i src (fun p s =>
        if !ok then s.pageErr p .access r src
        else if 0x100 + 8 * blkLen p ≤ off && 0x100 ≤ off then s
        else if size = 4 && spans p off then s.pageErr p .access r src
        else if off < 0x100 then s.hdrWrite r p off v full (size = 8 || !high)
        else if s.blockShut p off then s.order p r src
        else if notThere p off then s
        else s.blockWrite r p off src v full (size = 8 || !high))

/-! ### Rows -/

/-- [DEDUCED, log entry 15] -/
def execRegisterWrite (r : Requester) (addr size data : Nat) (s : State) : Outcome State Fault Refusal :=
  .next (s.regWrite r addr size data).kick.atuWork

/-- An access of a size or at an address the hub does not accept (R47): a read answers 0, a write is dropped. -/
def State.badAccess (s : State) (r : Requester) (addr size : Nat) (write : Bool) : State :=
  if goodAccess addr size then s else if write then s.regWrite r addr size 0 else s.readReq r addr size

def execInvalidAccess (r : Requester) (addr size : Nat) (write : Bool) (s : State) : Outcome State Fault Refusal :=
  .next (s.badAccess r addr size write)

/-- An access to a page the requester does not see (R74). -/
def State.blindAccess (s : State) (r : Requester) (addr : Nat) (write : Bool) : State :=
  let p := pg (addr / 0x800000) (addr / 0x1000 % 2048)
  if sees r (s.accessClass p) then s else if write then s.regWrite r (addr / 8 * 8) 8 0 else s.readReq r (addr / 8 * 8) 8

def execInvisiblePageAccess (r : Requester) (addr : Nat) (write : Bool) (s : State) : Outcome State Fault Refusal :=
  .next (s.blindAccess r addr write)

/-- [DEDUCED, log entry 15; DESIGN CHOICE, log entry 215] -/
def execRcFieldRead (r : Requester) (addr size : Nat) (s : State) : Outcome State Fault Refusal := .next (s.readReq r addr size)

end Sys2Proof.Machine
end

