-- ==== Sys2Proof/Machine/Trust.lean ====
section
/-! DEFINITION. Attestation, sessions, the owner's commands, job keys, staged firmware and the ROT mailbox (19_trust_and_tenancy.md
R553-R572). -/
namespace Sys2Proof.Machine
open Host

/-! ### Transports (R561, R562) -/

/-- The number of a transport, under which its connection lies. -/
def trNum : Transport → Nat
  | .i3c => 0 | .sgmii => 1 | .doe => 2 | .fabric => 3

/-- A management transport (R562): its sessions share one count and may carry management commands. -/
def trMgmt (t : Transport) : Bool := t = .i3c || t = .sgmii

/-- Only mask ROM runs (R554; 18_life_cycle.md R535): both copies of MR 2 or MR 3 failed, or the hub is BLANK.
[DEDUCED, log entry 87] -/
def State.romOnly (s : State) : Bool := s.lc.state = lcBLANK || (s.rot.halted && ((s.comp 2).down || (s.comp 3).down))

/-- A request that arrives on a transport is looked at (R554, R562, R563, R572; 18_life_cycle.md R535; 22_fault_detection.md R617): the ROT
has started and has not halted but for mask ROM's responder, and the transport is in service; a hub in reset answers nothing over the fabric.
[DEDUCED, log entries 87, 88] -/
def State.served (s : State) (t : Transport) : Bool :=
  s.rot.booted && s.lc.state ≠ lcSCRAPPED && (!s.rot.halted || s.romOnly) &&
    (match t with
     | .i3c => true
     | .sgmii => !s.romOnly && s.flag pMGT PgMGT.NET_CFG_ENABLE
     | .doe => !s.romOnly && s.dlUp
     | .fabric => !s.romOnly && !s.boot.warm && s.lc.stage = 0)

/-- The owner policy admits attestation on the transport (R562, R565).
[DEDUCED, log entry 89] -/
def State.trAdmits (s : State) (t : Transport) : Bool :=
  match t, s.rot.owner with
  | .doe, some o => o.policy.allowDoe
  | .fabric, some o => o.policy.allowFabric
  | .doe, none => false
  | .fabric, none => false
  | _, _ => true

/-- The identity key is in use (R564; 18_life_cycle.md R535).
[DEDUCED, log entry 86] -/
def State.hasIdentity (s : State) : Bool := s.lc.state = lcPROVISIONED || s.lc.state = lcDEPLOYED || s.lc.state = lcFIELD_DEBUG

def State.conn (s : State) (t : Transport) : SpdmConn := NMap.getD s.rot.conns {} (trNum t)
def State.setConn (s : State) (t : Transport) (c : SpdmConn) : State :=
  { s with rot := { s.rot with conns := NMap.put s.rot.conns {} (trNum t) c } }

/-- ERROR responses (R558, R562).
[PRESUMED, log entries 83, 84] -/
def errUnsupported : Nat := 0
/-- [PRESUMED, log entry 83] -/
def errNotReady : Nat := 1
/-- [PRESUMED, log entries 83, 84] -/
def errUnexpected : Nat := 2

/-- A request on a transport (R562): unanswered where the ROT or the transport is out of service, UnsupportedRequest where it is not
admitted, UnexpectedRequest before the connection has come to `phase`.
[PRESUMED, log entry 83] -/
def State.request (s : State) (t : Transport) (phase : Nat) (k : State → State) : State :=
  if !s.served t then s
  else if !s.trAdmits t then s.emit (.spdmError t errUnsupported)
  else if (s.conn t).phase < phase then s.emit (.spdmError t errUnexpected)
  else k s

/-- A request whose answer the identity key signs.
[DEDUCED, log entry 86] -/
def State.signed (s : State) (t : Transport) (k : State → State) : State :=
  s.request t 3 (fun s => if s.hasIdentity then k s else s.emit (.spdmError t errUnsupported))

/-- A value of the answer that the spec leaves open: a signature, a certificate's bytes.
[DESIGN CHOICE, log entries 85, 207] -/
def State.freeNat (s : State) : Nat × State := (s.fresh.1.toNat, s.fresh.2)

/-! ### Attestation (R558-R561) -/

/-- GET_VERSION: versions 1.2 and 1.3; the connection starts over. -/
def execGetVersion (t : Transport) (s : State) : Outcome State Fault Refusal :=
  .next (s.request t 0 (fun s => (s.setConn t { phase := 1 }).emit (.spdm t 0x04 [0x12, 0x13])))

/-- GET_CAPABILITIES. -/
def execGetCapabilities (t : Transport) (s : State) : Outcome State Fault Refusal :=
  .next (s.request t 1 (fun s => (s.setConn t { s.conn t with phase := max 2 (s.conn t).phase }).emit (.spdm t 0x61 [])))

/-- NEGOTIATE_ALGORITHMS: ECDSA P-384, SHA-384, secp384r1, AES-256-GCM are the only ones. -/
def execNegotiateAlgorithms (t : Transport) (s : State) : Outcome State Fault Refusal :=
  .next (s.request t 2 (fun s => (s.setConn t { s.conn t with phase := 3 }).emit (.spdm t 0x63 [])))

/-- GET_DIGESTS: the two certificate slots. -/
def execGetDigests (t : Transport) (s : State) : Outcome State Fault Refusal :=
  .next (s.signed t (fun s => s.emit (.spdm t 0x01 [3, (Config.certDigest 0).toNat, (Config.certDigest 1).toNat])))

/-- GET_CERTIFICATE: a chain exceeds one message (R561); the rest is read by CHUNK_GET. -/
def execGetCertificate (t : Transport) (slot offset : Nat) (s : State) : Outcome State Fault Refusal :=
  .next (s.signed t (fun s =>
    if 2 ≤ slot then s.emit (.spdmError t errUnexpected)
    else
      let f := s.freeNat
      (f.2.setConn t { s.conn t with chunkOut := f.1 % 2 ^ 16 }).emit (.spdm t 0x02 [slot, offset])))

/-- CHALLENGE: signed with the identity key. -/
def execChallenge (t : Transport) (nonce : Nat) (s : State) : Outcome State Fault Refusal :=
  .next (s.signed t (fun s => let f := s.freeNat; f.2.emit (.spdm t 0x03 [nonce, f.1])))

/-- Instances of a component (R560): in service, reloading, fenced.
[DEDUCED, log entry 101] -/
def State.instances (s : State) (m : Nat) : Nat × Nat × Nat :=
  let n (b : Bool) : Nat × Nat × Nat := if b then (1, 0, 0) else (0, 0, 1)
  let down := (s.comp m).down
  if m = 3 then n (!down && !s.saf.mgmtHeld)
  else if m = 5 then
    let re := s.deliv.length
    let fenced := ((List.range 400).filter (fun h => !s.live (.hank h) && (s.unit (.hank h)).sub = scFIRMWARE)).length
    (((List.range 400).filter (fun h => s.live (.hank h) && (s.delivery h).isNone)).length, re, fenced)
  else if m = 6 then
    let k := ((List.range 12).filter (fun p => s.live (.optAtt (p / 2)))).length
    if down then (0, 0, k) else (k, 0, 0)
  else if m = 7 then
    let l := (List.range 4).filter (fun x => s.live (.site x))
    let re := (l.filter (fun x => (s.siteSt x).resetting)).length
    (l.length - re, re, ((List.range 4).filter (fun x => !s.live (.site x) && (s.unit (.site x)).sub = scFIRMWARE)).length)
  else n (!down)

/-- The state of a component (R557): the first condition that applies.
[DEDUCED, log entry 100] -/
def State.compState (s : State) (m : Nat) : Nat :=
  let i := s.instances m
  if 0 < i.2.2 then 3 else if 0 < i.2.1 then 2 else if (s.comp m).pendingImage.isSome then 1 else 0

/-- The component state table (R560): six records of 8 bytes. -/
def State.compTable (s : State) : List Byte :=
  ([2, 3, 4, 5, 6, 7] : List Nat).flatMap (fun m =>
    let i := s.instances m
    natLe 1 m ++ natLe 1 (s.compState m) ++ natLe 2 i.1 ++ natLe 2 i.2.1 ++ natLe 2 i.2.2)

/-- An entry of the measurement log (R555): 64 bytes. -/
def MeasEntry.bytes (e : MeasEntry) : List Byte :=
  natLe 1 e.mr ++ natLe 1 e.event ++ natLe 2 0 ++ natLe 4 e.seq ++ natLe 4 e.svn ++ natLe 4 e.version ++ digestBytes e.digest

/-- The measurement log as block 0x41 (R559): OVERFLOW in byte 0, entries from byte 8.
[DESIGN CHOICE, log entry 72] -/
def State.logBytes (s : State) : List Byte := natLe 8 (b2n s.rot.overflow) ++ s.rot.log.flatMap MeasEntry.bytes

/-- A measurement block by its index (R559); `none` where there is none.
[DESIGN CHOICE, log entry 72] -/
def State.measBlock (s : State) (i : Nat) : Option Nat :=
  if 1 ≤ i && i ≤ 11 then some (leNat (digestBytes (s.mreg i)))
  else if 0x22 ≤ i && i ≤ 0x27 then ((s.comp (i - 0x20)).pendingImage).map (fun (x : FwImage) => leNat (digestBytes x.digest))
  else if i = 0x40 then some (leNat s.compTable)
  else if i = 0x41 then some (leNat s.logBytes)
  else none

/-- Every index in order. -/
def measIndices : List Nat := (List.range 11).map (· + 1) ++ (List.range 6).map (· + 0x22) ++ [0x40, 0x41]

/-- The blocks a request asks for: one, or with 0xFF all there are. -/
def State.measBlocks (s : State) (index : Nat) : List (Nat × Nat) :=
  (if index = 0xFF then measIndices else [index]).filterMap (fun i => (s.measBlock i).map (fun v => (i, v)))

/-- An activation has started and its extension has not ended it (R558): the ROT works on a pending image in W2 or at the restart of a
life-cycle transition.
[DEDUCED, log entries 95, 96] -/
def State.activationOn (s : State) : Bool :=
  let some' (ms : List Nat) : Bool := ms.any (fun m => (s.comp m).pendingImage.isSome)
  (s.boot.running.contains 10 && some' [4, 5, 6, 7]) || (s.lc.stage = 6 && some' [2, 3, 4, 5, 6, 7])

/-- A session of a transport. -/
def State.session (s : State) (id : Nat) : Option Session := s.rot.sessions.find? (fun x => x.id = id)
def State.setSession (s : State) (y : Session) : State :=
  { s with rot := { s.rot with sessions := s.rot.sessions.map (fun x => if x.id = y.id then y else x) } }
def State.endSession (s : State) (id : Nat) : State :=
  { s with rot := { s.rot with sessions := s.rot.sessions.filter (fun x => x.id ≠ id) } }

/-- GET_MEASUREMENTS with signature (R558-R560): one snapshot; ResponseNotReady during an activation. -/
def State.measure (s : State) (t : Transport) (session : Option Nat) (index nonce : Nat) : State :=
  let mine := match session with
    | none => some none
    | some i => (match s.session i with | some x => (if x.tr = t && x.up then some (some x) else none) | none => none)
  match mine with
  | none => s.emit (.spdmError t errUnexpected)
  | some who =>
    let bs := s.measBlocks index
    if s.activationOn then s.emit (.spdmError t errNotReady)
    else if bs = [] then s.emit (.spdmError t errUnexpected)
    else
      let f := s.freeNat
      let g := f.2.freeNat
      let s1 := match who with | some x => g.2.setSession { x with transcript := some g.1 } | none => g.2
      let s2 := if bs.any (fun b => b.1 = 0x41) then s1.setConn t { s1.conn t with chunkOut := s.logBytes.length } else s1
      (s2.emit (.spdm t 0x60 [nonce, f.1])).emit (.report t bs s.rot.overflow)

def execGetMeasurements (t : Transport) (session : Option Nat) (index nonce : Nat) (s : State) : Outcome State Fault Refusal :=
  .next (s.signed t (fun s => s.measure t session index nonce))

/-! ### Sessions (R561, R562, R566) -/

/-- Sessions a transport may still open (R562): four on the two management transports together, two on DOE, eight over the fabric. -/
def State.sessionRoom (s : State) (t : Transport) : Bool :=
  let n (f : Transport → Bool) : Nat := (s.rot.sessions.filter (fun x => f x.tr)).length
  match t with
  | .doe => decide (n (fun u => u = .doe) < 2)
  | .fabric => decide (n (fun u => u = .fabric) < 8)
  | _ => decide (n trMgmt < 4)

/-- KEY_EXCHANGE opens a session; DOE has responder-only authentication. -/
def execKeyExchange (t : Transport) (mutAuth : Bool) (s : State) : Outcome State Fault Refusal :=
  .next (s.signed t (fun s =>
    if mutAuth && !trMgmt t then s.emit (.spdmError t errUnsupported)
    else if !s.sessionRoom t then s.emit (.spdmError t errUnexpected)
    else
      let f := s.freeNat
      let id := s.rot.nextSession
      let s1 : State := { f.2 with rot := { f.2.rot with
        sessions := f.2.rot.sessions ++ [{ id := id, tr := t, mutAuth := mutAuth }], nextSession := id + 1 } }
      s1.emit (.spdm t 0x64 [id, f.1])))

/-- A request inside a session. -/
def State.inSession (s : State) (t : Transport) (session : Nat) (up : Bool) (k : Session → State → State) : State :=
  s.request t 3 (fun s =>
    match s.session session with
    | some x => if x.tr = t && x.up = up then k x s else s.emit (.spdmError t errUnexpected)
    | none => s.emit (.spdmError t errUnexpected))

/-- FINISH: `ok`, the requester's verification data and signature check; `chainOk`, its chain ends at the owner's trust anchor (R565). -/
def execFinish (t : Transport) (session : Nat) (ok chainOk : Bool) (s : State) : Outcome State Fault Refusal :=
  .next (s.inSession t session false (fun x s =>
    if ok && (!x.mutAuth || (chainOk && s.rot.owner.isSome)) then (s.setSession { x with up := true }).emit (.spdm t 0x65 [session])
    else (s.endSession session).emit (.spdmError t errUnexpected)))

def execEndSession (t : Transport) (session : Nat) (s : State) : Outcome State Fault Refusal :=
  .next (s.inSession t session true (fun _ s => (s.endSession session).emit (.spdm t 0x6C [session])))

/-- HEARTBEAT holds the session open (R566). -/
def execHeartbeat (t : Transport) (session : Nat) (s : State) : Outcome State Fault Refusal :=
  .next (s.inSession t session true (fun x s => (s.setSession { x with beat := true }).emit (.spdm t 0x68 [session])))

def execKeyUpdate (t : Transport) (session : Nat) (s : State) : Outcome State Fault Refusal :=
  .next (s.inSession t session true (fun x s => (s.setSession { x with epoch := x.epoch + 1 }).emit (.spdm t 0x69 [session])))

/-- CHUNK_SEND: part of a large request. -/
def execChunkSend (t : Transport) (bytes : Nat) (last : Bool) (s : State) : Outcome State Fault Refusal :=
  .next (s.request t 3 (fun s =>
    let c := s.conn t
    (s.setConn t { c with chunkIn := if last then 0 else c.chunkIn + bytes }).emit (.spdm t 0x05 [c.chunkIn + bytes])))

/-- CHUNK_GET: part of a large response; refused where none is left. -/
def execChunkGet (t : Transport) (bytes : Nat) (s : State) : Outcome State Fault Refusal :=
  .next (s.request t 3 (fun s =>
    let c := s.conn t
    let n := min bytes c.chunkOut
    if c.chunkOut = 0 then s.emit (.spdmError t errUnexpected)
    else (s.setConn t { c with chunkOut := c.chunkOut - n }).emit (.spdm t 0x06 [n])))

/-- PQ_SIGN: an ML-DSA-87 signature of the transcript hash of the session's last GET_MEASUREMENTS exchange. -/
def execPqSign (t : Transport) (session : Nat) (s : State) : Outcome State Fault Refusal :=
  .next (s.inSession t session true (fun x s =>
    if !s.hasIdentity then s.emit (.spdmError t errUnsupported)
    else match x.transcript with
      | none => s.emit (.spdmError t errUnexpected)
      | some h => let f := s.freeNat; f.2.emit (.spdm t 0x7E [h, f.1])))

/-- 60 s pass without traffic (R566): the session ends unless heartbeat holds it open.
[DEDUCED, log entry 99] -/
def execSessionTimeout (session : Nat) (s : State) : Outcome State Fault Refusal :=
  match s.session session with
  | none => .next s
  | some x => .next (if x.beat then s.setSession { x with beat := false } else s.endSession session)

/-! ### Management commands (R565) -/

/-- Results (R569).
[PRESUMED, log entry 90] -/
def resOK : Nat := 0
def resBAD_FORMAT : Nat := 1
def resAUTH_FAIL : Nat := 2
def resWRONG_HUB : Nat := 3
def resSLOT_CONFLICT : Nat := 4
def resNOT_PERMITTED : Nat := 5
def resSVN_LOW : Nat := 6
def resFLASH_FAIL : Nat := 7

/-- [PRESUMED, log entry 90] -/
def State.mgmtReply (s : State) (session res : Nat) : State := s.emit (.mgmtAnswer session res)

/-- A command inside an established session: only on a management transport (R562). -/
def State.mgmtSession (s : State) (session : Nat) (k : Session → State → State) : State :=
  match s.session session with
  | none => s
  | some x =>
    if !x.up || !s.served x.tr then s
    else if !trMgmt x.tr then s.emit (.spdmError x.tr errUnsupported)
    else k x s

/-- A command other than SET_OWNER (R565, R566): served once there is an owner, in a mutually authenticated session. -/
def State.mgmtCmd (s : State) (session : Nat) (k : State → State) : State :=
  s.mgmtSession session (fun x s =>
    if s.rot.owner.isNone || !x.mutAuth then s.emit (.spdmError x.tr errUnsupported) else k s)

def execRegRead (session addr size : Nat) (s : State) : Outcome State Fault Refusal :=
  .next (s.mgmtCmd session (fun s => (s.readReq .mgmt addr size).mgmtReply session resOK))

def execRegWrite (session addr size data : Nat) (s : State) : Outcome State Fault Refusal :=
  .next (s.mgmtCmd session (fun s => (s.regWrite .mgmt addr size data).mgmtReply session resOK)).kick.atuWork

/-- The owner record becomes `o`: MR 11 is extended (R553, R565), and what the new policy lets leave the hub leaves (R571). -/
def State.ownerSet (s : State) (o : OwnerRec) : State :=
  (({ s with rot := { s.rot with owner := some o } } : State).extend 11 mevCONFIG 0 0 (Config.policyDigest (policyFields o.policy))).hostRelease

/-- SET_OWNER: no owner record exists, in a responder-only session.
[DEDUCED, log entry 92] -/
def execSetOwner (session : Nat) (o : OwnerRec) (s : State) : Outcome State Fault Refusal :=
  .next (s.mgmtSession session (fun x s =>
    if s.rot.owner.isSome || x.mutAuth then s.mgmtReply session resNOT_PERMITTED else (s.ownerSet o).mgmtReply session resOK))

/-- REPLACE_OWNER: signed by the current anchor; every other management session ends. -/
def execReplaceOwner (session : Nat) (o : OwnerRec) (signed : Bool) (s : State) : Outcome State Fault Refusal :=
  .next (s.mgmtCmd session (fun s =>
    if !signed then s.mgmtReply session resAUTH_FAIL
    else
      let s1 := s.ownerSet o
      ({ s1 with rot := { s1.rot with sessions := s1.rot.sessions.filter (fun x => x.id = session || !trMgmt x.tr) } } : State).mgmtReply session
        resOK))

def execSetPolicy (session : Nat) (p : OwnerPolicy) (signed : Bool) (s : State) : Outcome State Fault Refusal :=
  .next (s.mgmtCmd session (fun s =>
    match s.rot.owner with
    | some o => if signed then (s.ownerSet { o with policy := p }).mgmtReply session resOK else s.mgmtReply session resAUTH_FAIL
    | none => s))

/-! ### Job keys (R567, R443, R444) -/

/-- A key slot of a port. -/
def State.key (s : State) (port slot : Nat) : FabKey := NMap.getD s.fab.keys {} (port * 16 + slot)
def State.setKey (s : State) (port slot : Nat) (k : FabKey) : State :=
  { s with fab := { s.fab with keys := NMap.put s.fab.keys {} (port * 16 + slot) k } }

/-- An entry names a port that is present, and slot 0 for JOB 0 only. -/
def State.entryFits (s : State) (job : Nat) (e : KeyEntry) : Bool :=
  decide (e.port < 12) && !s.absent (.optAtt (e.port / 2)) && decide (e.slot < 16) && decide (e.slot = 0 ↔ job = 0)

/-- The slot of an entry holds another job's keys. -/
def State.entryClash (s : State) (job : Nat) (e : KeyEntry) : Bool :=
  let k := s.key e.port e.slot
  (k.cur.isSome || k.next.isSome) && decide (k.job ≠ job)

/-- Keys can be unwrapped (R549, R564, R567, R572): the key-encryption key exists and is used, no reset runs.
[DEDUCED, log entry 93] -/
def State.keysOpen (s : State) : Bool := (s.lc.state = lcPROVISIONED || s.lc.state = lcDEPLOYED) && !s.boot.warm && s.lc.stage = 0

/-- RESULT of a blob (R567, R569): the lowest code that applies (24_limits.md R651).
[DEDUCED, log entry 98] -/
def State.blobResult (s : State) (b : KeyBlob) : Nat :=
  if b.version ≠ 1 || b.entries.length = 0 || 24 < b.entries.length || b.entries.any (fun e => !s.entryFits b.job e) then resBAD_FORMAT
  else if !b.tagOk then resAUTH_FAIL
  else if !b.idOk then resWRONG_HUB
  else if b.entries.any (s.entryClash b.job) then resSLOT_CONFLICT
  else if !s.keysOpen then resNOT_PERMITTED
  else resOK

/-- One entry is loaded: CURRENT sets the phase's FCNT to 0; NEXT is reported to the peer in a LINK frame, and the sender moves to it where
the peer holds its own (R444). -/
def State.loadKey (s : State) (job : Nat) (e : KeyEntry) : State :=
  let k := s.key e.port e.slot
  if !e.next then s.setKey e.port e.slot { k with job := job, cur := some e.keyId, fcnt := 0 }
  else
    let s1 := s.setKey e.port e.slot { k with job := job, next := some e.keyId }
    ((List.range 24).filter (fun g => s1.portOf g = e.port && s1.strandState g = ssUP)).foldl (fun s g =>
      (s.sendFrame g ⟨2, false, false, false, false, false, 0, (s.strand g).txSeq, 0, 0, [], some (s.ownLink g 31)⟩).nextPhase g
        (s.strand g).peerNext) s1

/-- A blob is loaded whole or not at all (R567). -/
def State.blobLoad (s : State) (b : KeyBlob) : State × Nat :=
  let r := s.blobResult b
  if r = resOK then (b.entries.foldl (fun s e => s.loadKey b.job e) s, r) else (s, r)

/-- Named slots (port, slot) are emptied. -/
def State.keysClear (s : State) (slots : List (Nat × Nat)) : State :=
  slots.foldl (fun s x => if x.1 < 12 && x.2 < 16 then s.setKey x.1 x.2 {} else s) s

def execLoadJobKeys (session : Nat) (b : KeyBlob) (s : State) : Outcome State Fault Refusal :=
  .next (s.mgmtCmd session (fun s => let r := s.blobLoad b; r.1.mgmtReply session r.2))

def execClearJobKeys (session : Nat) (slots : List (Nat × Nat)) (s : State) : Outcome State Fault Refusal :=
  .next (s.mgmtCmd session (fun s => (s.keysClear slots).mgmtReply session resOK))

/-! ### Staged firmware (R556, R568; 21_bring_up_and_reset.md R596, R597) -/

/-- Bytes of a component's slot (R596).
[DEDUCED, log entry 94] -/
def slotBytes (mr : Nat) : Nat :=
  match mr with | 2 => 512 * 1024 | 3 => 4096 * 1024 | 5 => 256 * 1024 | _ => 1024 * 1024

/-- RESULT of FW_STAGE (R568): the lowest code that applies.
[DEDUCED, log entries 91, 94] -/
def State.stageResult (s : State) (mr : Nat) (i : FwImage) (flashOk : Bool) : Nat :=
  if mr = 0 || 7 < mr || (2 ≤ mr && slotBytes mr < i.length) then resBAD_FORMAT
  else if mr = 1 then resNOT_PERMITTED
  else if !i.sigOk || !i.digestOk then resAUTH_FAIL
  else if i.svn < s.minSvn mr then resSVN_LOW
  else if !flashOk then resFLASH_FAIL
  else resOK

/-- FW_STAGE: the image goes to the slot that is not ACTIVE, which becomes PENDING. -/
def State.fwStage (s : State) (mr : Nat) (i : FwImage) (flashOk : Bool) : State × Nat :=
  let r := s.stageResult mr i flashOk
  if r ≠ resOK then (s, r)
  else
    let c := s.comp mr
    let b := !((c.slotIn 1).getD false)
    ((s.setComp mr (c.setSlot b ⟨2, i⟩)).dirWrite, r)

/-- FW_CANCEL: the PENDING slot becomes EMPTY, unless the ROT has begun its activation (R572).
[DEDUCED, log entry 95] -/
def State.fwCancel (s : State) (mr : Nat) : State × Nat :=
  let c := s.comp mr
  match c.slotIn 2 with
  | none => (s, resOK)
  | some b => if s.activationOn then (s, resNOT_PERMITTED) else ((s.setComp mr (c.setSlot b { c.slot b with st := 0 })).dirWrite, resOK)

def execFwStage (session mr : Nat) (img : FwImage) (s : State) : Outcome State Fault Refusal :=
  .next (s.mgmtCmd session (fun s => let r := s.fwStage mr img true; r.1.mgmtReply session r.2))

def execFwCancel (session mr : Nat) (s : State) : Outcome State Fault Refusal :=
  .next (s.mgmtCmd session (fun s => let r := s.fwCancel mr; r.1.mgmtReply session r.2))

/-! ### The ROT mailbox (R569) -/

/-- A command of the mailbox: LEN is stored; the command runs; MBOX_DATA is erased, RESULT and MBOX_DONE are set.
[DEDUCED, log entries 97, 98] -/
def State.mailbox (s : State) (r : Requester) (len : Nat) (op : State → State × Nat) : State :=
  s.gateBlk r cROT 0 0x100 (fun p s =>
    if s.flag p PgROT.MBOX_CMD_BUSY then s.order p r 0x100
    else
      let s1 := s.setFld p PgROT.MBOX_CMD_LEN (len % 4096)
      let x := if 3584 < len % 4096 then (s1, resBAD_FORMAT) else op s1
      let s2 : State := { x.1 with regs := x.1.regs.filter (fun e => decide (e.1 < regKey p 0x200) || decide (regKey p 0x1000 ≤ e.1)) }
      (s2.setFld p PgROT.MBOX_CMD_RESULT x.2).setInt p 0)

/-- The argument in MBOX_DATA. -/
def State.mboxBytes (s : State) (len : Nat) : List Byte :=
  ((List.range ((len + 7) / 8)).flatMap (fun i => natLe 8 (s.word pROT (0x200 + 8 * i)).toNat)).take len

/-- The blob in MBOX_DATA (R567): its header as it lies there, its entries as the command says they decrypt; `none` where its length, COUNT or
a reserved byte is wrong. A blob of n entries takes 0xB0 + 80 n bytes.
[DESIGN CHOICE, log entry 6] -/
def State.mboxBlob (s : State) (len : Nat) (b : KeyBlob) : Option KeyBlob :=
  let d := s.mboxBytes len
  let f (o n : Nat) : Nat := fieldAt d o n
  if len = 0xB0 + 80 * f 1 1 && b.entries.length = f 1 1 && f 0x14 12 = 0 && f 0x81 7 = 0 && f 0x94 12 = 0 then
    some { b with version := f 0 1, job := f 2 2, idOk := (d.drop 4).take 16 = (digestBytes (Config.certDigest 0)).take 16 }
  else none

/-- KEY_LOAD. -/
def execMboxKeyLoad (r : Requester) (len : Nat) (b : KeyBlob) (s : State) : Outcome State Fault Refusal :=
  .next (s.mailbox r len (fun s => match s.mboxBlob (len % 4096) b with | none => (s, resBAD_FORMAT) | some k => s.blobLoad k))

def execMboxKeyClear (r : Requester) (len : Nat) (slots : List (Nat × Nat)) (s : State) : Outcome State Fault Refusal :=
  .next (s.mailbox r len (fun s => (s.keysClear slots, resOK)))

def execMboxFwStage (r : Requester) (len mr : Nat) (img : FwImage) (flashOk : Bool) (s : State) : Outcome State Fault Refusal :=
  .next (s.mailbox r len (fun s => s.fwStage mr img flashOk))

def execMboxFwCancel (r : Requester) (len mr : Nat) (s : State) : Outcome State Fault Refusal :=
  .next (s.mailbox r len (fun s => s.fwCancel mr))

end Sys2Proof.Machine
end

