-- ==== Sys2Proof/Machine/Tap.lean ====
section
/-! DEFINITION. The TAP and its instructions (18_life_cycle.md R546, R547). -/
namespace Sys2Proof.Machine
open Host

/-- TAP instructions (R547). -/
inductive TapOp where
  | idcode | sample | extest | lcsAccess | dbgAccess | tstAccess | scan | wir | site (n : Nat) | bypass
  deriving DecidableEq, Repr

/-- Instruction codes (R547). -/
def TapOp.code : TapOp → Nat
  | .idcode => 0x01 | .sample => 0x02 | .extest => 0x03 | .lcsAccess => 0x20 | .dbgAccess => 0x21 | .tstAccess => 0x22
  | .scan => 0x30 | .wir => 0x31 | .site n => 0x34 + n | .bypass => 0xFF

/-- The instruction of a code; every other code behaves as BYPASS. -/
def tapOp (code : Nat) : TapOp :=
  match code with
  | 0x01 => .idcode | 0x02 => .sample | 0x03 => .extest | 0x20 => .lcsAccess | 0x21 => .dbgAccess | 0x22 => .tstAccess
  | 0x30 => .scan | 0x31 => .wir | 0x34 => .site 0 | 0x35 => .site 1 | 0x36 => .site 2 | 0x37 => .site 3 | _ => .bypass

/-- A debug port (R540). -/
def TapOp.debug : TapOp → Bool
  | .dbgAccess | .tstAccess | .scan | .wir | .site _ => true
  | _ => false

/-- The instruction is marked for the state (R547). -/
def State.tapMarked (s : State) (o : TapOp) : Bool :=
  let l := s.lc.state
  let early := l = lcBLANK || l = lcTEST || l = lcRETURNED
  match o with
  | .idcode | .bypass | .lcsAccess => true
  | .sample => l ≠ lcSCRAPPED
  | .extest => early || l = lcPROVISIONED || ((l = lcDEPLOYED || l = lcFIELD_DEBUG) && s.boot.perst)
  | .dbgAccess => early || l = lcFIELD_DEBUG
  | .tstAccess | .scan | .wir => early
  | .site n => decide (n < 4) && (early || l = lcPROVISIONED || l = lcFIELD_DEBUG)

/-- The instruction is live (R540, R546, R547): FIELD_DEBUG and RETURNED open theirs with DEBUG_READY, but for LCS_ACCESS, which completes a
transition in any state; no debug port opens while a transition is incomplete.
[DEDUCED, log entries 102, 103] -/
def State.tapLive (s : State) (o : TapOp) : Bool :=
  s.tapMarked o && !(o.debug && s.lc.incomplete) &&
    (o = .bypass || o = .lcsAccess || !(s.lc.state = lcFIELD_DEBUG || s.lc.state = lcRETURNED) || s.flag pLCS PgLCS.STATUS_DEBUG_READY)

/-- TDO shifts a value out under an instruction. -/
def State.tapOut (s : State) (code v : Nat) : State := ({ s with tap := { s.tap with ir := code, tdo := v } } : State).emit (.tdo v)

/-- The bypass register: one bit, 0 at capture, before what TDI shifts in. -/
def State.tapBypass (s : State) (code data : Nat) : State := s.tapOut code (2 * data)

/-- An instruction on the TAP, whose pins need VDD_IO18 (23_physical.md R638, R646): not live, it behaves as BYPASS.
[DEDUCED, log entry 104] -/
def State.tapRun (s : State) (o : TapOp) (data : Nat) (k : State → State) : State :=
  if !s.boot.io18Ok then s else if s.tapLive o then k s else s.tapBypass o.code data

def execIdcode (s : State) : Outcome State Fault Refusal :=
  .next (s.tapRun .idcode 0 (fun s => s.tapOut 0x01 Config.idcode.toNat))

/-- SAMPLE/PRELOAD: the pins as they stand leave by TDO; the boundary register takes what TDI brings. -/
def execSamplePreload (data : Nat) (s : State) : Outcome State Fault Refusal :=
  .next (s.tapRun .sample data (fun s =>
    let f := s.freeNat
    ({ f.2 with tap := { f.2.tap with boundary := data } } : State).tapOut 0x02 f.1))

/-- EXTEST: the boundary register drives the pins. -/
def execExtest (data : Nat) (s : State) : Outcome State Fault Refusal :=
  .next (s.tapRun .extest data (fun s =>
    let f := s.freeNat
    ({ f.2 with tap := { f.2.tap with boundary := data } } : State).tapOut 0x03 f.1))

/-- LCS_ACCESS, 0x0 shifted in: LCS.STATUS. -/
def execLcsAccessRead (s : State) : Outcome State Fault Refusal :=
  .next (s.tapRun .lcsAccess 0 (fun s =>
    let v := if s.shut pLCS then 0 else s.lcsStatus
    ({ s with tap := { s.tap with dr := v } } : State).tapOut 0x20 v))

/-- LCS.TARGET takes writes through the TAP (R546, R547): in BLANK, TEST and RETURNED, and the completing write in every state but
SCRAPPED; while incomplete no other but SCRAPPED. -/
def State.tapTarget (s : State) (target : Nat) : Bool :=
  let l := s.lc
  l.state ≠ lcSCRAPPED && (l.completes target ||
    ((l.state = lcBLANK || l.state = lcTEST || l.state = lcRETURNED) && (!l.incomplete || target = lcSCRAPPED)))

/-- LCS_ACCESS, 0x1 and a state code shifted in. -/
def execLcsAccessWrite (target : Nat) (s : State) : Outcome State Fault Refusal :=
  .next (s.tapRun .lcsAccess target (fun s =>
    let t := target % 16
    let s1 := ({ s with tap := { s.tap with dr := 16 + t } } : State).tapOut 0x20 s.tap.dr
    if s.shut pLCS || !s.tapTarget t then s1 else s1.lcTarget .rot .tap t))

/-- An access of the TAP to a block register of a page.
[DEDUCED, log entry 105] -/
def State.tapReg (s : State) (code p off : Nat) (write : Bool) (data : Nat) : State :=
  if 0x1000 ≤ off || off % 8 ≠ 0 then s.tapOut code 0
  else if write then (s.regWrite .rot (regAddr p off) 8 data).tapOut code 0
  else
    let x := s.pageRead .rot p off 8 false
    x.1.tapOut code x.2

def execDbgAccess (off : Nat) (write : Bool) (data : Nat) (s : State) : Outcome State Fault Refusal :=
  .next (s.tapRun .dbgAccess data (fun s => s.tapReg 0x21 pDBG off write data))

def execTstAccess (off : Nat) (write : Bool) (data : Nat) (s : State) : Outcome State Fault Refusal :=
  .next (s.tapRun .tstAccess data (fun s => s.tapReg 0x22 pTST off write data))

/-- A chain whose contents the spec does not give: what leaves it is open.
[DESIGN CHOICE, log entry 107] -/
def State.tapChain (s : State) (code data : Nat) : State :=
  let f := s.freeNat
  ({ f.2 with tap := { f.2.tap with dr := data } } : State).tapOut code f.1

def execScan (data : Nat) (s : State) : Outcome State Fault Refusal := .next (s.tapRun .scan data (fun s => s.tapChain 0x30 data))
def execWir1500 (data : Nat) (s : State) : Outcome State Fault Refusal := .next (s.tapRun .wir data (fun s => s.tapChain 0x31 data))
def execSite1838 (site data : Nat) (s : State) : Outcome State Fault Refusal :=
  if 4 ≤ site then .next s else .next (s.tapRun (.site site) data (fun s => s.tapChain (0x34 + site) data))

/-- BYPASS, or a code whose instruction is not live. -/
def execBypass (code bit : Nat) (s : State) : Outcome State Fault Refusal :=
  let c := code % 256
  if !s.boot.io18Ok || (tapOp c ≠ .bypass && s.tapLive (tapOp c)) then .next s else .next (s.tapBypass c (bit % 2))

end Sys2Proof.Machine
end

