-- ==== Sys2Proof/Machine/Tollgates.lean ====
section
/-! DEFINITION. Commands of the tollgates (11_mesh_and_regulation.md R341, R346, R348): passing, ticks, urgency, timeouts. -/
namespace Sys2Proof.Machine
open Host

/-- A transaction asks to pass its tollgate (R341). -/
def execTollgatePass (t : TolReq) (s : State) : Outcome State Fault Refusal :=
  if 490 < t.tol then .next s
  else
    let known := s.mesh.waiting.any (fun u => u.req.tol = t.tol && u.req.id = t.id) || s.outTxn? t.tol t.id ≠ none
    let s1 : State := if known then s else { s with mesh := { s.mesh with waiting := s.mesh.waiting ++ [⟨t, s.tolClass t, none⟩] } }
    .next (s1.tolTry t.tol).kick

/-- A 10 ns tick of the hub's time reference (R37, R341): every bucket gains its tokens and what can pass does; the tick counter goes
on.
[DESIGN CHOICE, log entry 212] -/
def execTokenRefill (s : State) : Outcome State Fault Refusal :=
  let s0 := ({ s with clock := s.clock + 1 } : State).setFld pGLB PgGLB.TICK_NOW_TICK (s.tick + 1)
  let s1 := s0.buckets.foldl (fun s b => s.refill b.1 b.2) s0
  let tols := (s1.mesh.waiting.map (fun (t : TolTxn) => t.req.tol)).eraseDups
  .next (tols.foldl (fun s t => s.tolTry t) s1).kick

/-- A real-time master's buffer fill gives its urgency (R346), which also acts on what waits. -/
def execUrgencyChange (tol percent : Nat) (s : State) : Outcome State Fault Refusal :=
  if tol < 468 || 476 < tol then .next s
  else
    let p := pg cTOL tol
    let u := if s.fld p PgTOL.URG_CFG_T3 ≤ percent then 3 else if s.fld p PgTOL.URG_CFG_T2 ≤ percent then 2
             else if s.fld p PgTOL.URG_CFG_T1 ≤ percent then 1 else 0
    .next ((s.setFld p PgTOL.STATUS_URGENCY u).tolTry tol).kick

def execInitiatorTimeout (tol id : Nat) (s : State) : Outcome State Fault Refusal :=
  match s.outTxn? tol id with
  | some o => if s.host.held.any (fun q => q.back = some (tol, id)) then .next s else .next (s.initiatorTimeout o).kick
  | none => .next s

end Sys2Proof.Machine
end

