-- ==== Sys2Proof/Machine/Dispatch.lean ====
section
/-! DEFINITION. One arm per command: each calls its meaning, or rejects the command by name. -/
namespace Sys2Proof.Machine
open Host

def exec (i : Instr) (s : State) : Host.Outcome State Fault Refusal :=
  match i with
  | .pwrGoodAssert => Sys2Proof.Machine.execPwrGoodAssert s
  | .pwrGoodDeassert => Sys2Proof.Machine.execPwrGoodDeassert s
  | .vddAonLoss => Sys2Proof.Machine.execVddAonLoss s
  | .vddIo18Loss => Sys2Proof.Machine.execVddIo18Loss s
  | .refclkLoss clk => Sys2Proof.Machine.execRefclkLoss clk s
  | .perstAssert => Sys2Proof.Machine.execPerstAssert s
  | .perstDeassert => Sys2Proof.Machine.execPerstDeassert s
  | .stageLaunch stage => Sys2Proof.Machine.execStageLaunch stage s
  | .rotBootDone images => Sys2Proof.Machine.execRotBootDone images s
  | .otpReadDone f => Sys2Proof.Machine.execOtpReadDone f s
  | .dieWipeDone slices deadRouters ethLanes => Sys2Proof.Machine.execDieWipeDone slices deadRouters ethLanes s
  | .siteTrainingDone x t => Sys2Proof.Machine.execSiteTrainingDone x t s
  | .hbmTrainingDone a idOk chans => Sys2Proof.Machine.execHbmTrainingDone a idOk chans s
  | .opticalTrainingDone a engineId temp badLanes peers => Sys2Proof.Machine.execOpticalTrainingDone a engineId temp badLanes peers s
  | .opticalStageDeadline => Sys2Proof.Machine.execOpticalStageDeadline s
  | .timeStageDeadline => Sys2Proof.Machine.execTimeStageDeadline s
  | .hankChunkReceive n chunk ok => Sys2Proof.Machine.execHankChunkReceive n chunk ok s
  | .deliveryRepairRound n got => Sys2Proof.Machine.execDeliveryRepairRound n got s
  | .hankSelfTestDone n digestOk t => Sys2Proof.Machine.execHankSelfTestDone n digestOk t s
  | .warmReset r => Sys2Proof.Machine.execWarmReset r s
  | .warmDrainDone slices => Sys2Proof.Machine.execWarmDrainDone slices s
  | .warmRotDone images => Sys2Proof.Machine.execWarmRotDone images s
  | .hbmRestoreDone a chOk => Sys2Proof.Machine.execHbmRestoreDone a chOk s
  | .timeRelockDone ok => Sys2Proof.Machine.execTimeRelockDone ok s
  | .drainLimitExpire part => Sys2Proof.Machine.execDrainLimitExpire part s
  | .partitionReset r p => Sys2Proof.Machine.execPartitionReset r p s
  | .partitionResetDone p => Sys2Proof.Machine.execPartitionResetDone p s
  | .coreRateWindow msps worstClass worstInst worstMargin => Sys2Proof.Machine.execCoreRateWindow msps worstClass worstInst worstMargin s
  | .dmmTapAdd cls inst margin => Sys2Proof.Machine.execDmmTapAdd cls inst margin s
  | .dmmTapRemove cls inst margin aboveMs => Sys2Proof.Machine.execDmmTapRemove cls inst margin aboveMs s
  | .dmmFault cls inst margin => Sys2Proof.Machine.execDmmFault cls inst margin s
  | .dmmResume cls inst margin => Sys2Proof.Machine.execDmmResume cls inst margin s
  | .dmmTransient cls inst => Sys2Proof.Machine.execDmmTransient cls inst s
  | .dmmCfgWrite r size high data => Sys2Proof.Machine.execDmmCfgWrite r size high data s
  | .registerWrite r addr size data => Sys2Proof.Machine.execRegisterWrite r addr size data s
  | .invalidAccess r addr size write => Sys2Proof.Machine.execInvalidAccess r addr size write s
  | .invisiblePageAccess r addr write => Sys2Proof.Machine.execInvisiblePageAccess r addr write s
  | .rcFieldRead r addr size => Sys2Proof.Machine.execRcFieldRead r addr size s
  | .fenceSet r cls inst => Sys2Proof.Machine.execFenceSet r cls inst s
  | .fenceClear r cls inst => Sys2Proof.Machine.execFenceClear r cls inst s
  | .quiesceReqSet r cls inst => Sys2Proof.Machine.execQuiesceReqSet r cls inst s
  | .quiesceReqClear r cls inst => Sys2Proof.Machine.execQuiesceReqClear r cls inst s
  | .enableSet r cls inst => Sys2Proof.Machine.execEnableSet r cls inst s
  | .enableClear r cls inst => Sys2Proof.Machine.execEnableClear r cls inst s
  | .quiesceComplete cls inst => Sys2Proof.Machine.execQuiesceComplete cls inst s
  | .commitRequest r cls inst => Sys2Proof.Machine.execCommitRequest r cls inst s
  | .commitApply cls inst => Sys2Proof.Machine.execCommitApply cls inst s
  | .wayMapCommit n => Sys2Proof.Machine.execWayMapCommit n s
  | .blockRst r cls inst => Sys2Proof.Machine.execBlockRst r cls inst s
  | .blockRstComplete cls inst testOk => Sys2Proof.Machine.execBlockRstComplete cls inst testOk s
  | .intTestWrite r cls inst size high data => Sys2Proof.Machine.execIntTestWrite r cls inst size high data s
  | .ownerWrite r cls inst data => Sys2Proof.Machine.execOwnerWrite r cls inst data s
  | .paritySweep cls inst bad => Sys2Proof.Machine.execParitySweep cls inst bad s
  | .floorPlanChange u cause sub => Sys2Proof.Machine.execFloorPlanChange u cause sub s
  | .tileTake n start => Sys2Proof.Machine.execTileTake n start s
  | .hankStep n agree err => Sys2Proof.Machine.execHankStep n agree err s
  | .checkReplayDone n agree => Sys2Proof.Machine.execCheckReplayDone n agree s
  | .checkKnownAnswerDone n pass => Sys2Proof.Machine.execCheckKnownAnswerDone n pass s
  | .operandFill n f contended => Sys2Proof.Machine.execOperandFill n f contended s
  | .drainDone n => Sys2Proof.Machine.execDrainDone n s
  | .topkMerge n => Sys2Proof.Machine.execTopkMerge n s
  | .distaffArrival t => Sys2Proof.Machine.execDistaffArrival t s
  | .distaffWindowExpire b => Sys2Proof.Machine.execDistaffWindowExpire b s
  | .spFenceWrite r n size high data => Sys2Proof.Machine.execSpFenceWrite r n size high data s
  | .spindleFenceApply n => Sys2Proof.Machine.execSpindleFenceApply n s
  | .spindleReturn n => Sys2Proof.Machine.execSpindleReturn n s
  | .hankWatchdogExpire n => Sys2Proof.Machine.execHankWatchdogExpire n s
  | .hankSignatureTest n pass => Sys2Proof.Machine.execHankSignatureTest n pass s
  | .shadowPowerWindow site estDw => Sys2Proof.Machine.execShadowPowerWindow site estDw s
  | .queueCreate r p q => Sys2Proof.Machine.execQueueCreate r p q s
  | .queueDestroy r p q => Sys2Proof.Machine.execQueueDestroy r p q s
  | .queueDestroyComplete q => Sys2Proof.Machine.execQueueDestroyComplete q s
  | .queueStop r p q => Sys2Proof.Machine.execQueueStop r p q s
  | .queueStart r p q => Sys2Proof.Machine.execQueueStart r p q s
  | .queueQuery r p q => Sys2Proof.Machine.execQueueQuery r p q s
  | .dbTail q tail => Sys2Proof.Machine.execDbTail q tail s
  | .dbEvent q e => Sys2Proof.Machine.execDbEvent q e s
  | .taskFetch q slot => Sys2Proof.Machine.execTaskFetch q slot s
  | .spinDispatch pds => Sys2Proof.Machine.execSpinDispatch pds s
  | .moveDispatch => Sys2Proof.Machine.execMoveDispatch s
  | .siteTaskDispatch => Sys2Proof.Machine.execSiteTaskDispatch s
  | .xferDispatch => Sys2Proof.Machine.execXferDispatch s
  | .collDispatch srcPages dstPages => Sys2Proof.Machine.execCollDispatch srcPages dstPages s
  | .waitDispatch => Sys2Proof.Machine.execWaitDispatch s
  | .signalDispatch => Sys2Proof.Machine.execSignalDispatch s
  | .itinStart hdr => Sys2Proof.Machine.execItinStart hdr s
  | .itinAdvance => Sys2Proof.Machine.execItinAdvance s
  | .itinStop => Sys2Proof.Machine.execItinStop s
  | .keyAdvance => Sys2Proof.Machine.execKeyAdvance s
  | .keySwitchDone p => Sys2Proof.Machine.execKeySwitchDone p s
  | .taskDone t status => Sys2Proof.Machine.execTaskDone t status s
  | .referenceDelivery t err => Sys2Proof.Machine.execReferenceDelivery t err s
  | .succBlockRead t data => Sys2Proof.Machine.execSuccBlockRead t data s
  | .taskAging t => Sys2Proof.Machine.execTaskAging t s
  | .eventRead r p e err => Sys2Proof.Machine.execEventRead r p e err s
  | .eventSet r p e => Sys2Proof.Machine.execEventSet r p e s
  | .eventForward r p e => Sys2Proof.Machine.execEventForward r p e s
  | .fenceComplete t page => Sys2Proof.Machine.execFenceComplete t page s
  | .homeAccess a op err => Sys2Proof.Machine.execHomeAccess a op err s
  | .skeinMissFill txn => Sys2Proof.Machine.execSkeinMissFill txn s
  | .atomicAdd a ty fetch operand err => Sys2Proof.Machine.execAtomicAdd a ty fetch operand err s
  | .atomicFadd a ty fetch operand err => Sys2Proof.Machine.execAtomicFadd a ty fetch operand err s
  | .atomicMin a ty fetch operand err => Sys2Proof.Machine.execAtomicMin a ty fetch operand err s
  | .atomicMax a ty fetch operand err => Sys2Proof.Machine.execAtomicMax a ty fetch operand err s
  | .atomicSwap a ty fetch operand err => Sys2Proof.Machine.execAtomicSwap a ty fetch operand err s
  | .atomicCas a ty fetch operand err => Sys2Proof.Machine.execAtomicCas a ty fetch operand err s
  | .atomicXadd a ty fetch operand err => Sys2Proof.Machine.execAtomicXadd a ty fetch operand err s
  | .sectorRead a err => Sys2Proof.Machine.execSectorRead a err s
  | .sectorWrite a data poison err => Sys2Proof.Machine.execSectorWrite a data poison err s
  | .gatherEnable r n slot data => Sys2Proof.Machine.execGatherEnable r n slot data s
  | .gatherDescLoaded n slot => Sys2Proof.Machine.execGatherDescLoaded n slot s
  | .gatherWindowRead a => Sys2Proof.Machine.execGatherWindowRead a s
  | .gatherRowReturn n slot => Sys2Proof.Machine.execGatherRowReturn n slot s
  | .wipeDone n => Sys2Proof.Machine.execWipeDone n s
  | .sliceBankTestDone n bad => Sys2Proof.Machine.execSliceBankTestDone n bad s
  | .hbmRequestAdmit req => Sys2Proof.Machine.execHbmRequestAdmit req s
  | .shareSlotFreed ch => Sys2Proof.Machine.execShareSlotFreed ch s
  | .hbmCommandSlot ch pc ready err => Sys2Proof.Machine.execHbmCommandSlot ch pc ready err s
  | .hbmReadReturn req e0 e1 => Sys2Proof.Machine.execHbmReadReturn req e0 e1 s
  | .hbmRereadResult req e0 e1 => Sys2Proof.Machine.execHbmRereadResult req e0 e1 s
  | .replicaRepair req e0 e1 => Sys2Proof.Machine.execReplicaRepair req e0 e1 s
  | .hbmCalibration ch ok => Sys2Proof.Machine.execHbmCalibration ch ok s
  | .hchRetrain r ch => Sys2Proof.Machine.execHchRetrain r ch s
  | .hchRetrainDone ch ok => Sys2Proof.Machine.execHchRetrainDone ch ok s
  | .hbmRefresh ch rfm => Sys2Proof.Machine.execHbmRefresh ch rfm s
  | .hbmTempRead a temp => Sys2Proof.Machine.execHbmTempRead a temp s
  | .alloc r p first count peer => Sys2Proof.Machine.execAlloc r p first count peer s
  | .free r p first count peer => Sys2Proof.Machine.execFree r p first count peer s
  | .setGroup r p first count peer => Sys2Proof.Machine.execSetGroup r p first count peer s
  | .share r p first count peer => Sys2Proof.Machine.execShare r p first count peer s
  | .unshare r p first count peer => Sys2Proof.Machine.execUnshare r p first count peer s
  | .setReplica r p first count peer => Sys2Proof.Machine.execSetReplica r p first count peer s
  | .replicaCopyDone p => Sys2Proof.Machine.execReplicaCopyDone p s
  | .clearReplica r p first count peer => Sys2Proof.Machine.execClearReplica r p first count peer s
  | .attachPool r p first count peer => Sys2Proof.Machine.execAttachPool r p first count peer s
  | .detachPool r p first count peer => Sys2Proof.Machine.execDetachPool r p first count peer s
  | .granuleQuery r p first count peer => Sys2Proof.Machine.execGranuleQuery r p first count peer s
  | .freeAll r p first count peer => Sys2Proof.Machine.execFreeAll r p first count peer s
  | .tierEpoch p range => Sys2Proof.Machine.execTierEpoch p range s
  | .migrationDone p range index cells poison => Sys2Proof.Machine.execMigrationDone p range index cells poison s
  | .migrationFail p range index => Sys2Proof.Machine.execMigrationFail p range index s
  | .stageRead slot stage status => Sys2Proof.Machine.execStageRead slot stage status s
  | .stageIssue slot => Sys2Proof.Machine.execStageIssue slot s
  | .stageDone slot index status => Sys2Proof.Machine.execStageDone slot index status s
  | .scrubVisit a e0 e1 => Sys2Proof.Machine.execScrubVisit a e0 e1 s
  | .zeroFillGranule a => Sys2Proof.Machine.execZeroFillGranule a s
  | .ctxBind r slot => Sys2Proof.Machine.execCtxBind r slot s
  | .ctxUnbind r slot => Sys2Proof.Machine.execCtxUnbind r slot s
  | .unbindDrained slot => Sys2Proof.Machine.execUnbindDrained slot s
  | .ctxQuery r slot => Sys2Proof.Machine.execCtxQuery r slot s
  | .ctxFind r slot => Sys2Proof.Machine.execCtxFind r slot s
  | .translate client id task part pasid va rd wr parity => Sys2Proof.Machine.execTranslate client id task part pasid va rd wr parity s
  | .atsCompletion slot vpn2 rd wr sizeLog addr u => Sys2Proof.Machine.execAtsCompletion slot vpn2 rd wr sizeLog addr u s
  | .deviceWalkDone slot vpn2 entries => Sys2Proof.Machine.execDeviceWalkDone slot vpn2 entries s
  | .prgResponse prg code => Sys2Proof.Machine.execPrgResponse prg code s
  | .priTimeout entry => Sys2Proof.Machine.execPriTimeout entry s
  | .fqRetry r entry => Sys2Proof.Machine.execFqRetry r entry s
  | .fqFail r entry => Sys2Proof.Machine.execFqFail r entry s
  | .atsInvalidate tag pasid vpn2 count => Sys2Proof.Machine.execAtsInvalidate tag pasid vpn2 count s
  | .invalidationComplete tag => Sys2Proof.Machine.execInvalidationComplete tag s
  | .invRange r slot => Sys2Proof.Machine.execInvRange r slot s
  | .invContext r slot => Sys2Proof.Machine.execInvContext r slot s
  | .atsEnableClear => Sys2Proof.Machine.execAtsEnableClear s
  | .priEnableCycle => Sys2Proof.Machine.execPriEnableCycle s
  | .l1Flush r client => Sys2Proof.Machine.execL1Flush r client s
  | .flitHop f parityOk crcOk => Sys2Proof.Machine.execFlitHop f parityOk crcOk s
  | .tollgatePass t => Sys2Proof.Machine.execTollgatePass t s
  | .tokenRefill => Sys2Proof.Machine.execTokenRefill s
  | .urgencyChange tol percent => Sys2Proof.Machine.execUrgencyChange tol percent s
  | .latencyWindow tol => Sys2Proof.Machine.execLatencyWindow tol s
  | .transactionResponse tol id latNs => Sys2Proof.Machine.execTransactionResponse tol id latNs s
  | .initiatorTimeout tol id => Sys2Proof.Machine.execInitiatorTimeout tol id s
  | .snoopTimeout line agent => Sys2Proof.Machine.execSnoopTimeout line agent s
  | .cxlMemrd id hpa mv dataOnly => Sys2Proof.Machine.execCxlMemrd id hpa mv dataOnly s
  | .cxlMemwr id hpa mv data poison => Sys2Proof.Machine.execCxlMemwr id hpa mv data poison s
  | .cxlBisnpResponse line dirty poison => Sys2Proof.Machine.execCxlBisnpResponse line dirty poison s
  | .biconflict line => Sys2Proof.Machine.execBiconflict line s
  | .h2dSnpdata hpaLine => Sys2Proof.Machine.execH2dSnpdata hpaLine s
  | .h2dSnpinv hpaLine => Sys2Proof.Machine.execH2dSnpinv hpaLine s
  | .h2dSnpcur hpaLine => Sys2Proof.Machine.execH2dSnpcur hpaLine s
  | .cxlH2dResponse hpaLine data poison st => Sys2Proof.Machine.execCxlH2dResponse hpaLine data poison st s
  | .siteStatusChange x status => Sys2Proof.Machine.execSiteStatusChange x status s
  | .sidebandSilence x => Sys2Proof.Machine.execSidebandSilence x s
  | .siteReadyTimeout x => Sys2Proof.Machine.execSiteReadyTimeout x s
  | .laneMapDigest x digest peerMap => Sys2Proof.Machine.execLaneMapDigest x digest peerMap s
  | .channelRetrain r x mask => Sys2Proof.Machine.execChannelRetrain r x mask s
  | .channelRetrainDone x c ok lanes => Sys2Proof.Machine.execChannelRetrainDone x c ok lanes s
  | .aspFlitReceive x c f crcOk => Sys2Proof.Machine.execAspFlitReceive x c f crcOk s
  | .aspReplayTimeout x c => Sys2Proof.Machine.execAspReplayTimeout x c s
  | .aspRdshared x c m => Sys2Proof.Machine.execAspRdshared x c m s
  | .aspRdown x c m => Sys2Proof.Machine.execAspRdown x c m s
  | .aspUpgrade x c m => Sys2Proof.Machine.execAspUpgrade x c m s
  | .aspRdcur x c m => Sys2Proof.Machine.execAspRdcur x c m s
  | .aspWr x c m => Sys2Proof.Machine.execAspWr x c m s
  | .aspWrpart x c m => Sys2Proof.Machine.execAspWrpart x c m s
  | .aspSecrd x c m => Sys2Proof.Machine.execAspSecrd x c m s
  | .aspSecwr x c m => Sys2Proof.Machine.execAspSecwr x c m s
  | .aspAtomic x c m => Sys2Proof.Machine.execAspAtomic x c m s
  | .aspXlatereq x c m => Sys2Proof.Machine.execAspXlatereq x c m s
  | .aspDoorbell x c m => Sys2Proof.Machine.execAspDoorbell x c m s
  | .aspEvent x c m => Sys2Proof.Machine.execAspEvent x c m s
  | .aspTaskdone x c m => Sys2Proof.Machine.execAspTaskdone x c m s
  | .aspIntr x c m => Sys2Proof.Machine.execAspIntr x c m s
  | .aspCleanevict x c m => Sys2Proof.Machine.execAspCleanevict x c m s
  | .aspWrback x c m => Sys2Proof.Machine.execAspWrback x c m s
  | .aspRspi x c m => Sys2Proof.Machine.execAspRspi x c m s
  | .aspRsps x c m => Sys2Proof.Machine.execAspRsps x c m s
  | .aspRspfwds x c m => Sys2Proof.Machine.execAspRspfwds x c m s
  | .aspRspfwdi x c m => Sys2Proof.Machine.execAspRspfwdi x c m s
  | .aspRspfwdcur x c m => Sys2Proof.Machine.execAspRspfwdcur x c m s
  | .aspRspwbissued x c m => Sys2Proof.Machine.execAspRspwbissued x c m s
  | .aspRspidata x c m => Sys2Proof.Machine.execAspRspidata x c m s
  | .aspCmpack x c m => Sys2Proof.Machine.execAspCmpack x c m s
  | .aspFwd x c m => Sys2Proof.Machine.execAspFwd x c m s
  | .aspHintaccept x c m => Sys2Proof.Machine.execAspHintaccept x c m s
  | .aspHintdecline x c m => Sys2Proof.Machine.execAspHintdecline x c m s
  | .aspXlateinvdone x c m => Sys2Proof.Machine.execAspXlateinvdone x c m s
  | .aspCfgcpl x c m => Sys2Proof.Machine.execAspCfgcpl x c m s
  | .xlateinvTimeout x tag => Sys2Proof.Machine.execXlateinvTimeout x tag s
  | .siteTaskTimeout x handle => Sys2Proof.Machine.execSiteTaskTimeout x handle s
  | .siteCfgRead r x func index => Sys2Proof.Machine.execSiteCfgRead r x func index s
  | .siteCfgWrite r x func index => Sys2Proof.Machine.execSiteCfgWrite r x func index s
  | .cfgAnswerTimeout x => Sys2Proof.Machine.execCfgAnswerTimeout x s
  | .siteTestStart r x => Sys2Proof.Machine.execSiteTestStart r x s
  | .siteTestDone x fail => Sys2Proof.Machine.execSiteTestDone x fail s
  | .fabricFrameReceive g f c => Sys2Proof.Machine.execFabricFrameReceive g f c s
  | .frameAckTimeout g => Sys2Proof.Machine.execFrameAckTimeout g s
  | .put a p => Sys2Proof.Machine.execPut a p s
  | .dack a p => Sys2Proof.Machine.execDack a p s
  | .eventPacket a p => Sys2Proof.Machine.execEventPacket a p s
  | .sched a p => Sys2Proof.Machine.execSched a p s
  | .collPacket a p => Sys2Proof.Machine.execCollPacket a p s
  | .mgmtPacket a p => Sys2Proof.Machine.execMgmtPacket a p s
  | .e2eTimeout id => Sys2Proof.Machine.execE2eTimeout id s
  | .strandRetrainDone g ok failedLanes => Sys2Proof.Machine.execStrandRetrainDone g ok failedLanes s
  | .laneCeWindow a lane corr uncorr => Sys2Proof.Machine.execLaneCeWindow a lane corr uncorr s
  | .noPeerRetry g peer => Sys2Proof.Machine.execNoPeerRetry g peer s
  | .fabTestStart r a => Sys2Proof.Machine.execFabTestStart r a s
  | .fabTestDone a failLanes => Sys2Proof.Machine.execFabTestDone a failLanes s
  | .fabModeWrite r a secure => Sys2Proof.Machine.execFabModeWrite r a secure s
  | .jobBind r p valid tag => Sys2Proof.Machine.execJobBind r p valid tag s
  | .timeSyncCmd r => Sys2Proof.Machine.execTimeSyncCmd r s
  | .timeStop r => Sys2Proof.Machine.execTimeStop r s
  | .timePing port tick => Sys2Proof.Machine.execTimePing port tick s
  | .timePong port turnPs roundPs => Sys2Proof.Machine.execTimePong port turnPs roundPs s
  | .timeSync port rootTick period lead depth phasePs => Sys2Proof.Machine.execTimeSync port rootTick period lead depth phasePs s
  | .timeReady port through node locked => Sys2Proof.Machine.execTimeReady port through node locked s
  | .timeGo port n tick culprit => Sys2Proof.Machine.execTimeGo port n tick culprit s
  | .timeHold port n => Sys2Proof.Machine.execTimeHold port n s
  | .timeAdopt port => Sys2Proof.Machine.execTimeAdopt port s
  | .timeStart port tick => Sys2Proof.Machine.execTimeStart port tick s
  | .syncPeriod => Sys2Proof.Machine.execSyncPeriod s
  | .parentFail => Sys2Proof.Machine.execParentFail s
  | .epochReached => Sys2Proof.Machine.execEpochReached s
  | .rootDecision => Sys2Proof.Machine.execRootDecision s
  | .milestoneBoundary => Sys2Proof.Machine.execMilestoneBoundary s
  | .spanEnd p entry => Sys2Proof.Machine.execSpanEnd p entry s
  | .stretchLimit => Sys2Proof.Machine.execStretchLimit s
  | .recvLost p entry => Sys2Proof.Machine.execRecvLost p entry s
  | .schedLoad r p => Sys2Proof.Machine.execSchedLoad r p s
  | .schedLoadDone p image => Sys2Proof.Machine.execSchedLoadDone p image s
  | .schedClear r p => Sys2Proof.Machine.execSchedClear r p s
  | .plySet r ply desc => Sys2Proof.Machine.execPlySet r ply desc s
  | .plyClear r ply => Sys2Proof.Machine.execPlyClear r ply s
  | .plyQuery r ply => Sys2Proof.Machine.execPlyQuery r ply s
  | .collStepTimeout t => Sys2Proof.Machine.execCollStepTimeout t s
  | .imgSend r image chunks => Sys2Proof.Machine.execImgSend r image chunks s
  | .imgArm r image => Sys2Proof.Machine.execImgArm r image s
  | .imgAbort r image => Sys2Proof.Machine.execImgAbort r image s
  | .imageData port image offset data good => Sys2Proof.Machine.execImageData port image offset data good s
  | .imageReq port image offset => Sys2Proof.Machine.execImageReq port image offset s
  | .imageNotHeld port image offset => Sys2Proof.Machine.execImageNotHeld port image offset s
  | .imageEnd port image chunks => Sys2Proof.Machine.execImageEnd port image chunks s
  | .imageRepairRound => Sys2Proof.Machine.execImageRepairRound s
  | .configRequest off w => Sys2Proof.Machine.execConfigRequest off w s
  | .bar4Read off len reqId ide => Sys2Proof.Machine.execBar4Read off len reqId ide s
  | .bar4Write off reqId ide poisoned data => Sys2Proof.Machine.execBar4Write off reqId ide poisoned data s
  | .hostAtomicop off op reqId ide operand => Sys2Proof.Machine.execHostAtomicop off op reqId ide operand s
  | .hostReadCompletion id ok data poison => Sys2Proof.Machine.execHostReadCompletion id ok data poison s
  | .msixUnmask v => Sys2Proof.Machine.execMsixUnmask v s
  | .bmeClear => Sys2Proof.Machine.execBmeClear s
  | .bmeSet => Sys2Proof.Machine.execBmeSet s
  | .bmeHoldTimeout id => Sys2Proof.Machine.execBmeHoldTimeout id s
  | .dstateChange d3 => Sys2Proof.Machine.execDstateChange d3 s
  | .pmeTurnOff => Sys2Proof.Machine.execPmeTurnOff s
  | .pmeToAck => Sys2Proof.Machine.execPmeToAck s
  | .l1Entry sub => Sys2Proof.Machine.execL1Entry sub s
  | .linkRecovery speed width replayed => Sys2Proof.Machine.execLinkRecovery speed width replayed s
  | .linkDown acked => Sys2Proof.Machine.execLinkDown acked s
  | .linkUp speed width flit cxl => Sys2Proof.Machine.execLinkUp speed width flit cxl s
  | .graceExpire => Sys2Proof.Machine.execGraceExpire s
  | .keyProg stream set => Sys2Proof.Machine.execKeyProg stream set s
  | .kSetGo stream set => Sys2Proof.Machine.execKSetGo stream set s
  | .kSetStop stream set => Sys2Proof.Machine.execKSetStop stream set s
  | .ideQuery stream => Sys2Proof.Machine.execIdeQuery stream s
  | .ethFrameReceive e kind prio bytes => Sys2Proof.Machine.execEthFrameReceive e kind prio bytes s
  | .rdmaWriteIn q r => Sys2Proof.Machine.execRdmaWriteIn q r s
  | .rdmaReadIn q r => Sys2Proof.Machine.execRdmaReadIn q r s
  | .rdmaSendIn q r => Sys2Proof.Machine.execRdmaSendIn q r s
  | .rdmaAtomicIn q r => Sys2Proof.Machine.execRdmaAtomicIn q r s
  | .rdmaAckIn q psn a => Sys2Proof.Machine.execRdmaAckIn q psn a s
  | .rdmaAckTimeout q => Sys2Proof.Machine.execRdmaAckTimeout q s
  | .rnrTimer q => Sys2Proof.Machine.execRnrTimer q s
  | .cnpReceive q => Sys2Proof.Machine.execCnpReceive q s
  | .rateRecovery q => Sys2Proof.Machine.execRateRecovery q s
  | .qpCreate r part q ctx => Sys2Proof.Machine.execQpCreate r part q ctx s
  | .qpDestroy r part q => Sys2Proof.Machine.execQpDestroy r part q s
  | .qpQuery r part q => Sys2Proof.Machine.execQpQuery r part q s
  | .mrRegister r mr key => Sys2Proof.Machine.execMrRegister r mr key s
  | .mrInvalidate r mr key => Sys2Proof.Machine.execMrInvalidate r mr key s
  | .ethDbSq r q index => Sys2Proof.Machine.execEthDbSq r q index s
  | .ethDbRq r q index => Sys2Proof.Machine.execEthDbRq r q index s
  | .ethDbCq r q index => Sys2Proof.Machine.execEthDbCq r q index s
  | .wqeWrite q w b => Sys2Proof.Machine.execWqeWrite q w b s
  | .wqeWriteImm q w b => Sys2Proof.Machine.execWqeWriteImm q w b s
  | .wqeSend q w b => Sys2Proof.Machine.execWqeSend q w b s
  | .wqeSendImm q w b => Sys2Proof.Machine.execWqeSendImm q w b s
  | .wqeRead q w b => Sys2Proof.Machine.execWqeRead q w b s
  | .wqeFetchAdd q w b => Sys2Proof.Machine.execWqeFetchAdd q w b s
  | .wqeCmpSwap q w b => Sys2Proof.Machine.execWqeCmpSwap q w b s
  | .cqeWrite q wrId page => Sys2Proof.Machine.execCqeWrite q wrId page s
  | .ethLinkChange e up => Sys2Proof.Machine.execEthLinkChange e up s
  | .ethLaneLockLoss e lane => Sys2Proof.Machine.execEthLaneLockLoss e lane s
  | .lcsTargetWrite r target => Sys2Proof.Machine.execLcsTargetWrite r target s
  | .lcTransitionResetDone => Sys2Proof.Machine.execLcTransitionResetDone s
  | .lcIntentProgrammed fail => Sys2Proof.Machine.execLcIntentProgrammed fail s
  | .lcEraseDone fail => Sys2Proof.Machine.execLcEraseDone fail s
  | .lcStateProgrammed fail => Sys2Proof.Machine.execLcStateProgrammed fail s
  | .lcDoneProgrammed fail => Sys2Proof.Machine.execLcDoneProgrammed fail s
  | .lcRestartDone images => Sys2Proof.Machine.execLcRestartDone images s
  | .debugReadySet => Sys2Proof.Machine.execDebugReadySet s
  | .idcode => Sys2Proof.Machine.execIdcode s
  | .samplePreload data => Sys2Proof.Machine.execSamplePreload data s
  | .extest data => Sys2Proof.Machine.execExtest data s
  | .lcsAccessRead => Sys2Proof.Machine.execLcsAccessRead s
  | .lcsAccessWrite target => Sys2Proof.Machine.execLcsAccessWrite target s
  | .dbgAccess off write data => Sys2Proof.Machine.execDbgAccess off write data s
  | .tstAccess off write data => Sys2Proof.Machine.execTstAccess off write data s
  | .scan data => Sys2Proof.Machine.execScan data s
  | .wir1500 data => Sys2Proof.Machine.execWir1500 data s
  | .site1838 site data => Sys2Proof.Machine.execSite1838 site data s
  | .bypass code bit => Sys2Proof.Machine.execBypass code bit s
  | .dbgHalt r cls inst => Sys2Proof.Machine.execDbgHalt r cls inst s
  | .dbgHalted => Sys2Proof.Machine.execDbgHalted s
  | .dbgResume r => Sys2Proof.Machine.execDbgResume r s
  | .dbgDataRead r => Sys2Proof.Machine.execDbgDataRead r s
  | .dbgDataWrite r data => Sys2Proof.Machine.execDbgDataWrite r data s
  | .dbgStep r => Sys2Proof.Machine.execDbgStep r s
  | .getVersion t => Sys2Proof.Machine.execGetVersion t s
  | .getCapabilities t => Sys2Proof.Machine.execGetCapabilities t s
  | .negotiateAlgorithms t => Sys2Proof.Machine.execNegotiateAlgorithms t s
  | .getDigests t => Sys2Proof.Machine.execGetDigests t s
  | .getCertificate t slot offset => Sys2Proof.Machine.execGetCertificate t slot offset s
  | .challenge t nonce => Sys2Proof.Machine.execChallenge t nonce s
  | .getMeasurements t session index nonce => Sys2Proof.Machine.execGetMeasurements t session index nonce s
  | .keyExchange t mutAuth => Sys2Proof.Machine.execKeyExchange t mutAuth s
  | .finish t session ok chainOk => Sys2Proof.Machine.execFinish t session ok chainOk s
  | .endSession t session => Sys2Proof.Machine.execEndSession t session s
  | .heartbeat t session => Sys2Proof.Machine.execHeartbeat t session s
  | .keyUpdate t session => Sys2Proof.Machine.execKeyUpdate t session s
  | .chunkSend t bytes last => Sys2Proof.Machine.execChunkSend t bytes last s
  | .chunkGet t bytes => Sys2Proof.Machine.execChunkGet t bytes s
  | .pqSign t session => Sys2Proof.Machine.execPqSign t session s
  | .sessionTimeout session => Sys2Proof.Machine.execSessionTimeout session s
  | .regRead session addr size => Sys2Proof.Machine.execRegRead session addr size s
  | .regWrite session addr size data => Sys2Proof.Machine.execRegWrite session addr size data s
  | .setOwner session o => Sys2Proof.Machine.execSetOwner session o s
  | .replaceOwner session o signed => Sys2Proof.Machine.execReplaceOwner session o signed s
  | .setPolicy session p signed => Sys2Proof.Machine.execSetPolicy session p signed s
  | .loadJobKeys session b => Sys2Proof.Machine.execLoadJobKeys session b s
  | .clearJobKeys session slots => Sys2Proof.Machine.execClearJobKeys session slots s
  | .fwStage session mr img => Sys2Proof.Machine.execFwStage session mr img s
  | .fwCancel session mr => Sys2Proof.Machine.execFwCancel session mr s
  | .mboxKeyLoad r len b => Sys2Proof.Machine.execMboxKeyLoad r len b s
  | .mboxKeyClear r len slots => Sys2Proof.Machine.execMboxKeyClear r len slots s
  | .mboxFwStage r len mr img flashOk => Sys2Proof.Machine.execMboxFwStage r len mr img flashOk s
  | .mboxFwCancel r len mr => Sys2Proof.Machine.execMboxFwCancel r len mr s
  | .powerRequest r cls inst req => Sys2Proof.Machine.execPowerRequest r cls inst req s
  | .powerQuiesceDone d => Sys2Proof.Machine.execPowerQuiesceDone d s
  | .powerDrainDone d => Sys2Proof.Machine.execPowerDrainDone d s
  | .powerSaveDone d => Sys2Proof.Machine.execPowerSaveDone d s
  | .powerIsolateDone d => Sys2Proof.Machine.execPowerIsolateDone d s
  | .powerSwitchDone d => Sys2Proof.Machine.execPowerSwitchDone d s
  | .powerDemand d => Sys2Proof.Machine.execPowerDemand d s
  | .powerExitDone d testOk => Sys2Proof.Machine.execPowerExitDone d testOk s
  | .coreSleepRequest r req => Sys2Proof.Machine.execCoreSleepRequest r req s
  | .mgmtSleepRequest r req => Sys2Proof.Machine.execMgmtSleepRequest r req s
  | .i3cAddressMatch addr => Sys2Proof.Machine.execI3cAddressMatch addr s
  | .wakeLvlCrossing mv falling ns => Sys2Proof.Machine.execWakeLvlCrossing mv falling ns s
  | .wakeTimerExpire => Sys2Proof.Machine.execWakeTimerExpire s
  | .lockstepMismatch u => Sys2Proof.Machine.execLockstepMismatch u s
  | .thermalSample sensor tempC => Sys2Proof.Machine.execThermalSample sensor tempC s
  | .voltageExcursion mv us => Sys2Proof.Machine.execVoltageExcursion mv us s
  | .faultRelease r => Sys2Proof.Machine.execFaultRelease r s
  | .evqPop r => Sys2Proof.Machine.execEvqPop r s
  | .ringEnable r ring size high data => Sys2Proof.Machine.execRingEnable r ring size high data s
  | .latentTest d pass repeatPass => Sys2Proof.Machine.execLatentTest d pass repeatPass s
  | .tstStartHank r n => Sys2Proof.Machine.execTstStartHank r n s
  | .tstStartSlice r n => Sys2Proof.Machine.execTstStartSlice r n s
  | .tstStartLatent r fails => Sys2Proof.Machine.execTstStartLatent r fails s
  | .tstAbort r => Sys2Proof.Machine.execTstAbort r s
  | .lostLockOnLane a lane => Sys2Proof.Machine.execLostLockOnLane a lane s
  | .noPeerLock g => Sys2Proof.Machine.execNoPeerLock g s
  | .appliedPairExpire src e2e => Sys2Proof.Machine.execAppliedPairExpire src e2e s

end Sys2Proof.Machine
end

