-- ==== Sys2Proof/Safety.lean ====
section
/-! DEFINITION. The words the statements use: when an access reaches a page, what stays as it was, and the invariants of a state. -/
namespace Sys2Proof.Machine
open Host

/-! ### Accesses -/

/-- An access of a requester reaches the registers of a page: the page is present and visible to it (02_register_pages.md R49, R73), and for the
host the way through the link is open (16_host_endpoint.md R494; 19_trust_and_tenancy.md R571). -/
def State.reaches (s : State) (r : Requester) (c i : Nat) : Bool :=
  decide (i < 2048) && !s.pageAbsent (pg c i) && sees r (s.accessClass (pg c i)) && (decide (r ≠ .host) || (s.hostReach && !s.ideShut))

/-- The state in which an access that reaches a page acts: one of the host has arrived over the link, and counts. -/
def State.arrived (s : State) (r : Requester) : State :=
  match r with
  | .host => s.rxTlp
  | _ => s

/-- A write of a requester to a block register reaches the page, and the page is not in OFF or RESET (02_register_pages.md R66). -/
def State.opens (s : State) (r : Requester) (c i : Nat) : Bool := s.reaches r c i && !s.shut (pg c i)

/-! ### What stays -/

/-- Every register but the listed ones (page, offset) reads as before. -/
def State.regsBut (s t : State) (xs : List (Nat × Nat)) : Prop :=
  ∀ p off : Nat, (∀ x ∈ xs, homePage p off * 512 + off / 8 ≠ homePage x.1 x.2 * 512 + x.2 / 8) → t.word p off = s.word p off

/-- Only registers changed. -/
def State.onlyRegs (s t : State) : Prop := t = { s with regs := t.regs }

/-- Only registers, MSI-X state and outputs changed: what setting an interrupt bit may do. -/
def State.onlyIrq (s t : State) : Prop := t = { s with regs := t.regs, host := t.host, out := t.out }

/-! ### Granule commands (08_memory_tiers.md R247, R248) -/

/-- The state in which a granule command starts: its arguments are stored. -/
def State.gcmdArgs (s : State) (r : Requester) (p first count peer : Nat) : State :=
  ((((s.arrived r).setFld (pg cTIR p) PgTIR.GCMD_FIRST first).setFld (pg cTIR p) PgTIR.GCMD_COUNT count).setFld (pg cTIR p) PgTIR.GCMD_PEER peer)

/-- A granule command has ended with a result code, and answered its interrupt. -/
def State.gcmdEnded (u : State) (p result : Nat) : Prop :=
  u.flag (pg cTIR p) PgTIR.GCMD_BUSY = false ∧ u.fld (pg cTIR p) PgTIR.GCMD_RESULT = result ∧ natBit (u.word (pg cTIR p) 0x30).toNat 0 = true

/-- A granule outside a run of granules keeps its entry. -/
def State.granulesBut (s t : State) (first count : Nat) : Prop := ∀ g, (g < first ∨ first + count ≤ g) → t.granule g = s.granule g

/-! ### Accesses at a home (07_skein_memory.md R197-R210) -/

/-- An access of scratchpad memory that its slice serves at once, at word `word` of way `w` of slice `n`. -/
def State.scratchNow (s : State) (a : Access) (wr : Bool) (n w word : Nat) : Prop :=
  s.locate a wr = .scratch n w word ∧ s.sliceHolds n = false ∧ s.commitHolds n a.part = false ∧ a.conflict = false

/-- Only one word of the banks changed, in bytes and poison. -/
def State.onlyBankLine (s t : State) (n w word : Nat) : Prop :=
  ∀ n' w' word', bankAddr n' w' word' ≠ bankAddr n w word → t.bankLine n' w' word' = s.bankLine n' w' word'

/-- What an atomic leaves in the bytes it covers (R206-R209). -/
def atomNew (o ty : Nat) (operand old : List Byte) : List Byte :=
  if o = 4 then operand
  else if o = 5 then (if old = operand.take (atomLen o operand) then operand.drop (atomLen o operand) else old)
  else (atomVec o ty (atomTypeSize ty) (atomLen o operand / atomTypeSize ty) old operand).1

/-! ### Messages of a site (13_chiplet_sites.md R398, R401, R415) -/

/-- The channel of a message carries messages, and the message's opcode is the row's (R398, R401). -/
def State.carries (s : State) (x c op : Nat) (m : AspMsg) : Bool := decide (x < 4) && decide (c < 64) && s.chanUp x c && decide (m.op = op)

/-- The state in which a request has left its buffer. -/
def State.unbuffered (s : State) (x c : Nat) (m : AspMsg) : State := s.aspFree x c 0 (aspCost m)

/-- A channel may take one more request: fewer than 256 await a response, and the TAG is free (R401). -/
def State.tagRoom (s : State) (x c : Nat) (m : AspMsg) : Bool :=
  decide (((s.unbuffered x c m).chan x c).tags.length < 256) && !((s.unbuffered x c m).chan x c).tags.contains m.tag

/-- The site and its function may make requests (R401, R415). -/
def State.funcMay (s : State) (x c : Nat) (m : AspMsg) : Bool :=
  (s.unbuffered x c m).live (.site x) && (s.unbuffered x c m).funcBound x m.func ((s.unbuffered x c m).funcPart x m.func)

/-- The state in which an admitted request is served: its TAG awaits a response. -/
def State.tagged (s : State) (x c : Nat) (m : AspMsg) : State :=
  (s.unbuffered x c m).setChan x c { (s.unbuffered x c m).chan x c with tags := ((s.unbuffered x c m).chan x c).tags ++ [m.tag] }

/-! ### Ethernet (17_network_ports.md R523, R527) -/

/-- An inbound packet of a QP in RTS at its place in PSN order, its frame taken from the buffer (R527). -/
def State.rdmaReady (s : State) (q : Nat) (r : RdmaReq) : Bool :=
  decide (q < 16384) && decide (((s.takeFrame (s.qp q).ctx.port).qp q).st = 1) && decide (r.psn = ((s.takeFrame (s.qp q).ctx.port).qp q).rxPsn)

/-- A command of the ETH 0 page has answered: its result, the state of the QP it names, its interrupt (R523, R524). -/
def State.qpAnswered (u : State) (result st : Nat) : Prop :=
  u.fld pETH PgETH.QP_CMD_RESULT = result ∧ u.fld pETH PgETH.QP_CMD_STATE = st % 2 ^ (PgETH.QP_CMD_STATE.hi + 1 - PgETH.QP_CMD_STATE.lo) ∧ natBit (u.word pETH 0x30).toNat 2 = true

/-! ### Invariants of every step -/

/-- The canonical form of the memories: addresses strictly rising, no entry equal to the 0 an unlisted address reads as (log entry 3).
[DESIGN CHOICE, log entry 3] -/
def Memory.wf (m : MemSt) : Bool := NMap.wf 0 m.banks && NMap.wf 0 m.hbm

/-- Every OTP bit programmed in one state is programmed in another (18_life_cycle.md R538, R539, R541). -/
def State.otpKept (s t : State) : Prop :=
  (∀ k, natBit s.lc.stateWord k = true → natBit t.lc.stateWord k = true) ∧ (∀ k, natBit s.lc.excWord k = true → natBit t.lc.excWord k = true) ∧
  (∀ i k, natBit (NMap.getD s.lc.slots 0 i) k = true → natBit (NMap.getD t.lc.slots 0 i) k = true)

end Sys2Proof.Machine
end

