-- ==== Sys2Proof/Certificates/Slice0/Obligations.lean ====
section
/-! DEFINITION. The statements about the block, for the provers. -/
open Sys2Proof Sys2Proof.Machine

/-- R28 to R31; R385 of 13_chiplet_sites.md.
Model's choices in it: log entries 111, 112, 113, 114. -/
def Obligations.RateAndMargins : Prop := ∀ (s : State),
  (∀ msps cls inst margin, ∃ u : State, exec (.coreRateWindow msps cls inst margin) s = .next u ∧
    u.fld pGLB PgGLB.CORE_RATE_NOW_MSPS = min 0xFFFF msps ∧
    u.fld pGLB PgGLB.CORE_RATE_MIN_MSPS = min (min 0xFFFF msps) (s.fld pGLB PgGLB.CORE_RATE_MIN_MSPS) ∧
    u.rateFloor = s.fld pGLB PgGLB.RATE_FLOOR_FLOOR_MSPS ∧ u.dmmCfg = (s.word pGLB 0x110).toNat ∧
    (min 0xFFFF msps < s.rateFloor → natBit (u.word pGLB 0x30).toNat 0 = true) ∧
    u = { s with regs := u.regs, host := u.host, out := u.out, rateFloor := u.rateFloor, dmmCfg := u.dmmCfg }) ∧
  (∀ cls inst p margin, regionPage cls inst = some p → s.pageAbsent p = false → s.pageOn p = true →
    let d := NMap.getD s.dmm {} p
    (d.stopped = false → d.taps < 4 → margin < s.dmmAct → ∃ u : State, exec (.dmmTapAdd cls inst margin) s = .next u ∧
      NMap.getD u.dmm {} p = { d with taps := d.taps + 1 } ∧ (∀ q, q ≠ p → NMap.getD u.dmm {} q = NMap.getD s.dmm {} q) ∧
      u = { s with regs := u.regs, host := u.host, out := u.out, dmm := u.dmm }) ∧
    (d.stopped = false → 0 < d.taps → s.dmmRetreat ≠ 0 → ∀ ms, s.dmmRetreat ≤ ms → s.dmmWarn < margin → ∃ u : State,
      exec (.dmmTapRemove cls inst margin ms) s = .next u ∧ NMap.getD u.dmm {} p = { d with taps := d.taps - 1 } ∧
      (∀ q, q ≠ p → NMap.getD u.dmm {} q = NMap.getD s.dmm {} q) ∧ u = { s with regs := u.regs, dmm := u.dmm }) ∧
    (d.stopped = false → 4 ≤ d.taps → d.watch = false → margin < s.dmmAct → ∃ v : State, exec (.dmmFault cls inst margin) s = .next v.kick ∧
      NMap.getD v.dmm {} p = { d with stopped := true } ∧ v.stopped p = true ∧ v.mem = s.mem ∧ v.plan = s.plan) ∧
    (d.stopped = true → d.dead = false → s.dmmAct ≤ margin → ∃ v : State, exec (.dmmResume cls inst margin) s = .next (v.pageFree p).kick ∧
      NMap.getD v.dmm {} p = { d with stopped := false, watch := true } ∧ v = { s with regs := v.regs, dmm := v.dmm }) ∧
    (d.stopped = true → d.dead = false → margin < s.dmmAct → exec (.dmmResume cls inst margin) s = .next (s.marginLasting p d).kick) ∧
    (d.watch = true → ∃ u : State, exec (.dmmTransient cls inst) s = .next u ∧ NMap.getD u.dmm {} p = { d with watch := false } ∧ u.plan = s.plan)) ∧
  (∀ r data, s.opens r cGLB 0 = true → let v := data % 2 ^ 64
    ((natBits v 7 0 < 4 ∨ natBits v 15 8 ≤ natBits v 7 0 ∨ 64 < natBits v 15 8) → ∃ u : State, exec (.dmmCfgWrite r 8 false data) s = .next u ∧
      u.word pGLB 0x110 = s.word pGLB 0x110 ∧ u.flag pGLB PgGLB.DMM_STATUS_CFG_REJECT = true ∧ (s.arrived r).onlyRegs u) ∧
    (¬ (natBits v 7 0 < 4 ∨ natBits v 15 8 ≤ natBits v 7 0 ∨ 64 < natBits v 15 8) → ∃ u : State, exec (.dmmCfgWrite r 8 false data) s = .next u ∧
      (u.word pGLB 0x110).toNat = v % 2 ^ 24 ∧ (s.arrived r).onlyRegs u ∧ (s.arrived r).regsBut u [(pGLB, 0x110)] ∧ u.dmmCfg = s.dmmCfg)) ∧
  (∀ x est, x < 4 → s.pageAbsent (pg cSIT x) = false → s.pageOn (pg cSIT x) = true → ∃ u : State, exec (.shadowPowerWindow x est) s = .next u ∧
    u.fld (pg cSIT x) PgSIT.THERM_EST_DW = min 0xFFFF est % 2 ^ (PgSIT.THERM_EST_DW.hi + 1 - PgSIT.THERM_EST_DW.lo) ∧
    (s.fld (pg cSIT x) PgSIT.THERM_CAP_DW < est → natBit (u.word (pg cSIT x) 0x30).toNat 4 = true) ∧ u = { s with regs := u.regs, host := u.host, out := u.out })

/-- R46, R47. The host's reads answer through `hostReply`.
Model's choices in it: log entries 17. -/
def Obligations.InvalidAccesses : Prop := ∀ (s : State) (r : Requester) (addr size : Nat),
  let c := addr / 0x800000
  let i := addr / 0x1000 % 2048
  let p := pg c i
  goodAccess addr size = false → addr < 2 ^ 28 → hostArea addr = false → s.reaches r c i = true → (r = .host → s.dlUp = true) →
  (∃ v : State, (v = (s.arrived r).pageErr p .access r (addr % 0x1000) ∧ natBit (v.word p 0x28).toNat 2 = true ∧
      (s.arrived r).regsBut v [(p, 0x28), (p, 0x30)]) ∧
    (r ≠ .host → exec (.invalidAccess r addr size false) s = .next (v.emit (.regValue r addr 0)) ∧
      exec (.rcFieldRead r addr size) s = .next (v.emit (.regValue r addr 0))) ∧
    (r = .host → exec (.invalidAccess r addr size false) s = .next (v.hostReply ⟨v.nextJoin, some addr, 0, false, natLe size 0⟩)) ∧
    exec (.invalidAccess r addr size true) s = .next v ∧
    ∀ data, exec (.registerWrite r addr size data) s = .next v.kick.atuWork)

/-- R49, R73, R74. R61, R66, R68. What a write that starts a command does in those states is the command's own row.
Model's choices in it: log entries 16, 17, 20, 222. -/
def Obligations.HiddenAndShutPages : Prop :=
  (∀ (s : State) (r : Requester) (addr : Nat),
  let c := addr / 0x800000
  let i := addr / 0x1000 % 2048
  let p := pg c i
  let a8 := addr / 8 * 8
  r ≠ .host → addr < 2 ^ 28 → hostArea addr = false →
  (s.pageAbsent p = false → sees r (s.accessClass p) = false → ∃ v : State, v = s.pageErr p .access r (a8 % 0x1000) ∧
    natBit (v.word p 0x28).toNat 2 = true ∧ s.regsBut v [(p, 0x28), (p, 0x30)] ∧
    (natBits (s.word p 0x28).toNat 3 0 = 0 → natBits (v.word p 0x28).toNat 31 30 = Requester.code r) ∧
    exec (.invisiblePageAccess r addr false) s = .next (v.emit (.regValue r a8 0)) ∧
    (a8 % 0x1000 < 0x100 → exec (.invisiblePageAccess r addr true) s = .next v)) ∧
  (s.pageAbsent p = true → exec (.rcFieldRead r addr 8) s = .next (s.emit (.regValue r addr 0)) ∧
    ∀ data, addr % 0x1000 < 0x100 → exec (.registerWrite r addr 8 data) s = .next s.kick.atuWork)) ∧
  (∀ (s : State) (r : Requester) (c i off data : Nat),
  let p := pg c i
  let addr := c * 0x800000 + i * 0x1000 + off
  c < 31 → 0x100 ≤ off → off < 0x100 + 8 * blkLen p → off % 8 = 0 → s.reaches r c i = true → hostArea addr = false →
  s.cmdStart r c i off (mergeHalf 0 8 false data) (s.mergeReg p off (mergeHalf (s.word p off).toNat 8 false data)) true true = none →
  (wakeIsland p off = false → (s.pageState p = stOFF ∨ s.pageState p = stRESET) → ∃ v : State, exec (.registerWrite r addr 8 data) s = .next v.kick.atuWork ∧
    v = (s.arrived r).order p r off ∧ natBit (v.word p 0x28).toNat 1 = true ∧ (s.arrived r).regsBut v [(p, 0x28), (p, 0x30)]) ∧
  ((s.pageState p = stBUSY ∨ s.pageState p = stQUIESCING) → s.compDown p = false → s.quietReg p off = false → notThere p off = false →
    (fieldsAt p off).any (fun f => decide (f.cls = .quiesce) && decide (f.acc = .rw)) = true → ∃ v : State, exec (.registerWrite r addr 8 data) s = .next v.kick.atuWork ∧
    v = (s.arrived r).pageErr p .qwrite r off ∧ natBit (v.word p 0x28).toNat 0 = true ∧ (s.arrived r).regsBut v [(p, 0x28), (p, 0x30)]) ∧
  (spans p off = true → ∀ half, (half = 0 ∨ half = 4) → ∃ v : State, exec (.registerWrite r (addr + half) 4 data) s = .next v.kick.atuWork ∧
    v = (s.arrived r).pageErr p .access r (off + half) ∧ natBit (v.word p 0x28).toNat 2 = true ∧ (s.arrived r).regsBut v [(p, 0x28), (p, 0x30)]))

/-- R51. -/
def Obligations.ReservedOffsets : Prop := ∀ (s : State) (r : Requester) (c i off data : Nat),
  let addr := c * 0x800000 + i * 0x1000 + off
  c < 32 → off < 0x1000 → off % 8 = 0 → (0x70 ≤ off ∧ off ≤ 0xF8 ∨ 0x100 + 8 * blkLen (pg c i) ≤ off) → s.reaches r c i = true →
  hostArea addr = false →
  s.readWord (pg c i) off = 0 ∧ exec (.registerWrite r addr 8 data) s = .next (s.arrived r).kick.atuWork

/-- R46, R60, R61, R67 to R69.
Model's choices in it: log entries 14, 28, 33, 36. -/
def Obligations.RegisterReadsAndWrites : Prop := (∀ (s : State) (r : Requester) (c i : Nat), r ≠ .host → c < 31 → i < 2048 → s.reaches r c i = true →
  let p := pg c i
  let base := c * 0x800000 + i * 0x1000
  hostArea base = false →
  (∀ off, off < 0x100 → off % 8 = 0 → off ≠ 0x60 → exec (.rcFieldRead r (base + off) 8) s = .next (s.emit (.regValue r (base + off) (s.readHdr p off % 2 ^ 64)))) ∧
  (∃ u : State, exec (.rcFieldRead r (base + 0x60) 8) s = .next u ∧ u.out = s.out ++ [.regValue r (base + 0x60) (s.word p 0x60).toNat] ∧
    u.word p 0x60 = 0 ∧ s.regsBut u [(p, 0x60)] ∧ u = { s with regs := u.regs, out := u.out }) ∧
  (∃ u : State, exec (.rcFieldRead r (base + 0x60) 4) s = .next u ∧ u.out = s.out ++ [.regValue r (base + 0x60) ((s.word p 0x60).toNat % 2 ^ 32)] ∧
    u.fld p PgHDR.ERR_COUNT_CORRECTED = 0 ∧ u.fld p PgHDR.ERR_COUNT_TRANSIENT = s.fld p PgHDR.ERR_COUNT_TRANSIENT ∧
    u.fld p PgHDR.ERR_COUNT_LASTING = s.fld p PgHDR.ERR_COUNT_LASTING ∧ s.regsBut u [(p, 0x60)] ∧ u = { s with regs := u.regs, out := u.out })) ∧
  (∀ (s : State) (r : Requester), s.opens r cGLB 0 = true → (r = .host → s.dlUp = true) →
    (∃ v : State, v.word pGLB 0x130 = 0 ∧ (s.arrived r).regsBut v [(pGLB, 0x130)] ∧ (s.arrived r).onlyRegs v ∧
      (r ≠ .host → exec (.rcFieldRead r 0x130 8) s = .next (v.emit (.regValue r 0x130 (s.word pGLB 0x130).toNat))) ∧
      (r = .host → exec (.rcFieldRead r 0x130 8) s = .next (v.hostReply ⟨v.nextJoin, some 0x130, 0, false, natLe 8 (s.word pGLB 0x130).toNat⟩)) ∧
      (r = .host → v.postedBefore v.nextJoin = false → exec (.rcFieldRead r 0x130 8) s =
        .next (v.hostAnswer ⟨v.nextJoin, some 0x130, 0, false, natLe 8 (s.word pGLB 0x130).toNat⟩).hostBusy)) ∧
    (∀ data, ∃ u : State, exec (.registerWrite r 0x108 8 data) s = .next u.kick.atuWork ∧ u.fld pGLB PgGLB.RATE_FLOOR_FLOOR_MSPS = data % 2 ^ 16 ∧
      (s.arrived r).regsBut u [(pGLB, 0x108)] ∧ (s.arrived r).onlyRegs u) ∧
    (∀ data, ∃ u : State, exec (.registerWrite r 0x10C 4 data) s = .next u.kick.atuWork ∧ u.word pGLB 0x108 = s.word pGLB 0x108 ∧
      (s.arrived r).regsBut u [] ∧ (s.arrived r).onlyRegs u)) ∧
  (∀ (s : State) (r : Requester) (c i off data : Nat), c < 31 → i < 2048 → s.opens r c i = true →
    let p := pg c i
    let addr := c * 0x800000 + i * 0x1000 + off
    let a := s.arrived r
    let v := data % 2 ^ 64
    let w := clearOnes p off v (a.mergeReg p off v)
    0x100 ≤ off → off < 0x100 + 8 * blkLen p → off % 8 = 0 → hostArea addr = false → notThere p off = false →
    s.cmdStart r c i off v (s.mergeReg p off v) true true = none →
    (fieldsAt p off).any (fun f => decide (f.acc = .rw)) = true →
    ((fieldsAt p off).any (fun f => decide (f.cls = .quiesce)) = true → a.quietReg p off = true) →
    ((fieldsAt p off).any (fun f => decide (f.cls = .staged)) = true → a.flag p PgHDR.PAGE_STATE_COMMIT_BUSY = false) →
    a.regBad p off ((fieldsAt p off).foldl (fun w f => if f.acc = .wo then natSetBits w f.hi f.lo (natBits v f.hi f.lo) else w) w) = false →
    a.regOp r p off v w v true = none → ∃ u : State, exec (.registerWrite r addr 8 data) s = .next (u.written r p off).kick.atuWork ∧
      u.word p off = BitVec.ofNat 64 w ∧ a.onlyRegs u ∧ a.regsBut u [(p, off), (p, 0x10)] ∧ u.pageState p = a.pageState p ∧
      ((fieldsAt p off).any (fun f => decide (f.cls = .staged)) = true → u.flag p PgHDR.PAGE_STATE_STAGED_PENDING = true ∧ u.active = a.active))

/-- R55, R63, R65. Waiting network and collective work then goes on (`kick`).
Model's choices in it: log entries 18, 19, 136, 231. -/
def Obligations.PageControl : Prop := ∀ (s : State) (r : Requester) (c i : Nat), c < 31 → s.reaches r c i = true →
  let p := pg c i
  let a := s.arrived r
  let bob := (pg cBOB i, 0x10)
  (hasCap p capQuiesce = true → (c ≠ cSKN ∨ s.pageState p ≠ stIDLE) → ∃ u : State, exec (.quiesceReqSet r c i) s = .next u ∧ u.flag p PgHDR.PAGE_CTRL_QUIESCE_REQ = true ∧
    u.pageState p = (if s.pageState p = stBUSY then stQUIESCING else s.pageState p) ∧ a.onlyRegs u ∧ a.regsBut u [(p, 0x10), (p, 0x18), bob]) ∧
  (c = cSKN → hasCap p capQuiesce = true → s.pageState p = stIDLE →
    exec (.quiesceReqSet r c i) s = .next ((a.setFld p PgHDR.PAGE_CTRL_QUIESCE_REQ 1).sliceClean i)) ∧
  (hasCap p capQuiesce = false → exec (.quiesceReqSet r c i) s = .next (a.order p r 0x18)) ∧
  (∃ v : State, exec (.quiesceReqClear r c i) s = .next (v.pageFree p).kick ∧ v.flag p PgHDR.PAGE_CTRL_QUIESCE_REQ = false ∧ a.regsBut v [(p, 0x18)] ∧
    (c ≠ cSIT → a.onlyRegs v) ∧ v = { a with regs := v.regs, site := v.site, out := v.out }) ∧
  (∃ v : State, exec (.enableSet r c i) s = .next (v.pageFree p).kick ∧ v.flag p PgHDR.PAGE_CTRL_ENABLE = true ∧ a.onlyRegs v ∧ a.regsBut v [(p, 0x18)]) ∧
  (∃ u : State, exec (.enableClear r c i) s = .next u ∧ u.flag p PgHDR.PAGE_CTRL_ENABLE = false ∧
    u.pageState p = (if s.pageState p = stBUSY then stQUIESCING else s.pageState p) ∧ a.onlyRegs u ∧ a.regsBut u [(p, 0x10), (p, 0x18), bob]) ∧
  (hasCap p capFence = false → exec (.fenceSet r c i) s = .next (a.order p r 0x18).kick) ∧
  (hasCap p capFence = true → (∀ u, pageUnit p = some u → a.fenceBreaks u = false) → let f := a.setFld p PgHDR.PAGE_CTRL_FENCE 1
    ((s.pageState p = stIDLE ∨ s.pageState p = stBUSY ∨ s.pageState p = stQUIESCING) →
      ∀ u, pageUnit p = some u → exec (.fenceSet r c i) s =
        .next (if f.live u then f.removeUnit u .fenced scNONE else (f.setState p stFENCED).commitStop p).kick) ∧
    ((s.pageState p = stOFF ∨ s.pageState p = stRESET ∨ s.pageState p = stFENCED ∨ s.pageState p = stFAULTED) →
      exec (.fenceSet r c i) s = .next f.kick)) ∧
  (∀ v : State, (v.setState p stFENCED).pageState p = stFENCED) ∧
  (s.pageState p = stFAULTED → exec (.fenceClear r c i) s = .next (a.order p r 0x18).kick) ∧
  (s.pageState p = stFENCED → c ≠ cFAB → let f := a.setFld p PgHDR.PAGE_CTRL_FENCE 0
    ((pageUnit p = none ∨ (hasCap p capFence = false ∧ ∀ u, pageUnit p = some u → a.live u = true)) → ∃ v : State, exec (.fenceClear r c i) s = .next (v.pageFree p).kick ∧ v.pageState p = stIDLE ∧ a.onlyRegs v ∧
      a.regsBut v [(p, 0x10), (p, 0x18), bob]) ∧
    (∀ u, hasCap p capFence = true → pageUnit p = some u → (a.unit u).live = .fenced → exec (.fenceClear r c i) s = .next (((f.returnUnit u).backPages [u]).pageFree p).kick)) ∧
  (s.pageState p = stQUIESCING → s.pageWork p = false → ∃ v : State, exec (.quiesceComplete c i) s = .next (v.pageFree p).kick ∧ v.pageState p = stIDLE ∧
    (c ≠ cSKN → s.onlyRegs v ∧ s.regsBut v [(p, 0x10), bob]))

/-- R69, R70. R58, R72; R88 of 03_floor_plan.md.
Model's choices in it: log entries 135, 137, 144. -/
def Obligations.CommitsAndPageEvents : Prop :=
  ((∀ (s : State) (r : Requester) (c i : Nat), c < 31 → s.reaches r c i = true → hasCap (pg c i) capStaged = true →
    s.pageState (pg c i) ≠ stOFF → s.pageState (pg c i) ≠ stRESET → s.flag (pg c i) PgHDR.PAGE_STATE_COMMIT_BUSY = false →
    (c ≠ cMIL → ∃ u : State, exec (.commitRequest r c i) s = .next u ∧ u.flag (pg c i) PgHDR.PAGE_STATE_COMMIT_BUSY = true ∧ (s.arrived r).onlyRegs u ∧
      (s.arrived r).regsBut u [(pg c i, 0x10)]) ∧
    (c = cMIL → exec (.commitRequest r c i) s = .next (((s.arrived r).setFld (pg c i) PgHDR.PAGE_STATE_COMMIT_BUSY 1).milRequest i))) ∧
  (∀ (s : State) (c i : Nat), (c = cDSP ∨ c = cHEP) → i < classCount c → s.pageAbsent (pg c i) = false →
    s.flag (pg c i) PgHDR.PAGE_STATE_COMMIT_BUSY = true → ∃ v : State, exec (.commitApply c i) s = .next v.kick ∧
    v.flag (pg c i) PgHDR.PAGE_STATE_COMMIT_BUSY = false ∧ v.flag (pg c i) PgHDR.PAGE_STATE_STAGED_PENDING = false ∧
    v.fld (pg c i) PgHDR.PAGE_COMMIT_COMMIT_SEQ = (s.fld (pg c i) PgHDR.PAGE_COMMIT_COMMIT_SEQ + 1) % 2 ^ 32 ∧
    (c = cHEP → winsBad s = true → v.active = s.active ∧ natBit (v.word (pg c i) 0x28).toNat 1 = true) ∧
    (c = cDSP ∨ winsBad s = false → ∀ row ∈ blockRows (pg c i), row.fld.cls = .staged → ∀ k, k < row.count →
      v.actWord (pg c i) (row.fld.off + k * row.stride) = s.word (pg c i) (row.fld.off + k * row.stride))) ∧
  (∀ (s : State) (n : Nat), n < 400 → s.flag (pg cSKN n) PgHDR.PAGE_STATE_COMMIT_BUSY = true → s.openTxns n = 0 →
    (s.wayCommitBad n = false → exec (.wayMapCommit n) s = .next (s.wayMapCommit n).kick) ∧
    (s.wayCommitBad n = true → ∃ v : State, exec (.wayMapCommit n) s = .next (v.releaseHeld n).kick ∧ v.active = s.active ∧ v.mem = s.mem ∧
      v.flag (pg cSKN n) PgHDR.PAGE_STATE_COMMIT_BUSY = false ∧ natBit (v.word (pg cSKN n) 0x28).toNat 1 = true))) ∧
  ((∀ (s : State) (r : Requester) (c i data : Nat), c < 31 → s.reaches r c i = true → hasCap (pg c i) capInt = true → ∃ u,
    exec (.intTestWrite r c i 8 false data) s = .next u ∧
    u.word (pg c i) 0x30 = (s.arrived r).word (pg c i) 0x30 ||| BitVec.ofNat 64 (data % 2 ^ 64 &&& intMask) ∧ (s.arrived r).onlyIrq u ∧
    (s.arrived r).regsBut u [(pg c i, 0x30)]) ∧
  (∀ (s : State) (c i : Nat), i < 2048 → s.pageAbsent (pg c i) = false → exec (.paritySweep c i none) s = .next s ∧
    ∀ off, exec (.paritySweep c i (some off)) s = .next (s.regParityFail (pg c i) off).kick) ∧
  (∀ (s : State) (u : UnitId), s.live u = true → exec (.floorPlanChange u .fenced 0) s = .next (match (unitPages u).find? (fun p => hasCap p capFence) with
    | some p => s.fenceSet .hub p
    | none => s.removeUnit u .fenced scNONE).kick) ∧
  (∀ (s : State) (n : Nat), s.live (.hank n) = true → exec (.floorPlanChange (.hank n) .inTest 0) s = .next (s.removeUnit (.hank n) .inTest scNONE).kick) ∧
  (∀ (s : State) (n j : Nat), n < 400 → j < 64 → s.absent (.spindle n j) = false → (s.unit (.spindle n j)).live ≠ .faulted →
    exec (.floorPlanChange (.spindle n j) .faulted 0) s = .next (s.spindleLost n j).kick) ∧
  (∀ (s : State) (r : Requester) (c i data : Nat) (high : Bool), c < 31 → s.reaches r c i = true → ∃ v,
    exec (.intTestWrite r c i 4 high data) s = .next v ∧ v = (s.arrived r).pageErr (pg c i) .access r (if high then 0x44 else 0x40) ∧
    natBit (v.word (pg c i) 0x28).toNat 2 = true ∧ (s.arrived r).regsBut v [(pg c i, 0x28), (pg c i, 0x30)]))

/-- R57, R60, R64. INT_STATUS and INT_ENABLE are kept (DEDUCED, log entry 64).
Model's choices in it: log entries 64, 65, 74. -/
def Obligations.PageResets : Prop := (∀ (s : State) (p : Nat), pgCls p ≠ cFAB → (s.pageReset p).pageState p = stRESET ∧ (s.pageReset p).word p 0x18 = 0 ∧
    (s.pageReset p).flag p PgHDR.RST_CTRL_BLOCK_RST = true ∧ (s.pageReset p).word p 0x28 = s.word p 0x28 ∧
    (s.pageReset p).word p 0x60 = s.word p 0x60 ∧ (s.pageReset p).word p 0x68 = s.word p 0x68 ∧
    (∀ off, off % 8 = 0 → off < 0x1000 → (s.pageReset p).actWord p off = resetWord p off) ∧
    (pgCls p ≠ cPRT → ∀ off, off % 8 = 0 → 0x100 ≤ off → off < 0x1000 → (s.pageReset p).word p off = resetWord p off) ∧
    (∀ q off, q ≠ p → homePage q off ≠ p → off < 0x1000 → (s.pageReset p).word q off = s.word q off)) ∧
  (∀ (s : State) (r : Requester) (c i : Nat), c < 31 → s.reaches r c i = true → hasCap (pg c i) capRst = true → s.pageState (pg c i) ≠ stOFF →
    s.flag (pg c i) PgHDR.RST_CTRL_BLOCK_RST = false →
    ((c = cHNK ∨ c = cSKN ∨ c = cSIT) → ∃ u : State, exec (.blockRst r c i) s = .next u.kick ∧ u.pageState (pg c i) = stRESET ∧
      u.flag (pg c i) PgHDR.RST_CTRL_BLOCK_RST = true ∧ u.word (pg c i) 0x18 = 0 ∧
      (∀ off, off % 8 = 0 → 0x100 ≤ off → off < 0x1000 → off ≠ PgSKN.STATUS_WIPE_BUSY.off → u.word (pg c i) off = resetWord (pg c i) off) ∧
      (c = cSKN → u.flag (pg cSKN i) PgSKN.STATUS_WIPE_BUSY = true ∧ u.plan = s.plan) ∧ (c = cHNK → u.pageState (pg cBOB i) = stRESET)) ∧
    (c = cHNK → exec (.blockRst r c i) s = .next ((s.arrived r).hankReset i { full := false }).kick) ∧
    (c = cSKN → exec (.blockRst r c i) s = .next (((s.arrived r).pageReset (pg c i)).wipeStart i).kick) ∧
    (c = cSIT → exec (.blockRst r c i) s = .next ((s.arrived r).siteReset i tsSITE_ERROR).kick) ∧
    (c = cFAB → exec (.blockRst r c i) s = .next ((s.arrived r).attReset i).kick)) ∧
  (∀ (s : State) (r : Requester) (c i : Nat), c < 31 → s.reaches r c i = true → (hasCap (pg c i) capRst = false ∨ s.pageState (pg c i) = stOFF) →
    exec (.blockRst r c i) s = .next ((s.arrived r).order (pg c i) r 0x58).kick) ∧
  (∀ (s : State) (c i : Nat), c < 31 → i < 2048 → c ≠ cHNK → c ≠ cBOB → c ≠ cSIT → s.pageAbsent (pg c i) = false →
    s.flag (pg c i) PgHDR.RST_CTRL_BLOCK_RST = true → s.pageState (pg c i) = stRESET → s.pageOn (pg c i) = true →
    exec (.blockRstComplete c i true) s = .next (s.blockResetDone (pg c i)).kick ∧
    (c ≠ cSKN → (∀ u, pageUnit (pg c i) = some u → s.live u = true) → s.flag (pg c i) PgHDR.PAGE_CTRL_FENCE = false →
      (∀ t, pageTol (pg c i) = some t → ∀ o ∈ s.mesh.outs, o.tol ≠ t) → ∃ u : State, exec (.blockRstComplete c i true) s = .next u.kick ∧
      u.pageState (pg c i) = stIDLE ∧ u.flag (pg c i) PgHDR.PAGE_CTRL_ENABLE = true ∧ u.flag (pg c i) PgHDR.RST_CTRL_BLOCK_RST = false ∧
      s.onlyRegs u ∧ s.regsBut u [(pg c i, 0x10), (pg c i, 0x18), (pg c i, 0x58)])) ∧
  (∀ (s : State) (p : Nat) (u : UnitId), pageUnit p = some u → s.live u = true → s.flag p PgHDR.PAGE_CTRL_FENCE = false →
    (∀ t, pageTol p = some t → ∀ o ∈ s.mesh.outs, o.tol ≠ t) →
    (s.pageResetDone p).pageState p = stIDLE ∧ (s.pageResetDone p).flag p PgHDR.PAGE_CTRL_ENABLE = true ∧
    (s.pageResetDone p).flag p PgHDR.RST_CTRL_BLOCK_RST = false)

/-- R75. -/
def Obligations.OwnerClasses : Prop := ∀ (s : State) (c i data : Nat), c < 31 → i < 2048 → s.pageAbsent (pg c i) = false → s.quiet (pg c i) = true →
  (natBits data 12 8 < 16 ∨ natBits data 12 8 = 31) →
  let p := pg c i
  let ac := natBits data 1 0
  (s.accessClass p ≤ 1 → classAccess c = 0 → ac ≤ 1 → ∃ u : State, exec (.ownerWrite .mgmt c i data) s = .next u ∧ u.accessClass p = ac ∧
    u.ownerPart p = natBits data 12 8 ∧ s.onlyRegs u ∧ s.regsBut u [(p, 0x68)]) ∧
  (s.accessClass p ≤ 1 → ac ≤ 2 → ac ≠ s.accessClass p → (classAccess c ≠ 0 ∨ ac = 2) → ∃ u : State, exec (.ownerWrite .mgmt c i data) s = .next u ∧
    u.word p 0x68 = s.word p 0x68 ∧ natBit (u.word p 0x28).toNat 2 = true ∧ s.onlyIrq u ∧ s.regsBut u [(p, 0x28), (p, 0x30)]) ∧
  (ac ≤ 2 → ∃ u : State, exec (.ownerWrite .rot c i data) s = .next u ∧ u.accessClass p = ac ∧ u.ownerPart p = natBits data 12 8 ∧ s.onlyRegs u ∧
    s.regsBut u [(p, 0x68)])

/-- R508 to R516.
Model's choices in it: log entries 126, 132, 133. -/
def Obligations.HostLink : Prop := ∀ (s : State),
  (s.dlUp = true → ∀ acked, ∃ u : State, exec (.linkDown acked) s = .next u ∧ u.dlUp = false ∧ u.fld pHEP PgHEP.LINK_STATUS_SPEED = 0 ∧
    u.fld pHEP PgHEP.LINK_STATUS_WIDTH = 0 ∧ u.host = { s.host with grace := true, graceMs := s.fld pHEP PgHEP.LINK_CFG_GRACE_MS
                                                                    posted := s.host.posted.drop acked, turnOff := false } ∧
    u = { s with regs := u.regs, host := u.host, out := u.out }) ∧
  (s.dlUp = false → s.boot.perst = false → s.boot.pwrGood = true → s.domOn 820 = true → s.lc.stage = 0 → s.live .host = true →
    ∀ speed width flit cxl, linkOk speed width = true → (speed = 6 → flit = true) → (cxl = true → flit = true) → ∃ u : State,
    exec (.linkUp speed width flit cxl) s = .next u.hostRelease ∧ u.dlUp = true ∧ u.host.grace = false ∧ (s.hubReady = true → u.host.drsSent = true) ∧
    (s.host.drsSent = false → s.hubReady = true → Out.drs ∈ u.out) ∧ u.boot = s.boot ∧ u.mem = s.mem) ∧
  (s.dlUp = true → ∀ speed width replayed, linkOk speed width = true → ∃ u : State, exec (.linkRecovery speed width replayed) s = .next u ∧
    u.fld pHEP PgHEP.LINK_STATUS_PM = 0 ∧ u.dlUp = true ∧ u = { s with regs := u.regs, host := u.host, out := u.out } ∧
    s.regsBut u [(pHEP, PgHEP.LINK_STATUS_SPEED.off), (pHEP, PgHEP.PERF1_RECOVERIES.off), (pHEP, 0x30)]) ∧
  (s.dlUp = true → s.d3hot = false → ∃ u : State, exec (.dstateChange true) s = .next u ∧ u.d3hot = true ∧ u.host.held = s.host.held ∧
    u = { s with regs := u.regs, host := u.host, out := u.out }) ∧
  (s.dlUp = true → s.d3hot = true → ∃ u : State, exec (.dstateChange false) s = .next u.hostRelease ∧ u.d3hot = false) ∧
  (s.dlUp = true → ∃ u : State, exec .pmeTurnOff s = .next u ∧ u.host.turnOff = true ∧ u.host.held = s.host.held ∧
    u = { s with regs := u.regs, host := u.host }) ∧
  (s.dlUp = true → s.host.turnOff = true → s.host.reads = [] → ∃ u : State, exec .pmeToAck s = .next u ∧ u.out = s.out ++ [.pmeToAck] ∧
    u.fld pHEP PgHEP.LINK_STATUS_PM = 3 ∧ u = { s with regs := u.regs, host := { s.host with turnOff := false, posted := [] }, out := u.out }) ∧
  (∀ sub, s.dlUp = true → (s.host.l1En = true ∨ s.d3hot = true) → s.host.reads = [] → s.host.held = [] → s.fld pHEP PgHEP.LINK_STATUS_PM ≠ 3 → ∃ u : State,
    exec (.l1Entry sub) s = .next u ∧ u.fld pHEP PgHEP.LINK_STATUS_PM = (if sub then 2 else 1) ∧
    u = { s with regs := u.regs, host := { s.host with posted := [] } }) ∧
  (s.dlUp = false → s.host.grace = true → exec .graceExpire s = .next (({ s with host := { s.host with grace := false } } : State).warmStart .warm 2))

/-- R501, R507.
Model's choices in it: log entries 131. -/
def Obligations.BusMaster : Prop := ∀ (s : State),
  (exec .bmeClear s = .next { s with host := { s.host with bme := false } }) ∧
  (s.dlUp = true → exec .bmeSet s = .next ({ s with host := { s.host with bme := true } } : State).hostRelease) ∧
  (∀ kind task pasid addr untr relaxed data back, s.host.bme = false → (kind = HostReqKind.read ∨ kind = HostReqKind.write ∨ kind = HostReqKind.flush) →
    let u := s.hostIssue kind task pasid addr untr relaxed data back
    u.host.held = s.host.held ++ [⟨s.host.nextReq, kind, task, pasid, addr, untr, relaxed, data, back, 0⟩] ∧ u.host.reads = s.host.reads ∧
    u.fld pHEP PgHEP.BME_HELD_NOW = min 0xFFFF (s.host.held.length + 1) ∧ (∀ q, Out.hostReq q ∈ u.out → Out.hostReq q ∈ s.out)) ∧
  (∀ id q, s.host.held.find? (fun x => x.id = id) = some q → q.kind ≠ .pageReq → s.mayLeave q.addr = false →
    (exec (.bmeHoldTimeout id) s = .next (s.holdTimeout q).kick) ∧
    (∀ t, q.task = some t → q.back = none → s.task? t = none → NMap.getD s.taskErrs 0 (taskKey t) = 0 → (s.holdTimeout q).host.held = s.host.held.filter (fun x => x.id ≠ q.id) ∧
      NMap.getD (s.holdTimeout q).taskErrs 0 (taskKey t) = tsBME_OFF)) ∧
  (∀ id ok data pois q, s.dlUp = true → s.host.reads.find? (fun x => x.id = id) = some q →
    (exec (.hostReadCompletion id ok data pois) s = .next (s.rxTlp.readDone q ok data pois).kick) ∧
    (q.kind = .flush → ∃ v : State, s.readDone q ok data pois = v.hostRelease.hostBusy ∧ v.host.reads = s.host.reads.filter (fun x => x.id ≠ q.id) ∧
      v.host.posted = s.host.posted.filter (fun x => q.id ≤ x.id)))

/-- R492 to R496, R499, R516; R210 of 07_skein_memory.md.
Model's choices in it: log entries 43, 44, 127. -/
def Obligations.HostRequests : Prop := ∀ (s : State), s.dlUp = true →
  (∀ off w, s.host.drsSent = false → exec (.configRequest off w) s = .next (s.rxTlp.hostAnswer ⟨0, none, 3, false, []⟩)) ∧
  (∀ off f, s.host.drsSent = true → exec (.configRequest off (some f)) s = .next ((s.rxTlp.cfgWrite f).hostAnswer ⟨0, none, 0, false, []⟩)) ∧
  (∀ off v, s.host.drsSent = true → s.rxTlp.cfgRead off = some v →
    exec (.configRequest off none) s = .next (s.rxTlp.hostReply ⟨s.nextJoin, none, 0, false, natLe 4 v⟩)) ∧
  (∀ off, s.dlUp = true → off < 2 ^ (30 + s.host.bar4Log) → s.aerPoisoned off = { s with host := { s.host with aerPoison := true } }) ∧
  (s.cfgWrite (.mse true) = { s with host := { s.host with mse := true } }) ∧
  (s.hostReach = true → ∀ v, v < 2048 → ∃ u : State, exec (.msixUnmask v) s = .next u.sendPending ∧ (u.vec v).mask = false ∧
    (u.vec v).pend = (s.vec v).pend ∧ (∀ k, k ≠ v → u.vec k = s.vec k)) ∧
  (s.hostReach = true → s.ideShut = false → s.rot.owner = none → ∀ off reqId, off < 2 ^ (30 + s.host.bar4Log) →
    (s.rxTlp.winOf off = none → ∀ ide len op operand, (
      exec (.bar4Read off len reqId ide) s = .next ((s.rxTlp.closedLog 0 off reqId false).hostReply ⟨(s.rxTlp.closedLog 0 off reqId false).nextJoin, none, 1, false, []⟩).kick) ∧
      (∀ poisoned data, exec (.bar4Write off reqId ide poisoned data) s =
        .next ((if poisoned then s.aerPoisoned off else s).rxTlp.closedLog 0 off reqId true).kick) ∧
      exec (.hostAtomicop off op reqId ide operand) s = .next ((s.rxTlp.closedLog 0 off reqId false).hostReply ⟨(s.rxTlp.closedLog 0 off reqId false).nextJoin, none, 1, false, []⟩).kick) ∧
    (∀ w, s.rxTlp.winOf off = some w → ∀ ide len,
      (∀ ps, s.winParts w off len true (fun _ _ => .read) = some ps → exec (.bar4Read off len reqId ide) s = .next
        ((s.rxTlp.workStart pHEP).serveParts (.host off reqId false) 476 (s.rxTlp.winPart w) (s.rxTlp.fld (pg cTOL 476) PgTOL.CLASS_CFG_DEFAULT_CLASS)
          0 .plain 5 ps).kick) ∧
      (s.rxTlp.actFlag pHEP (PgHEP.WIN_MAP_WRITE w) = true → ∀ poisoned data ps,
        s.winParts w off data.length false (fun o n => .write ((data.drop o).take n) (if poisoned then 3 else 0)) = some ps →
        let v := (if poisoned then s.aerPoisoned off else s).rxTlp
        exec (.bar4Write off reqId ide poisoned data) s = .next
          ((v.workStart pHEP).serveParts (.host off reqId true) 476 (v.winPart w) (v.fld (pg cTOL 476) PgTOL.CLASS_CFG_DEFAULT_CLASS)
            (v.actFld pHEP (PgHEP.WIN_TGT_HINT w)) .plain 5 ps).kick) ∧
      (s.rxTlp.actFlag pHEP (PgHEP.WIN_MAP_WRITE w) = true → ∀ op operand x, s.winAddr w off = some x → ∃ n,
        exec (.hostAtomicop off op reqId ide operand) s = .next
          ((s.rxTlp.workStart pHEP).serveParts (.host off reqId false) 476 (s.rxTlp.winPart w) (s.rxTlp.fld (pg cTOL 476) PgTOL.CLASS_CFG_DEFAULT_CLASS)
            (s.rxTlp.actFld pHEP (PgHEP.WIN_TGT_HINT w)) .plain 5 [{ addr := x, len := n, op := hostAtomic op operand }]).kick)))

/-- R571; R639, R646 of 23_physical.md.
Model's choices in it: log entries 82, 128, 129. -/
def Obligations.IdeAndClocks : Prop := ∀ (s : State),
  (s.rot.sessions.any (fun x => x.up && x.tr = Transport.doe) = true → ∀ stream set, stream < 2 → set < 2 →
    let x := NMap.getD s.rot.ide {} stream
    (∃ v : State, exec (.keyProg stream set) s = .next v.hostRelease ∧ set ∈ (NMap.getD v.rot.ide {} stream).prog ∧
      (∀ k, k ≠ stream → NMap.getD v.rot.ide {} k = NMap.getD s.rot.ide {} k) ∧ v = { s with rot := { s.rot with ide := v.rot.ide }, out := v.out }) ∧
    (set ∈ x.prog → ∃ v : State, exec (.kSetGo stream set) s = .next v.hostRelease ∧ (NMap.getD v.rot.ide {} stream).go = some set ∧
      v = { s with rot := { s.rot with ide := v.rot.ide }, out := v.out }) ∧
    (∃ v : State, exec (.kSetStop stream set) s = .next v.hostRelease ∧ set ∉ (NMap.getD v.rot.ide {} stream).prog ∧
      (NMap.getD v.rot.ide {} stream).go ≠ some set ∧ v = { s with rot := { s.rot with ide := v.rot.ide }, out := v.out }) ∧
    (∃ v : State, exec (.ideQuery stream) s = .next v.hostRelease ∧ NMap.getD v.rot.ide {} stream = x ∧ v.out.length = s.out.length + 1 ∧
      v = { s with rot := { s.rot with ide := v.rot.ide }, out := v.out })) ∧
  (exec (.refclkLoss .mgmt) s = .next s) ∧ (exec (.refclkLoss .tref) s = .next s) ∧
  (s.dlUp = true → ∃ u : State, exec (.refclkLoss .pcie) s = .next u ∧ u.dlUp = false ∧ u.host.grace = true ∧ u.host.posted = s.host.posted ∧
    u.mem = s.mem ∧ u.dsp = s.dsp) ∧
  (exec (.refclkLoss .eth) s = .next ((s.ethLink 0 false).ethLink 1 false)) ∧
  (∃ v : State, v = ((List.range 24).filter (fun g => s.strandState g = ssUP)).foldl (fun s g => s.strandRetrain g true) s ∧
    exec (.refclkLoss .hbm) s = .next (((List.range 256).filter v.chLive).foldl State.retrainStart v))

/-- R593, R594; R573, R591 of 20_power_domains.md; R646.
Model's choices in it: log entries 46, 47, 58. -/
def Obligations.Supplies : Prop := ∀ (s : State),
  (s.boot.pwrGood = false → ∃ u : State, exec .pwrGoodAssert s = .next u ∧ u.boot.pwrGood = true ∧ u.boot.running = [1] ∧ u.boot.kind = .cold ∧
    u.mem = { nonce := s.mem.nonce + 1 } ∧ u.dsp = {} ∧ u.plan = {} ∧ u.lc.stateWord = s.lc.stateWord ∧ u.lc.excWord = s.lc.excWord ∧
    u.lc.slots = s.lc.slots ∧ u.rot.owner = s.rot.owner ∧ u.rot.comps = s.rot.comps ∧ u.host.pmeEn = s.host.pmeEn ∧
    (∀ p off, homePage p off ≠ pHEP → homePage p off ≠ pGLB → off < 0x1000 → u.word p off = resetWord (homePage p off) off)) ∧
  (s.boot.pwrGood = true → ∃ u : State, exec .pwrGoodDeassert s = .next u ∧ u.boot.pwrGood = false ∧ u.boot.running = [] ∧ u.regs = [] ∧ u.dsp = {} ∧
    u.lc.stateWord = s.lc.stateWord ∧ u.lc.excWord = s.lc.excWord ∧ u.lc.slots = s.lc.slots ∧ u.rot.owner = s.rot.owner ∧ u.host.pmeEn = s.host.pmeEn) ∧
  (∃ u : State, exec .vddAonLoss s = .next u ∧ u.boot.pwrGood = false ∧ u.boot.aonOk = false ∧ u.host.pmeEn = false ∧ u.host.pmeStatus = false ∧
    u.lc.stateWord = s.lc.stateWord ∧ u.lc.slots = s.lc.slots ∧ u.rot.owner = s.rot.owner) ∧
  (∃ u : State, exec .vddIo18Loss s = .next u ∧ u.boot.pwrGood = false ∧ u.boot.io18Ok = false ∧ u.host.pmeEn = s.host.pmeEn ∧
    u.lc.stateWord = s.lc.stateWord ∧ u.lc.slots = s.lc.slots ∧ u.rot.owner = s.rot.owner)

/-- R599 to R602; R77, R653 of 03_floor_plan.md.
Model's choices in it: log entries 48, 49, 50, 62, 70, 219, 221. -/
def Obligations.StartStages : Prop := ∀ (s : State),
  (∀ k, s.boot.running.contains k = false → s.stageOver k = s) ∧
  (∀ images, (s.boot.running.contains 1 = false → exec (.rotBootDone images) s = .next s) ∧
    (s.boot.running.contains 1 = true → (s.rotStart images).rot.halted = false → exec (.rotBootDone images) s = .next ((s.rotStart images).stageOver 1)) ∧
    (s.boot.running.contains 1 = true → (s.rotStart images).rot.halted = true → ∃ u : State, exec (.rotBootDone images) s = .next u ∧ u.boot.running = [])) ∧
  (∀ f, s.boot.running.contains 2 = true → exec (.otpReadDone f) s = .next (((s.fusePlan f).measureBoot (fuseWords f)).stageOver 2)) ∧
  (∀ slices dead eth, s.boot.running.contains 3 = true → ∃ v : State, exec (.dieWipeDone slices dead eth) s = .next (v.meshCheck.stageOver 3)) ∧
  (s.boot.running.contains 3 = true → ∃ v : State, exec (.dieWipeDone [] [] []) s = .next (v.meshCheck.stageOver 3) ∧
    v = (List.range 400).foldl (fun s n => s.coldSlice [] n) { s with plan := { s.plan with banksTested := true } }) ∧
  (∀ stage, stage ∈ [4, 5, 7, 11, 12] → s.boot.running.contains stage = true → exec (.stageLaunch stage) s = .next
    ({ s with boot := { s.boot with overrun := s.boot.overrun ++ [stage] } } : State).bootCheck) ∧
  (exec .opticalStageDeadline s = .next (s.stageOver 6)) ∧ (exec .timeStageDeadline s = .next (s.stageOver 7)) ∧
  (∀ images, s.boot.running.contains 10 = true → exec (.warmRotDone images) s = .next ((s.rotWarm images).stageOver 10)) ∧
  (exec (.timeRelockDone true) s = .next (s.stageOver 12)) ∧
  (∀ a, s.boot.running.contains 5 = true → s.boot.hbmPend.contains a = true → ∃ v : State, exec (.hbmTrainingDone a true []) s = .next v.bootCheck ∧
    v = { s with boot := { s.boot with hbmPend := s.boot.hbmPend.filter (· ≠ a) } }) ∧
  (∀ a chOk, s.boot.running.contains 11 = true → s.boot.hbmPend.contains a = true → (∀ c, c < 32 → natBit chOk c = true) →
    exec (.hbmRestoreDone a chOk) s = .next (s.hbmSettled a))

/-- R392, R393, R413 of 13_chiplet_sites.md; R446, R447 of 14_fabric_links.md.
Model's choices in it: log entries 52. -/
def Obligations.UnitTraining : Prop := ∀ (s : State),
  (∀ x t, x < 4 → s.absent (.site x) = false → (s.siteLink x = slTRAINING ∨ s.siteLink x = slRETRAINING) →
    exec (.siteTrainingDone x t) s = .next (s.siteTrained x t).bootCheck) ∧
  (∀ x digest m, x < 4 → s.absent (.site x) = false → exec (.laneMapDigest x digest m) s = .next (s.laneDigests x (digest % 2 ^ 32) m).bootCheck) ∧
  (∀ x c m, x < 4 → s.chanUp x c = true → (s.siteSt x).cfg ≠ [] →
    exec (.aspCfgcpl x c m) s = .next ((s.aspFree x c 6 (aspCost m)).cfgAnswer x (some (m.arg8 % 2, m.arg64))).bootCheck) ∧
  (∀ x, x < 4 → (s.siteSt x).cfg ≠ [] → exec (.cfgAnswerTimeout x) s = .next (s.cfgAnswer x none).bootCheck) ∧
  (∀ a engineId temp, a < 6 → s.live (.optAtt a) = true → (∀ k, k < 4 → s.live (.strand a k) = true ∧ s.strandState (4 * a + k) = ssTRAINING) → ∃ v : State,
    exec (.opticalTrainingDone a engineId temp 0 []) s = .next v.bootCheck ∧ (∀ k, k < 4 → v.strandState (4 * a + k) = ssNO_PEER) ∧
    v.flag (pg cFAB a) PgFAB.ENGINE_READY = true ∧ v.flag (pg cFAB a) PgFAB.ENGINE_LASER_ON = true ∧ v.boot = s.boot ∧ v.plan = s.plan)

/-- R604, R605.
Model's choices in it: log entries 51, 77, 79. -/
def Obligations.HankDelivery : Prop := ∀ (s : State) (n : Nat) (d : DelivSt), n < 400 → s.delivery n = some d →
  (∀ chunk, (s.comp 5).down = false → chunk < s.imageChunks → ∃ u : State, exec (.hankChunkReceive n chunk true) s = .next u ∧
    (∃ e, u.delivery n = some e ∧ natBit e.chunks chunk = true ∧ (∀ k, k ≠ chunk → natBit e.chunks k = natBit d.chunks k) ∧ e = { d with chunks := e.chunks }) ∧
    (∀ m, m ≠ n → u.delivery m = s.delivery m) ∧ u = { s with deliv := u.deliv }) ∧
  (exec (.hankChunkReceive n 0 false) s = .next s) ∧
  (∀ got, (s.comp 5).down = false → d.chunks ≠ s.wholeImage → d.round < 2 → ∃ u : State, exec (.deliveryRepairRound n got) s = .next u ∧
    u.delivery n = some { d with chunks := d.chunks ||| (got &&& s.wholeImage), round := d.round + 1 } ∧ u = { s with deliv := u.deliv }) ∧
  (∀ got, (s.comp 5).down = false → d.chunks ≠ s.wholeImage → d.round = 2 → d.chunks ||| (got &&& s.wholeImage) ≠ s.wholeImage → ∃ v : State,
    exec (.deliveryRepairRound n got) s = .next v.bootCheck ∧
    v = s.noFirmware n { d with chunks := d.chunks ||| (got &&& s.wholeImage), round := 3 }) ∧
  (∀ v : State, (v.hankFails n true scFIRMWARE).flag (pg cHNK n) PgHDR.PAGE_CTRL_FENCE = true ∧
    (v.hankFails n false scFIRMWARE).flag (pg cHNK n) PgHDR.PAGE_CTRL_FENCE = true) ∧
  (∀ t, d.chunks = s.wholeImage → (d.full = true → exec (.hankSelfTestDone n true t) s = .next (s.hankTested n d t).bootCheck) ∧
    (d.full = false → exec (.hankSelfTestDone n true t) s = .next (s.hankKnown n t).bootCheck) ∧
    (d.round < 3 → ∃ u : State, exec (.hankSelfTestDone n false t) s = .next u ∧ u.delivery n = some { d with chunks := 0 } ∧ u = { s with deliv := u.deliv }) ∧
    (3 ≤ d.round → exec (.hankSelfTestDone n false t) s = .next (s.noFirmware n d).bootCheck))

/-- R602, R607, R608, R610.
Model's choices in it: log entries 57, 63, 66, 67, 68, 78, 227. -/
def Obligations.ResetLevels : Prop := ∀ (s : State),
  (∀ r, s.opens r cMGT 0 = true → s.boot.running ≠ [] → exec (.warmReset r) s = .next (s.arrived r)) ∧
  (∀ r, s.opens r cMGT 0 = true → s.boot.running = [] → s.boot.wasReady = true → s.boot.pwrGood = true → s.rot.halted = false → s.lc.stage = 0 →
    ∃ u : State, exec (.warmReset r) s = .next u ∧ u.boot.running = [9] ∧ u.boot.warm = true ∧ u.boot.kind = .warm ∧ u.boot.lossCause = 3 ∧ u.dsp = {} ∧
    u.atu = {} ∧ u.eth = {} ∧ u.mil = {} ∧ u.taskErrs = [] ∧ u.lc = s.lc ∧ u.rot.owner = s.rot.owner ∧ u.flag pMGT PgMGT.RESET_WARM = true) ∧
  (∀ slices, s.boot.running.contains 9 = true → ∃ v : State, exec (.warmDrainDone slices) s = .next (v.stageOver 9) ∧ v.boot.partReset = [] ∧
    v.flag pMGT PgMGT.RESET_WARM = false) ∧
  (s.boot.running.contains 9 = true → exec (.drainLimitExpire none) s = .next (s.drainLimit none)) ∧
  (s.boot.running.contains 9 = false → exec (.drainLimitExpire none) s = .next s) ∧
  (∀ p, s.boot.partReset.contains p = true → exec (.drainLimitExpire (some p)) s = .next (s.drainLimit (some p)) ∧
    exec (.partitionResetDone p) s = .next (s.partResetDone p).kick.atuWork) ∧
  (∀ p, s.boot.partReset.contains p = false → exec (.partitionResetDone p) s = .next s) ∧
  (∀ r p, s.opens r cPRT p = true → (s.flag (pg cPRT p) PgPRT.CTRL_RESET = true → exec (.partitionReset r p) s = .next (s.arrived r)) ∧
    (s.flag (pg cPRT p) PgPRT.CTRL_RESET = false → exec (.partitionReset r p) s = .next ((s.arrived r).partResetStart p)))

/-- R575 to R577, R589, R590.
Model's choices in it: log entries 53, 61. -/
def Obligations.PowerEntries : Prop := ∀ (s : State),
  (∀ d, d < 820 → s.phase d = 0 → (s.domSt d).st = 0 → ∀ q, q ≠ 0 → s.domReq d = q →
    (s.entryBad d q = none → s.powerTry d = ((s.setDom d { s.domSt d with target := q, wake := false }).setPhase d 1).domQuiesce d) ∧
    (∀ c p, s.entryBad d q = some (c, p) → c < 16 → (s.powerTry d).domReq d = 0 ∧ (s.powerTry d).fld (pg cPWR d) PgPWR.STATUS_REF_CAUSE = c ∧
      (s.powerTry d).fld (pg cPWR d) PgPWR.COUNT_REFUSED = min 0xFFFF (s.fld (pg cPWR d) PgPWR.COUNT_REFUSED + 1))) ∧
  (∀ r c i req, c < 31 → s.reaches r c i = true → hasCap (pg c i) capPwr = true → req % 4 ≠ 3 → ∀ d, pageDom (pg c i) = some d →
    (req % 4 = 0 → s.phase d ≠ 0 → exec (.powerRequest r c i req) s = .next (((s.arrived r).setReq d 0).wakeDom d)) ∧
    ((req % 4 ≠ 0 ∨ s.phase d = 0) → exec (.powerRequest r c i req) s = .next (((s.arrived r).setReq d (req % 4)).powerTry d))) ∧
  (∀ r c i req, c < 31 → s.reaches r c i = true → hasCap (pg c i) capPwr = true → req % 4 = 3 → (pageDom (pg c i)).isSome = true →
    exec (.powerRequest r c i req) s = .next ((s.arrived r).order (pg c i) r 0x48)) ∧
  (∀ r req, s.reaches r cMGT 0 = true → (0 < req % 4 ∧ req % 4 < 3) →
    exec (.coreSleepRequest r req) s = .next (((s.arrived r).setFld pMGT PgMGT.SLEEP_CORE_REQ (req % 4)).powerTry 821) ∧
    exec (.mgmtSleepRequest r req) s = .next (((s.arrived r).setFld pMGT PgMGT.SLEEP_MGMT_REQ (req % 4)).powerTry 823)) ∧
  (∀ d, d < 824 → d ≠ 822 →
    (s.phase d = 1 → exec (.powerQuiesceDone d) s = .next (s.setPhase d 2)) ∧ (s.phase d ≠ 1 → exec (.powerQuiesceDone d) s = .next s) ∧
    (s.phase d = 2 → exec (.powerDrainDone d) s = .next (s.setPhase d 3)) ∧ (s.phase d ≠ 2 → exec (.powerDrainDone d) s = .next s) ∧
    (s.phase d = 3 → exec (.powerSaveDone d) s = .next ((((s.domSave d).domIsolate d).setPhase d 4).kick)) ∧
    (s.phase d = 4 → exec (.powerIsolateDone d) s = .next (s.setPhase d 5)) ∧ (s.phase d ≠ 4 → exec (.powerIsolateDone d) s = .next s) ∧
    (s.phase d = 5 → exec (.powerSwitchDone d) s = .next (s.switched d)) ∧ (s.phase d ≠ 5 → exec (.powerSwitchDone d) s = .next s)) ∧
  (exec (.powerQuiesceDone 822) s = exec (.powerQuiesceDone 821) s ∧ exec (.powerSwitchDone 822) s = exec (.powerSwitchDone 821) s) ∧
  (∀ d k, d < 824 → k < 8 → (s.setPhase d k).phase d = k ∧ s.onlyRegs (s.setPhase d k))

/-- R578 to R581, R585 to R587, R589.
Model's choices in it: log entries 54, 55, 56, 59. -/
def Obligations.PowerWakes : Prop := ∀ (s : State),
  (∀ d, d < 820 → (4 ≤ s.phase d ∧ s.phase d ≠ 6 ∨ (s.phase d ≠ 0 ∧ s.phase d ≠ 6 ∧ privileged d (s.domSt d).target = true)) → ((s.wakeDom d).domSt d).wake = true ∧
    (s.wakeDom d).phase d = s.phase d ∧ (s.wakeDom d).domReq d = 0) ∧
  (∀ d, d < 820 → 1 ≤ s.phase d → s.phase d ≤ 3 → privileged d (s.domSt d).target = false → ∃ v : State, s.wakeDom d = v.powerTry d ∧
    v = (((((s.setReq d 0).setPhase d 0).domRelease d).count (pg cPWR d) PgPWR.COUNT_ABORTED 1).pwrResult d 3 1)) ∧
  (∀ d, d < 820 → s.domAbsent d = false → (s.domOn d = false ∨ s.phase d ≠ 0) → s.flag (pg cPWR d) PgPWR.CFG_DEMAND_WAKE = true →
    exec (.powerDemand d) s = .next ((s.count (pg cPWR d) PgPWR.DEMANDS_WAKES 1).wakeDom d)) ∧
  (∀ d ok, d < 820 → s.phase d = 6 → exec (.powerExitDone d ok) s = .next (s.domBack d ok)) ∧
  (∀ ok, (s.phase 821 = 6 → exec (.powerExitDone 821 ok) s = .next s.resume) ∧ (s.phase 823 = 6 → exec (.powerExitDone 823 ok) s = .next s.mgmtBack)) ∧
  (∀ addr, s.mgmtDown = true → s.boot.aonOk = true → s.boot.io18Ok = true → addr = s.fld pMGT PgMGT.I3C_CFG_STATIC_ADDR →
    exec (.i3cAddressMatch addr) s = .next ((s.emit .i3cNack).wakeMgmt 0)) ∧
  (∀ mv falling ns, (s.domSt 823).st = 1 → s.flag pMGT PgMGT.WAKE_CFG_EN_LVL = true → 1000 ≤ ns → falling = s.flag pMGT PgMGT.WAKE_CFG_LVL_FALL →
    (if falling then mv ≤ 10 * s.fld pMGT PgMGT.WAKE_CFG_LVL_THR else 10 * s.fld pMGT PgMGT.WAKE_CFG_LVL_THR ≤ mv) →
    exec (.wakeLvlCrossing mv falling ns) s = .next (s.wakeMgmt 1)) ∧
  (s.boot.wakeTimer = true → s.flag pMGT PgMGT.WAKE_CFG_EN_TIMER = true →
    exec .wakeTimerExpire s = .next (({ s with boot := { s.boot with wakeTimer := false } } : State).wakeMgmt 3)) ∧
  (∀ src, src < 4 → s.phase 823 = 6 → natBit ((s.wakeMgmt src).fld pMGT PgMGT.WAKE_STATUS_SOURCE) src = true)

/-- R595; R514 of 16_host_endpoint.md; R575 of 20_power_domains.md.
Model's choices in it: log entries 24, 60. -/
def Obligations.PerstAndRegisters : Prop := ∀ (s : State), s.boot.pwrGood = true → s.rot.halted = false →
  (s.boot.perst = false → (s.boot.running ≠ [] ∨ s.boot.wasReady = false) → ∃ u : State, exec .perstAssert s = .next u ∧ u.boot = { s.boot with perst := true } ∧
    (u.domSt 820).st = 2 ∧ u.dlUp = false ∧ u.mem = s.mem ∧ u.dsp = s.dsp ∧ u.atu = s.atu ∧ u.fab = s.fab ∧ u.host.pmeEn = s.host.pmeEn) ∧
  (s.boot.perst = false → s.boot.running = [] → s.boot.wasReady = true → s.lc.stage = 0 → ∃ u : State, exec .perstAssert s = .next u ∧ u.boot.running = [9] ∧
    u.boot.lossCause = 1 ∧ u.boot.perst = true ∧ (u.domSt 820).st = 2 ∧ u.dsp = {}) ∧
  (s.boot.perst = true → ∃ v : State, exec .perstDeassert s = .next v.bootCheck) ∧
  (s.boot.perst = true → s.boot.running = [] → s.boot.ended = [] → s.flag pMGT PgMGT.WAKE_CFG_EN_PERST = false → ∃ u : State, exec .perstDeassert s = .next u ∧
    u.boot.perst = false ∧ u.boot.perstSeen = true ∧ (u.domSt 820).st = 0)

/-- R617 to R619; R641, R646 of 23_physical.md.
Model's choices in it: log entries 116, 118, 119, 124, 197. -/
def Obligations.DetectorEvents : Prop := ∀ (s : State),
  (∀ n, s.ctlRuns n = true → exec (.hankWatchdogExpire n) s = .next ((s.setInt (pg cHNK n) 2).ctlFail n).kick ∧
    exec (.hankSignatureTest n false) s = .next (s.ctlFail n).kick ∧ exec (.hankSignatureTest n true) s = .next s) ∧
  (∀ n, NMap.find? s.saf.ctlReset n = none → ∃ v : State, s.ctlFail n = v.ctlRetry n ∧
    v = s.report true (s.ev .corrected evWATCHDOG scCONTROLLER (pg cHNK n) (s.ownerPart (pg cHNK n)) 0 0)) ∧
  (∀ n t, NMap.find? s.saf.ctlReset n = some t → s.clock - t < tickSec → ∃ v : State, s.ctlFail n = v.faultUnit (.hank n) scCONTROLLER ∧
    NMap.find? v.saf.ctlReset n = none) ∧
  (∃ u : State, exec (.lockstepMismatch .dispatcher) s = .next u ∧ u.flag pSAF PgSAF.STATUS_FATAL_ACTIVE = true ∧ u.flag pSAF PgSAF.STATUS_FAULT_N = true ∧
    u.saf.stopped = true ∧ u.mem = s.mem ∧ u.dsp = s.dsp) ∧
  (s.saf.mgmtHeld = false → s.saf.mgmtMismatch = none → ∃ u : State, exec (.lockstepMismatch .management) s = .next u ∧ u.saf.mgmtMismatch = some s.clock ∧
    u.saf.mgmtHeld = false ∧ u.mem = s.mem) ∧
  (∀ t, s.saf.mgmtHeld = false → s.saf.mgmtMismatch = some t → s.clock - t < tickSec → ∃ u : State, exec (.lockstepMismatch .management) s = .next u ∧
    u.saf.mgmtHeld = true ∧ u.flag pSAF PgSAF.STATUS_FATAL_ACTIVE = true) ∧
  (s.boot.pwrGood = true → ∀ k t, k < 32 → (∃ u : State, exec (.thermalSample k t) s = .next u ∧ NMap.find? u.saf.temps k = some t ∧
      (∀ j, j ≠ k → NMap.find? u.saf.temps j = NMap.find? s.saf.temps j) ∧ u.mem = s.mem ∧ u.dsp = s.dsp) ∧
    (115 ≤ t → NMap.find? s.saf.temps k = none → ∃ u : State, exec (.thermalSample k t) s = .next u ∧ u.flag pSAF PgSAF.STATUS_FATAL_ACTIVE = true ∧
      evTHERMAL ∈ u.saf.fatal)) ∧
  (s.boot.pwrGood = true → ∀ mv us, (∃ u : State, exec (.voltageExcursion mv us) s = .next u ∧ u.mem = s.mem ∧ u.dsp = s.dsp ∧
      u.fld pSAF PgSAF.MON_STATUS_VDD_CORE_MV = min 0xFFFF mv % 2 ^ (PgSAF.MON_STATUS_VDD_CORE_MV.hi + 1 - PgSAF.MON_STATUS_VDD_CORE_MV.lo)) ∧
    ((mv < 600 ∨ (900 < mv ∧ 10 < us)) → ∃ u : State, exec (.voltageExcursion mv us) s = .next u ∧ evVOLTAGE ∈ u.saf.fatal))

/-- R623, R626, R628, R629.
Model's choices in it: log entries 30, 117, 120, 198, 246. -/
def Obligations.FaultReporting : Prop := ∀ (s : State),
  (∀ e : EvRec, s.saf.evq.length < 256 → (s.evqPut e).saf.evq = s.saf.evq ++ [⟨s.saf.evqSeq, s.saf.evqLost, e⟩] ∧
    (s.evqPut e).saf.evqSeq = (s.saf.evqSeq + 1) % 2 ^ 32 ∧ (s.evqPut e).saf.evqLost = false ∧ natBit ((s.evqPut e).word pMGT 0x30).toNat 1 = true) ∧
  (∀ e : EvRec, 256 ≤ s.saf.evq.length → (s.evqPut e).saf.evq = s.saf.evq ∧ (s.evqPut e).saf.evqLost = true) ∧
  (∀ r, r < 17 →
    (∀ e, s.flag pSAF (PgSAF.RING_CFG_EN r) = true → s.ringPut r e = { s with saf := { s.saf with ringQ := s.saf.ringQ ++ [(r, e)] } }) ∧
    (∀ e, s.ringNext r = some e → s.flag pSAF (PgSAF.RING_CFG_EN r) = true → s.xwaits.any (fun w => w.use_ = .ring r) = false → s.ringFull r = true →
      s.ringGo r 1 = s.ringLose r ∧ r ∈ (s.ringLose r).saf.ringLost ∧ (s.ringLose r).fld pSAF (PgSAF.RING_HEAD_HEAD r) = s.fld pSAF (PgSAF.RING_HEAD_HEAD r) ∧
      natBit ((s.ringLose r).word pSAF 0x30).toNat 5 = true)) ∧
  (∀ r, s.opens r cMGT 0 = true → ∃ u : State, exec (.evqPop r) s = .next u ∧ u.saf = { s.saf with evq := s.saf.evq.drop 1 } ∧
    natBit (u.word pMGT 0x30).toNat 1 = decide (1 < s.saf.evq.length) ∧ u.mem = s.mem ∧ u.dsp = s.dsp) ∧
  (∀ r, s.opens r cSAF 0 = true → (s.flag pSAF PgSAF.STATUS_FATAL_ACTIVE = true → exec (.faultRelease r) s = .next ((s.arrived r).order pSAF r 0x118)) ∧
    (s.flag pSAF PgSAF.STATUS_FATAL_ACTIVE = false → s.flag pSAF PgSAF.STATUS_FAULT_N = true → ∃ u : State, exec (.faultRelease r) s = .next u ∧
      u.flag pSAF PgSAF.STATUS_FAULT_N = false ∧ u.out = (s.arrived r).out ++ [.faultN false] ∧ u = { s.arrived r with regs := u.regs, out := u.out })) ∧
  (∀ r ring data, ring < 17 → s.opens r cSAF 0 = true → let v := s.mergeReg pSAF (0x208 + 0x20 * ring) (data % 2 ^ 64)
    (s.flag pSAF (PgSAF.RING_CFG_EN ring) = true → natBit v 63 = true →
      exec (.ringEnable r ring 8 false data) s = .next ((s.arrived r).order pSAF r (0x208 + 0x20 * ring))) ∧
    (s.flag pSAF (PgSAF.RING_CFG_EN ring) = false → natBit v 63 = true → 6 ≤ natBits v 55 51 → natBits v 55 51 ≤ 16 → s.ringCtx ring (natBits v 19 0) = true →
      ∃ u : State, exec (.ringEnable r ring 8 false data) s = .next u ∧ u.flag pSAF (PgSAF.RING_CFG_EN ring) = true ∧
      u.fld pSAF (PgSAF.RING_HEAD_HEAD ring) = 0 ∧ u.fld pSAF (PgSAF.RING_TAIL_TAIL ring) = 0 ∧ (s.arrived r).onlyRegs u))

/-- R631, R633, R634; R228 of 07_skein_memory.md.
Model's choices in it: log entries 22, 121, 122, 123, 125. -/
def Obligations.InServiceTests : Prop := ∀ (s : State) (r : Requester), s.opens r cTST 0 = true →
  let a := s.arrived r
  (s.flag pTST PgTST.CMD_BUSY = true → ∀ n, exec (.tstStartHank r n) s = .next (a.order pTST r 0x100).kick ∧
    exec (.tstStartSlice r n) s = .next (a.order pTST r 0x100) ∧ exec (.tstStartLatent r []) s = .next (a.order pTST r 0x100).kick) ∧
  (s.flag pTST PgTST.CMD_BUSY = false → ∀ n,
    (400 ≤ n → ∃ v : State, exec (.tstStartHank r n) s = .next v.kick ∧ v.fld pTST PgTST.CMD_RESULT = 3 ∧ v.saf = s.saf ∧ a.onlyRegs v) ∧
    (n < 400 → s.pageAbsent (pg cHNK n) = false → (s.pageState (pg cHNK n) = stIDLE ∨ s.pageState (pg cHNK n) = stFENCED ∨ s.pageState (pg cHNK n) = stFAULTED) →
      exec (.tstStartHank r n) s = .next ((((((a.setFld pTST PgTST.CMD_KIND 0).setFld pTST PgTST.CMD_INSTANCE n).tstRun 0 n).removeUnit (.hank n) .inTest
        scNONE).hankReset n { inTest := true })).kick) ∧
    (n < 400 → s.pageAbsent (pg cSKN n) = false → s.pageState (pg cSKN n) ≠ stOFF → s.pageState (pg cSKN n) ≠ stRESET →
      s.flag (pg cSKN n) PgSKN.STATUS_TEST_BUSY = false → s.flag (pg cSKN n) PgHDR.PAGE_STATE_COMMIT_BUSY = false → (∀ w, w < 16 → s.wayUse n w = 0) → ∃ u : State, exec (.tstStartSlice r n) s = .next u ∧
      u.flag pTST PgTST.CMD_BUSY = true ∧ u.flag (pg cSKN n) PgSKN.STATUS_TEST_BUSY = true ∧ u.saf = { s.saf with tst := some ⟨1, n⟩ } ∧
      u = { a with regs := u.regs, saf := u.saf }) ∧
    (∃ v : State, exec (.tstStartLatent r []) s = .next v.kick ∧ v.flag pTST PgTST.CMD_BUSY = false ∧ v.fld pTST PgTST.CMD_RESULT = 0 ∧
      v.mem = s.mem ∧ v.plan = s.plan)) ∧
  (∀ t, s.saf.tst = some t → t.kind = 1 → s.live (.slice t.inst) = false → ∃ v : State, exec (.tstAbort r) s = .next v.kick ∧ v.saf.tst = none ∧
    v.flag pTST PgTST.CMD_BUSY = false ∧ v.fld pTST PgTST.CMD_RESULT = 4) ∧
  (s.saf.tst = none → exec (.tstAbort r) s = .next a.kick) ∧
  (∀ d, exec (.latentTest d true false) s = .next s ∧ exec (.latentTest d false true) s = .next s ∧
    (s.hasDetector d = true → exec (.latentTest d false false) s = .next (s.latentFail d).kick))

/-- R197, R205 to R210, R213, R214, R230.
Model's choices in it: log entries 3. -/
def Obligations.ScratchpadAccesses : Prop := ∀ (s : State) (a : Access),
  let good : SliceErr := {}
  let off := addrOff a.addr
  (accWf a = true → ∀ n w word,
    (s.scratchNow a false n w word → exec (.homeAccess a .read good) s =
      .next (s.respond a 0 (((s.bankLine n w word).1.drop off).take a.len) ((s.bankLine n w word).2 &&& secsOf off a.len)).kick) ∧
    (∀ d, s.scratchNow a true n w word → a.len ≤ d.length → (s.bankLine n w word).2 = 0 →
      s.aperture n a.part (match a.addr with | .t0 x => (x % 0x40000) / 64 | _ => 0) = none → ∃ v : State,
      exec (.homeAccess a (.write d 0) good) s = .next (v.respond a 0 [] 0).kick ∧ v.bankLine n w word = (patch (s.bankLine n w word).1 off (d.take a.len), 0) ∧
      s.onlyBankLine v n w word ∧ v = { s with mem := { s.mem with banks := v.mem.banks, bankPois := v.mem.bankPois } }) ∧
    (s.scratchNow a false n w word → a.len ≤ 32 → off % 32 + a.len ≤ 32 → ∃ v : State, exec (.sectorRead a good) s =
      .next (v.respond a 0 (((s.bankLine n w word).1.drop off).take a.len) ((s.bankLine n w word).2 &&& secsOf off a.len)).kick ∧ s.onlyRegs v) ∧
    (∀ d, s.scratchNow a true n w word → a.len ≤ 32 → off % 32 + a.len ≤ 32 → a.len ≤ d.length → (s.bankLine n w word).2 = 0 →
      s.aperture n a.part (match a.addr with | .t0 x => (x % 0x40000) / 64 | _ => 0) = none → ∃ v : State,
      exec (.sectorWrite a d 0 good) s = .next (v.respond a 0 [] 0).kick ∧ v.bankLine n w word = (patch (s.bankLine n w word).1 off (d.take a.len), 0) ∧
      s.onlyBankLine v n w word ∧ v = { s with regs := v.regs, mem := { s.mem with banks := v.mem.banks, bankPois := v.mem.bankPois } })) ∧
  (accWf a = true → ∀ op, (op = .read ∨ ∃ d p, op = .write d p) →
    (s.locate a (opWrites op) = .refuse → exec (.homeAccess a op good) s = .next (s.respond a tsACCESS [] 0).kick) ∧
    (∀ n p, s.locate a (opWrites op) = .lost n p → exec (.homeAccess a op good) s = .next (s.respond a tsSLICE_LOST [] 0).kick) ∧
    (∀ n line part unc tier, s.locate a (opWrites op) = .home n line part unc tier → s.sliceHolds n = false → s.commitHolds n part = false →
      ∃ v : State, exec (.homeAccess a op good) s = .next (v.settle n).kick ∧ v.mem.waitQ = s.mem.waitQ ++ [(n, line, part, unc, { acc := a, op := op, tier := tier })] ∧
      v.mem.txns = s.mem.txns ∧ v.mem.banks = s.mem.banks ∧ v.mem.hbm = s.mem.hbm)) ∧
  (∀ ty fetch operand, ∀ x ∈ ([(.atomicAdd a ty fetch operand good, 0), (.atomicFadd a ty fetch operand good, 1), (.atomicMin a ty fetch operand good, 2),
      (.atomicMax a ty fetch operand good, 3), (.atomicSwap a ty fetch operand good, 4), (.atomicCas a ty fetch operand good, 5),
      (.atomicXadd a ty fetch operand good, 6)] : List (Instr × Nat)), let b := { a with len := max 1 (atomLen x.2 operand) }
    (atomOk x.2 ty fetch off operand = false → exec x.1 s = .next (s.respond b tsACCESS [] 0).kick) ∧
    (∀ n w word, atomOk x.2 ty fetch off operand = true → s.scratchNow b true n w word → (s.bankLine n w word).2 = 0 →
      let old := ((s.bankLine n w word).1.drop off).take (atomLen x.2 operand)
      ∃ v : State, exec x.1 s = .next (v.respond b 0 (if fetch then old else []) 0).kick ∧
        v.bankLine n w word = (patch (s.bankLine n w word).1 off (atomNew x.2 ty operand old), 0) ∧ s.onlyBankLine v n w word ∧
        v = { s with regs := v.regs, host := v.host, out := v.out, mem := { s.mem with banks := v.mem.banks, bankPois := v.mem.bankPois } }))

/-- R202, R215 to R218, R225, R228.
Model's choices in it: log entries 204, 205, 225, 239. -/
def Obligations.GatherAndSlices : Prop := ∀ (s : State),
  (∀ r n slot data, slot < 4 → s.opens r cSKN n = true →
    let part := natBits data 55 52
    let desc := natBits data 63 63 * 2 ^ 63 + natBits data 47 0
    let old := (s.gatherSt n slot).next
    (natBits desc 5 0 ≠ 0 ∨ s.regInside part desc 64 = false ∨ s.regWindow part desc = none → ∃ u : State, exec (.gatherEnable r n slot data) s = .next u.kick ∧
      (u.gatherSt n slot).faulted = true ∧ (u.gatherSt n slot).loading = false ∧ (u.gatherSt n slot).desc = none ∧
      natBit (u.word (pg cSKN n) 0x30).toNat 3 = true ∧ u.flag (pg cSKN n) (PgSKN.GATHER_ENABLE slot) = true ∧
      u = { s.arrived r with regs := u.regs, host := u.host, out := u.out, mem := { s.mem with gather := u.mem.gather } }) ∧
    (∀ x, natBits desc 5 0 = 0 → s.regInside part desc 64 = true → s.regWindow part desc = some x → ∃ u : State,
      exec (.gatherEnable r n slot data) s =
        .next (u.serveParts (.gatherDesc n slot old) n part 1 0 .plain 5 [{ addr := x, len := 64, op := .read }]).kick ∧
      (u.gatherSt n slot).loading = true ∧ (u.gatherSt n slot).faulted = false ∧ (u.gatherSt n slot).desc = none ∧
      u.flag (pg cSKN n) (PgSKN.GATHER_ENABLE slot) = true ∧ u.fld (pg cSKN n) (PgSKN.GATHER_PART slot) = part ∧
      u = { s.arrived r with regs := u.regs, mem := { s.mem with gather := u.mem.gather } })) ∧
  (∀ n slot, slot < 4 →
    ((s.gatherSt n slot).loads.find? (fun l => l.raw.isSome) = none → exec (.gatherDescLoaded n slot) s = .next s.kick) ∧
    (∀ l st b pois, (s.gatherSt n slot).loads.find? (fun l => l.raw.isSome) = some l → l.raw = some (st, b, pois) → l.current = true →
      (st ≠ 0 ∨ pois ≠ 0 ∨ gatherOk b = false → exec (.gatherDescLoaded n slot) s = .next (s.gatherFault n slot).kick) ∧
      (st = 0 → pois = 0 → gatherOk b = true → ∃ u : State,
        exec (.gatherDescLoaded n slot) s = .next (l.held.foldl (fun w h => w.gatherTake n slot l.part (gatherDecode b) h.1 h.2) u).kick ∧
        (u.gatherSt n slot).desc = some (gatherDecode b) ∧ (u.gatherSt n slot).loads = (s.gatherSt n slot).loads.filter (fun k => k.id ≠ l.id) ∧
        u = { s with mem := { s.mem with gather := u.mem.gather } }))) ∧
  (∀ (a : Access) n slot x, 0 < a.len → a.len ≤ 256 → s.locate a false = .window n slot x →
    (s.sliceHolds n = true → exec (.gatherWindowRead a) s = .next (s.hold n { acc := a, op := .read }).kick) ∧
    (s.sliceHolds n = false →
      ((s.gatherSt n slot).faulted = true ∨ s.flag (pg cSKN n) (PgSKN.GATHER_ENABLE slot) = false ∨ s.fld (pg cSKN n) (PgSKN.GATHER_PART slot) ≠ a.part →
        exec (.gatherWindowRead a) s = .next (s.respond a tsACCESS [] 0).kick) ∧
      ((s.gatherSt n slot).faulted = false → s.flag (pg cSKN n) (PgSKN.GATHER_ENABLE slot) = true → s.fld (pg cSKN n) (PgSKN.GATHER_PART slot) = a.part →
        ((s.gatherSt n slot).desc = none → (s.gatherSt n slot).loading = true → ∃ u : State, exec (.gatherWindowRead a) s = .next (u.workStart (pg cSKN n)).kick ∧
          (u.gatherSt n slot).loads = (s.gatherSt n slot).loads.map (fun l => if l.current then { l with held := l.held ++ [(a, x)] } else l) ∧
          u = { s with mem := { s.mem with gather := u.mem.gather } }) ∧
        (∀ d, (s.gatherSt n slot).desc = some d →
          (a.len % 32 ≠ 0 ∨ x % 32 ≠ 0 ∨ x / d.rowBytes ≠ (x + a.len - 1) / d.rowBytes →
            exec (.gatherWindowRead a) s = .next ((s.respond a tsACCESS [] 0).workStart (pg cSKN n)).kick) ∧
          (a.len % 32 = 0 → x % 32 = 0 → x / d.rowBytes = (x + a.len - 1) / d.rowBytes →
            (d.count * d.rowBytes ≤ x → exec (.gatherWindowRead a) s =
              .next ((s.respond a 0 (List.replicate a.len 0) 0).workStart (pg cSKN n)).kick) ∧
            (x < d.count * d.rowBytes → ∃ u : State, exec (.gatherWindowRead a) s = .next (u.workStart (pg cSKN n)).kick ∧
              (u.gatherSt n slot).open_ = (s.gatherSt n slot).open_ ++ [{ id := (s.gatherSt n slot).next, acc := a, off := x, part := a.part, desc := d }] ∧
              u = { s with mem := { s.mem with gather := u.mem.gather } })))))) ∧
  (∀ n slot (o : GatherRead) i, o.status = 0 → o.idx = some i →
    (o.desc.tableRows ≤ i → ∃ v : State, s.gatherEnd n slot o = some ((v.count (pg cSKN n) PgSKN.PERF_HOLD_GATHER_OOB 1).respond o.acc 0
      (List.replicate o.acc.len 0) 0) ∧ v = { s with mem := { s.mem with gather := v.mem.gather } }) ∧
    (i < o.desc.tableRows → o.got.length = o.acc.len / 32 → ∃ v : State, s.gatherEnd n slot o = some (v.respond o.acc 0
      ((o.got.map (fun e => e.2.1)).flatten) (o.got.foldl (fun m e => if e.2.2 ≠ 0 then withBit m e.1 else m) 0)) ∧
      v = { s with mem := { s.mem with gather := v.mem.gather } })) ∧
  (∀ n slot id k st b pois rest, slot < 4 → (s.gatherSt n slot).arrived = (id, k, st, b, pois) :: rest → ∃ u : State,
    exec (.gatherRowReturn n slot) s = .next u.kick ∧ (u.gatherSt n slot).arrived = rest ∧
    (∀ o ∈ (s.gatherSt n slot).open_, o.id ≠ id → o ∈ (u.gatherSt n slot).open_) ∧
    (∀ o ∈ (s.gatherSt n slot).open_, o.id = id → o.status = 0 → st = 0 →
      (k = none → pois = 0 → { o with idx := some (leNat b) } ∈ (u.gatherSt n slot).open_) ∧
      (∀ j, k = some j → { o with got := NMap.insert o.got j (b, pois) } ∈ (u.gatherSt n slot).open_)) ∧
    u = { s with mem := { s.mem with gather := u.mem.gather } }) ∧
  (∀ n, s.flag (pg cSKN n) PgSKN.STATUS_WIPE_BUSY = true → ∃ v : State, exec (.wipeDone n) s = .next (v.releaseHeld n) ∧
    v.flag (pg cSKN n) PgSKN.STATUS_WIPE_BUSY = false ∧ v.mem = s.mem) ∧
  (∀ n, s.flag (pg cSKN n) PgSKN.STATUS_WIPE_BUSY = false → exec (.wipeDone n) s = .next s) ∧
  (∀ n, s.flag (pg cSKN n) PgSKN.STATUS_TEST_BUSY = true → s.saf.tst = none →
    ((s.unit (.slice n)).live ≠ .faulted → ∃ u : State, exec (.sliceBankTestDone n 0) s = .next u ∧ u.flag (pg cSKN n) PgSKN.STATUS_TEST_BUSY = false ∧
      u.fld (pg cSKN n) PgSKN.STATUS_BANK_FAIL = 0 ∧ NMap.getD u.plan.banks 0xFFFF n = 0xFFFF ∧ u.mem = s.mem) ∧
    (∀ bad, bad % 2 ^ 16 ≠ 0 → (s.bankTestDone n bad).saf.tst ≠ some ⟨1, n⟩ → exec (.sliceBankTestDone n bad) s = .next (s.bankTestDone n bad))) ∧
  (∀ k t, s.txn? k = some t → exec (.skeinMissFill k) s = .next (s.missFill t).kick ∧
    (t.phase ≠ .fill → exec (.skeinMissFill k) s = .next s.kick))

/-- R238, R240 to R243; R273, R294 of 09_memory_integrity.md; R342 of 11_mesh_and_regulation.md. R291, R294.
Model's choices in it: log entries 171, 196, 223, 224. -/
def Obligations.HbmRequestsAndCare : Prop :=
  (∀ (s : State),
  (∀ q r, s.req? q = some r → exec (.hbmRequestAdmit q) s = .next (s.admitReq r) ∧
    (r.place = .waiting → s.olderWaits r = false → r.wr ≠ none → r.narrow = false → r.part < 16 →
      (s.wbufOcc r.ch < 64 → s.wbufPart r.ch r.part < s.fld (pg cTOL (496 + r.part)) PgTSH.HBM_SHARE_WRBUF_CAP →
        ∃ u : State, exec (.hbmRequestAdmit q) s = .next u ∧ u.mem = { s.mem with reqs := s.mem.reqs.map (fun y => if y.id = r.id then { r with place := .wbuf } else y) } ∧
        u = { s with mem := u.mem }) ∧
      (64 ≤ s.wbufOcc r.ch → ∃ u : State, exec (.hbmRequestAdmit q) s = .next u ∧ u.out = s.out ++ [.shareReturn r.ch r.id] ∧ u.mem = s.mem ∧
        u = { s with regs := u.regs, out := u.out }))) ∧
  (∀ ch r, s.mem.reqs.find? (fun r => r.ch = ch && r.place = .waiting) = some r → exec (.shareSlotFreed ch) s = .next (s.admitReq r)) ∧
  (∀ ch pc ready err, pc < 2 → (s.chLive ch = false → exec (.hbmCommandSlot ch pc ready err) s = .next s) ∧
    (s.flag (pg cHCH ch) PgHCH.CTRL_RETRAIN = true → exec (.hbmCommandSlot ch pc ready err) s = .next s) ∧
    exec (.hbmCommandSlot ch pc ready err) s = .next (s.commandSlot ch pc ready err)) ∧
  (∀ q r, s.req? q = some r → r.place = .issued → r.wr = none →
    exec (.hbmReadReturn q [] []) s = .next (s.deliverReq r) ∧
    (∀ e sym, natBit r.secs 0 = true → e ≠ [] → (decodeSector e).1 = .corrected sym → exec (.hbmReadReturn q e []) s =
      .next ((s.sectorCE r.ch (2 * r.line) sym (s.reqSource r)).deliverReq (s.takeSector { r with failed := 0 } 0 (decodeSector e).2))) ∧
    (∀ e, r.secs = 3 → e ≠ [] → (decodeSector e).1 = .bad → ∃ u : State, exec (.hbmReadReturn q e []) s = .next u ∧ u.mem = { s.mem with reqs := s.mem.reqs.map (fun y => if y.id = r.id then
      { r with place := .reread, failed := 1 } else y) } ∧ u = { s with mem := u.mem })) ∧
  (∀ q r, s.req? q = some r → r.place = .reread → ∀ e0 e1, exec (.hbmRereadResult q e0 e1) s = .next (s.rereadResult r e0 e1)) ∧
  (∀ q r, s.req? q = some r → r.place = .repair → ∀ e0 e1, exec (.replicaRepair q e0 e1) s = .next (s.replicaRepair r e0 e1)) ∧
  (∀ q r, s.req? q = some r → r.place = .waiting → ∀ e0 e1, exec (.hbmReadReturn q e0 e1) s = .next s ∧ exec (.hbmRereadResult q e0 e1) s = .next s ∧
    exec (.replicaRepair q e0 e1) s = .next s) ∧
  (∀ ch, s.chLive ch = true → s.flag (pg cHCH ch) PgHCH.CTRL_RETRAIN = false →
    (∃ u : State, exec (.hbmCalibration ch true) s = .next u ∧ u.mem = { s.mem with calFail := s.mem.calFail.filter (fun c => c ≠ ch) } ∧ u = { s with mem := u.mem }) ∧
    (s.mem.calFail.contains ch = false → ∃ u : State, exec (.hbmCalibration ch false) s = .next u ∧
      u.mem = { s.mem with calFail := s.mem.calFail.filter (fun c => c ≠ ch) ++ [ch] } ∧ u = { s with mem := u.mem }) ∧
    (s.mem.calFail.contains ch = true → ∃ v : State, exec (.hbmCalibration ch false) s = .next v ∧ v.flag (pg cHCH ch) PgHCH.CTRL_RETRAIN = true)) ∧
  (∀ r ch, s.opens r cHCH ch = true → ∃ u : State, exec (.hchRetrain r ch) s = .next u ∧ u.flag (pg cHCH ch) PgHCH.CTRL_RETRAIN = true ∧ (s.arrived r).onlyRegs u) ∧
  (∀ ch ok, s.flag (pg cHCH ch) PgHCH.CTRL_RETRAIN = true → exec (.hchRetrainDone ch ok) s = .next (s.retrainDone ch ok) ∧
    (ok = false → s.mem.retrainFail.contains ch = false → ∃ u : State, exec (.hchRetrainDone ch ok) s = .next u ∧ u.flag (pg cHCH ch) PgHCH.CTRL_RETRAIN = true ∧
      u.mem = { s.mem with retrainFail := s.mem.retrainFail.filter (fun c => c ≠ ch) ++ [ch] } ∧ u = { s with mem := u.mem })) ∧
  (∀ ch rfm, s.chLive ch = true → ∃ u : State, exec (.hbmRefresh ch rfm) s = .next u ∧ u = { s with mem := { s.mem with openRow := u.mem.openRow } } ∧
    (∀ k, ch * 128 ≤ k → k < ch * 128 + 128 → NMap.find? u.mem.openRow k = none) ∧
    (∀ k, (k < ch * 128 ∨ ch * 128 + 128 ≤ k) → NMap.find? u.mem.openRow k = NMap.find? s.mem.openRow k)) ∧
  (∀ a temp, a < 8 → temp < 128 → s.live (.hbmAtt a) = true → ∃ u : State, exec (.hbmTempRead a temp) s = .next u ∧ u.fld (pg cHBM a) PgHBM.THERM_TEMP_C = temp ∧
    u.flag (pg cHBM a) PgHBM.STATUS_REFRESH_2X = decide (85 < temp) ∧ s.onlyIrq u ∧
    (s.fld (pg cHBM a) PgHBM.THERM_TEMP_C ≤ s.fld (pg cHBM a) PgHBM.THERM_HOT_C → s.fld (pg cHBM a) PgHBM.THERM_HOT_C < temp →
      natBit (u.word (pg cHBM a) 0x30).toNat 0 = true))) ∧
  (∀ (s : State) (a : Nat), a < 8 → s.live (.hbmAtt a) = true →
  (s.accepts (pg cSCR a) = false → exec (.zeroFillGranule a) s = .next s ∧ ∀ e0 e1, exec (.scrubVisit a e0 e1) s = .next s) ∧
  (s.accepts (pg cSCR a) = true →
  (s.fld (pg cSCR a) PgSCR.CFG_ZERO_GBPS = 0 → exec (.zeroFillGranule a) s = .next s) ∧
  (∀ g, s.fld (pg cSCR a) PgSCR.CFG_ZERO_GBPS ≠ 0 → s.nextZero a (s.attGranules a) 0 = some g → ∃ u : State, exec (.zeroFillGranule a) s = .next u ∧
    (∀ sec, sec / 65536 = g → u.hbmSector sec = (List.replicate 32 0, false)) ∧ (∀ sec, sec / 65536 ≠ g → u.hbmSector sec = s.hbmSector sec) ∧
    gZeroing (u.granule g) = false ∧ (∀ h, h ≠ g → u.granule h = s.granule h) ∧ u.dsp = s.dsp ∧ u.plan = s.plan) ∧
  (∀ e0 e1, s.fld (pg cSCR a) PgSCR.CFG_RATE_MIBPS = 0 → exec (.scrubVisit a e0 e1) s = .next s) ∧
  (∀ g e0 e1, s.fld (pg cSCR a) PgSCR.CFG_RATE_MIBPS ≠ 0 → s.granuleOf a (s.fld (pg cSCR a) PgSCR.STATUS_POS) = some g → e0.first = [] → e1.first = [] →
    s.flag (pg cHCH (match s.hbmPlace ((g * 65536 + 2 * (NMap.getD s.mem.scrub {} a).line) * 32) with | some (c, _) => c | none => 0)) PgHCH.CTRL_RETRAIN = false →
    ∃ u : State, exec (.scrubVisit a e0 e1) s = .next u ∧ u.mem.hbm = s.mem.hbm ∧ u.mem.granules = s.mem.granules ∧
    (NMap.getD u.mem.scrub {} a).line = (if (NMap.getD s.mem.scrub {} a).line = 32767 then 0 else (NMap.getD s.mem.scrub {} a).line + 1))))

/-- R247 to R249, R252, R257.
Model's choices in it: log entries 143, 170, 172, 173, 174. -/
def Obligations.GranuleCommands : Prop := ∀ (s : State) (r : Requester) (p first count peer : Nat), s.opens r cTIR p = true →
  let a := s.arrived r
  let v := s.gcmdArgs r p first count peer
  let t := pg cTIR p
  (s.flag t PgTIR.GCMD_BUSY = true → ∀ c ∈ [Instr.alloc r p first count peer, .free r p first count peer, .setGroup r p first count peer,
      .share r p first count peer, .unshare r p first count peer, .setReplica r p first count peer, .clearReplica r p first count peer,
      .attachPool r p first count peer, .detachPool r p first count peer, .granuleQuery r p first count peer],
    exec c s = .next (a.order t r 0x100)) ∧
  (s.flag t PgTIR.GCMD_BUSY = false →
    (s.badRange first count = true → ∀ c ∈ [Instr.alloc r p first count peer, .free r p first count peer, .setGroup r p first count peer,
      .share r p first count peer, .unshare r p first count peer, .setReplica r p first count peer, .clearReplica r p first count peer,
      .attachPool r p first count peer, .detachPool r p first count peer, .granuleQuery r p first count peer],
      ∃ u : State, exec c s = .next u ∧ u.gcmdEnded p 1 ∧ a.onlyIrq u) ∧
    (s.badRange first count = false →
      ((∀ g ∈ granRun first count, gValid (s.granule g) = false ∧ gZeroing (s.granule g) = false) →
        s.t2Used p + count ≤ s.fld (pg cPRT p) PgPRT.TIER_QUOTA_T2_LIMIT → ∃ u : State, exec (.alloc r p first count peer) s = .next u ∧ u.gcmdEnded p 0 ∧
        (∀ g ∈ granRun first count, u.granule g = 2 ^ 31 + p * 2 ^ 27 + s.garg t % 4 * 2 ^ 25) ∧ s.granulesBut u first count ∧
        u = { a with regs := u.regs, host := u.host, out := u.out, mem := { s.mem with granules := u.mem.granules } }) ∧
      (∀ g ∈ granRun first count, gValid (s.granule g) = true → ∃ u : State, exec (.alloc r p first count peer) s = .next u ∧ u.gcmdEnded p 2 ∧ a.onlyIrq u) ∧
      (s.notOwner p first count = false →
        (peer < 16 → ∃ u : State, exec (.unshare r p first count peer) s = .next u ∧ u.gcmdEnded p 0 ∧ s.granulesBut u first count ∧
          (∀ g ∈ granRun first count, u.granule g = natSetBits (s.granule g) (48 + peer) (48 + peer) 0)) ∧
        (peer < 16 → peer ≠ p → ∃ u : State, exec (.share r p first count peer) s = .next u ∧ u.gcmdEnded p 0 ∧ s.granulesBut u first count ∧
          (∀ g ∈ granRun first count, u.granule g = natSetBits (s.granule g) (48 + peer) (48 + peer) 1)) ∧
        (s.rangeOn p (s.garg t % 8) = false → (∀ g ∈ granRun first count, gRepl (s.granule g) = 0 ∧ gPool (s.granule g) = false) →
          ∃ u : State, exec (.attachPool r p first count peer) s = .next u ∧ u.gcmdEnded p 0 ∧ s.granulesBut u first count ∧
          (∀ g ∈ granRun first count, gPool (u.granule g) = true ∧ gLink (u.granule g) = s.garg t % 8)) ∧
        ((∀ g ∈ granRun first count, gPool (s.granule g) = true ∧ s.rangeOn p (gLink (s.granule g) % 8) = false) →
          ∃ u : State, exec (.detachPool r p first count peer) s = .next u ∧ u.gcmdEnded p 0 ∧ s.granulesBut u first count ∧
          (∀ g ∈ granRun first count, gPool (u.granule g) = false)) ∧
        (gRepl (s.granule first) = 1 → count = 1 → ∃ u : State, exec (.clearReplica r p first count peer) s = .next u ∧ u.gcmdEnded p 0 ∧
          gRepl (u.granule first) = 0 ∧ gRepl (u.granule (gLink (s.granule first))) = 0) ∧
        (gRepl (s.granule first) = 0 → gPool (s.granule first) = false → count = 1 → ∃ u : State, exec (.free r p first count peer) s = .next u ∧
          u.gcmdEnded p 0 ∧ gValid (u.granule first) = false ∧ gZeroing (u.granule first) = true ∧
          u.granule first = natSetBits (natSetBits (natSetBits (s.granule first) 31 31 0) 32 32 1) 63 48 0) ∧
        ((∀ g ∈ granRun first count, s.inMigration g = false) → ∃ w : State, w.mem.regroup = s.mem.regroup ++ [(p, first, count, s.garg t % 4)] ∧
          w.mem.granules = s.mem.granules ∧ w.flag t PgTIR.GCMD_BUSY = true ∧ exec (.setGroup r p first count peer) s = .next (w.settle 0)) ∧
        (let to_ := s.garg t % 2 ^ 18
         s.badRange to_ count = false → s.notOwner p to_ count = false → (first + count ≤ to_ ∨ to_ + count ≤ first) →
         (∀ i, i < count → gRepl (s.granule (first + i)) = 0 ∧ gPool (s.granule (first + i)) = false ∧ gRepl (s.granule (to_ + i)) = 0 ∧
            gPool (s.granule (to_ + i)) = false ∧ s.granuleAtt (first + i) ≠ s.granuleAtt (to_ + i)) →
         ∃ u : State, exec (.setReplica r p first count peer) s = .next u ∧ u.mem = { s.mem with copying := s.mem.copying ++ [(p, first, to_, count)] } ∧
           u.flag t PgTIR.GCMD_BUSY = true)) ∧
      (count = 1 → ∃ u : State, exec (.granuleQuery r p first count peer) s = .next u ∧ u.gcmdEnded p 0 ∧ u.word t 0x108 = BitVec.ofNat 64 (s.granule first) ∧
        a.onlyIrq u)) ∧
    exec (.freeAll r p first count peer) s = .next (((v.freeAll p).gcmdDone t 0).tirWork p)) ∧
  (s.flag t PgTIR.GCMD_BUSY = true → exec (.freeAll r p first count peer) s = .next ((a.order t r 0x100).tirWork p)) ∧
  (∀ g h k, s.mem.copying.find? (fun c => c.1 = p) = some (p, g, h, k) → k ≤ 1 → ∃ u : State, exec (.replicaCopyDone p) s = .next u ∧ u.gcmdEnded p 0 ∧
    u.mem.copying = s.mem.copying.filter (fun y => y ≠ (p, g, h, k)) ∧ gRepl (u.granule h) = 2 ∧ gLink (u.granule h) = g % 2 ^ 18)

/-- R253, R254, R257; R285 to R288 of 09_memory_integrity.md.
Model's choices in it: log entries 175, 176, 178. -/
def Obligations.TierMoves : Prop := ∀ (s : State),
  (∀ p range, p < 16 → range < 8 → s.rangeOn p range = true → exec (.tierEpoch p range) s = .next (s.tierEpoch p range)) ∧
  (∀ p r limit hyst count cs mv free warm, (planMoves p r limit hyst count cs mv free warm).length ≤ max mv.length limit) ∧
  (∀ p range index cells poison m, s.mem.migs.find? (fun m => m.is p range index) = some m →
    (s.migReady m = true → s.migBusy m = false → exec (.migrationDone p range index cells poison) s = .next (s.migDone m cells poison)) ∧
    (s.migReady m = false ∨ s.migBusy m = true → exec (.migrationDone p range index cells poison) s = .next s) ∧
    (∃ v : State, exec (.migrationFail p range index) s = .next (v.goMoves.tirWork p) ∧ v.mem = { s.mem with migs := s.mem.migs.filter (fun y => y ≠ m) } ∧
      v.fld (pg cTIR m.part) (PgTIR.TR_STAT_FAILS m.range) =
        min (2 ^ ((PgTIR.TR_STAT_FAILS m.range).hi + 1 - (PgTIR.TR_STAT_FAILS m.range).lo) - 1) (s.fld (pg cTIR m.part) (PgTIR.TR_STAT_FAILS m.range) + 1))) ∧
  (∀ t v, s.pick 9 (fun t => !s.mem.keyTasks.any (fun k => k.1 = t.part)) = some (t, v) →
    (s.flag pKEY (PgKEY.MEMKEY_PENDING t.part) = true → exec .keyAdvance s = .next ((v.dispatched t t.part).taskEnd t.id tsKEY_BUSY)) ∧
    (s.flag pKEY (PgKEY.MEMKEY_PENDING t.part) = false → s.flag pKEY (PgKEY.MEMKEY_EXHAUSTED t.part) = false → ∃ u : State, exec .keyAdvance s = .next u ∧
      u.mem.keyTasks = s.mem.keyTasks ++ [(t.part, t.id)] ∧ u.mem.hbm = s.mem.hbm ∧ u.mem.hbmMeta = s.mem.hbmMeta)) ∧
  (∀ p k, p < 16 → s.mem.keyTasks.find? (fun k => k.1 = p) = some k → ∃ v : State, exec (.keySwitchDone p) s = .next (v.taskEnd k.2 tsOK) ∧
    v.fld pKEY (PgKEY.MEMKEY_GEN p) = (s.fld pKEY (PgKEY.MEMKEY_GEN p) + 1) % 2 ^ 32 ∧ v.flag pKEY (PgKEY.MEMKEY_PENDING p) = true ∧
    v.mem.keyTasks = s.mem.keyTasks.erase k ∧ v.mem.hbm = s.mem.hbm ∧ v.dsp = s.dsp)

/-- R258 to R265.
Model's choices in it: log entries 177, 226, 240. -/
def Obligations.Itineraries : Prop := ∀ (s : State),
  (∀ t v k, s.pick 8 (fun _ => true) = some (t, v) → leNat (t.body.take 1) = k → v.itnPart k ≠ t.part →
    (leNat ((t.body.drop 1).take 1) = 0 → ∀ hdr, exec (.itinStart hdr) s = .next ((v.dispatched t k).taskEnd t.id tsACCESS)) ∧
    (leNat ((t.body.drop 1).take 1) = 1 → exec .itinAdvance s = .next ((v.dispatched t k).taskEnd t.id tsACCESS)) ∧
    (leNat ((t.body.drop 1).take 1) = 2 → exec .itinStop s = .next ((v.dispatched t k).taskEnd t.id tsACCESS))) ∧
  (∀ t v k, s.pick 8 (fun _ => true) = some (t, v) → leNat (t.body.take 1) = k → v.itnPart k = t.part →
    (leNat ((t.body.drop 1).take 1) = 0 → ∀ hdr, let w := v.dispatched t k
      exec (.itinStart hdr) s = .next ((w.itinStart k (leNat ((t.body.drop 4).take 4)) t.pasid t.part
        (w.readObj t.part (w.fld (pg cITN k) PgITN.DESC_DESC) 32 hdr)).taskEnd t.id tsOK)) ∧
    (leNat ((t.body.drop 1).take 1) = 1 → v.itnState k = inRUNNING → ∃ w : State, exec .itinAdvance s = .next (w.taskEnd t.id tsOK) ∧
      w.fld (pg cITN k) PgITN.STATE_MARK = min 4096 (max (s.fld (pg cITN k) PgITN.STATE_MARK) (leNat ((t.body.drop 4).take 4) + 1))) ∧
    (leNat ((t.body.drop 1).take 1) = 2 → v.itnState k = inRUNNING → ∃ w : State, exec .itinStop s = .next (w.taskEnd t.id tsOK) ∧
      w.itnState k = inSTOPPED ∧ (w.itnSlot k).next = none)) ∧
  (∀ k arg pasid part b, b.length = 32 → checkOk b = true → headerOk b arg = true → let u := s.itinStart k arg pasid part (some b)
    u.itnState k = inRUNNING ∧ u.fld (pg cITN k) PgITN.STATE_NEXT = arg ∧ u.fld (pg cITN k) PgITN.STATE_MARK = arg ∧
    u.fld (pg cITN k) PgITN.MS_BASE_MS_BASE = s.milestone ∧ (u.itnSlot k).part = part ∧ (u.itnSlot k).count = fieldAt b 2 2 ∧ (u.itnSlot k).next = none ∧
    u.mem = { s.mem with itn := u.mem.itn }) ∧
  (∀ k arg pasid part, let u := s.itinStart k arg pasid part none
    u.itnState k = inERROR ∧ u.fld (pg cITN k) PgITN.PERF_LAST_FAIL = tsXLATE_REFUSED) ∧
  (∀ k x st, k < 64 → s.itnState k = inRUNNING → (s.itnSlot k).next = none → let y := s.stageAt k x st
    (y.2 = 0 → y.1.checkOk = true → stageOk y.1 = true → ∃ u : State, exec (.stageRead k x st) s = .next u ∧ (u.itnSlot k).next = some y.1 ∧
      (∀ j, j ≠ k → u.itnSlot j = s.itnSlot j) ∧ u.itnState k = inRUNNING) ∧
    (y.2 = 0 → y.1.checkOk = false → exec (.stageRead k x st) s = .next ((s.itnError k tsTASK_CHECK).stageEvent (s.itnSlot k).part y.1.event true)) ∧
    (y.2 = 0 → y.1.checkOk = true → stageOk y.1 = false → exec (.stageRead k x st) s =
      .next ((s.itnError k tsTASK_FORMAT).stageEvent (s.itnSlot k).part y.1.event true)) ∧
    (y.2 ≠ 0 → exec (.stageRead k x st) s = .next (s.itnError k y.2))) ∧
  (∀ k x, k < 64 → s.itnState k = inRUNNING → (s.itnSlot k).next = some x →
    (s.triggered k x = false → exec (.stageIssue k) s = .next s) ∧
    (s.fld (pg cITN k) PgITN.CFG_MAX_INFLIGHT ≤ (s.itnSlot k).flight.length → exec (.stageIssue k) s = .next s) ∧
    (s.triggered k x = true → (s.itnSlot k).flight.length < s.fld (pg cITN k) PgITN.CFG_MAX_INFLIGHT → let u := s.stageIssue k x
      exec (.stageIssue k) s = .next u.kick ∧
      (x.target ≠ 2 → regionsOf x.src x.length + (if x.target = 1 then regionsOf x.dst x.length else 0) ≤ 64 →
        let i := s.fld (pg cITN k) PgITN.STATE_NEXT
        (u.itnSlot k).flight = (s.itnSlot k).flight ++ [(i, x)] ∧ (u.itnSlot k).next = none ∧
        (x.src / 2 ^ 62 ≠ 0 → (x.target = 1 → x.dst / 2 ^ 62 ≠ 0) →
          (i + 1 < (s.itnSlot k).count → i < 4095 → u.fld (pg cITN k) PgITN.STATE_NEXT = i + 1) ∧
          ((s.itnSlot k).count ≤ i + 1 → (s.itnSlot k).loop = true → u.fld (pg cITN k) PgITN.STATE_NEXT = 0) ∧
          ((s.itnSlot k).count ≤ i + 1 → (s.itnSlot k).loop = false → u.itnState k = inDONE) ∧
          ∃ c : CopyRun, u.dsp.copies = s.dsp.copies ++ [c] ∧ c.for_ = .stage k i ∧ c.src = x.src ∧ c.dst = x.dst ∧ c.rowBytes = x.length ∧
            c.rows = 1 ∧ c.tol = 478 ∧ c.client = 84 ∧ c.fill = decide (x.target = 0))))) ∧
  (∀ k i f status, k < 64 → (s.itnSlot k).flight.find? (fun f => f.1 = i) = some f →
    (f.2.target = 2 → (status ≠ 0 ∨ s.stageWaits (s.itnSlot k).part f.2 = false) →
      ∃ v : State, exec (.stageDone k i status) s = .next (v.stageEnd k f.2 status) ∧ (v.itnSlot k).flight = (s.itnSlot k).flight.erase f ∧
        v.mem = { s.mem with itn := v.mem.itn }) ∧
    (f.2.target ≠ 2 → ∀ c, s.dsp.copies.find? (fun c => c.for_ = .stage k i) = some c →
      (c.ended = false ∨ c.busy = true → exec (.stageDone k i status) s = .next s) ∧
      (c.ended = true → c.busy = false → ∃ v : State, exec (.stageDone k i status) s = .next (v.stageEnd k f.2 c.status) ∧
        (v.itnSlot k).flight = (s.itnSlot k).flight.erase f ∧ v.mem = { s.mem with itn := v.mem.itn })))

/-- R300, R301.
Model's choices in it: log entries 115. -/
def Obligations.Contexts : Prop := ∀ (s : State),
  (∀ (r : Requester) (slot : Nat), s.opens r cATU 0 = true →
    let k := slot % 4096
    let pasid := s.fld pATU PgATU.CTX_ARG1_PASID
    let part := s.fld pATU PgATU.CTX_ARG1_PART
    (s.flag pATU PgATU.CTX_CMD_BUSY = true → ∀ c ∈ [Instr.ctxBind r slot, .ctxUnbind r slot, .ctxQuery r slot, .ctxFind r slot],
      exec c s = .next ((s.arrived r).order pATU r 0x108)) ∧
    (s.flag pATU PgATU.CTX_CMD_BUSY = false →
      ((s.ctx k ≠ none ∨ s.ctxOf pasid ≠ none) → ∃ u : State, exec (.ctxBind r slot) s = .next u ∧ u.fld pATU PgATU.CTX_CMD_RESULT = 1 ∧ u.atu = s.atu) ∧
      (s.ctx k = none → s.ctxOf pasid = none → s.fld (pg cPRT part) PgPRT.ATU_QUOTA_CTX_LIMIT ≤ s.ctxCount part →
        ∃ u : State, exec (.ctxBind r slot) s = .next u ∧ u.fld pATU PgATU.CTX_CMD_RESULT = 3 ∧ u.atu = s.atu) ∧
      (s.ctx k = none → s.ctxOf pasid = none → s.ctxCount part < s.fld (pg cPRT part) PgPRT.ATU_QUOTA_CTX_LIMIT →
        s.flag pATU PgATU.CTX_ARG1_KIND = false → s.fld pATU PgATU.CTX_ARG0_ROOT = 0 → ∃ u : State, exec (.ctxBind r slot) s = .next u ∧
        u.fld pATU PgATU.CTX_CMD_RESULT = 0 ∧ u.ctx k = some ⟨pasid, part, false, s.flag pATU PgATU.CTX_ARG1_REPORT, 0⟩ ∧
        (∀ j, j ≠ k → u.ctx j = s.ctx j) ∧ u.mem = s.mem ∧ u.dsp = s.dsp) ∧
      (s.ctx k = none → ∃ u : State, exec (.ctxUnbind r slot) s = .next u ∧ u.fld pATU PgATU.CTX_CMD_RESULT = 2 ∧ u.atu = s.atu) ∧
      (∀ c, s.ctx k = some c → s.ctxInUse k c = true → ∃ u : State, exec (.ctxUnbind r slot) s = .next u ∧ u.fld pATU PgATU.CTX_CMD_RESULT = 5 ∧ u.atu = s.atu) ∧
      (∀ c, s.ctx k = some c → s.ctxInUse k c = false → ∃ u : State, exec (.ctxUnbind r slot) s = .next u ∧ u.flag pATU PgATU.CTX_CMD_BUSY = true ∧
        u.atu.draining = some k ∧ (∀ e ∈ u.atu.l2, ∀ t, e.2 = some t → t.slot ≠ k) ∧ u.atu.ctx = s.atu.ctx ∧ u.mem = s.mem) ∧
      (s.ctx k = none → ∃ u : State, exec (.ctxQuery r slot) s = .next u ∧ u.fld pATU PgATU.CTX_CMD_RESULT = 2 ∧ u.flag pATU PgATU.CTX_ARG1_VALID = false ∧ u.atu = s.atu) ∧
      (∀ c, s.ctx k = some c → ∃ u : State, exec (.ctxQuery r slot) s = .next u ∧ u.fld pATU PgATU.CTX_CMD_RESULT = 0 ∧
        u.flag pATU PgATU.CTX_ARG1_VALID = true ∧ u.flag pATU PgATU.CTX_ARG1_KIND = c.device ∧ u.fld pATU PgATU.CTX_ARG1_PART = c.part % 16 ∧
        u.fld pATU PgATU.CTX_ARG1_PASID = c.pasid % 2 ^ 20 ∧ u.fld pATU PgATU.CTX_ARG0_ROOT = c.root % 2 ^ 48 ∧ u.atu = s.atu) ∧
      (∀ j, s.ctxOf pasid = some j → ∃ u : State, exec (.ctxFind r slot) s = .next u ∧ u.fld pATU PgATU.CTX_CMD_RESULT = 0 ∧
        u.fld pATU PgATU.CTX_CMD_SLOT = j % 4096 ∧ u.atu = s.atu) ∧
      (s.ctxOf pasid = none → ∃ u : State, exec (.ctxFind r slot) s = .next u ∧ u.fld pATU PgATU.CTX_CMD_RESULT = 2 ∧ u.atu = s.atu))) ∧
  (∀ slot, s.atu.draining = some slot → ∃ u : State, exec (.unbindDrained slot) s = .next u ∧ u.ctx slot = none ∧ u.atu.draining = none ∧
    (∀ j, j ≠ slot → u.ctx j = s.ctx j) ∧ u.flag pATU PgATU.CTX_CMD_BUSY = false ∧ u.fld pATU PgATU.CTX_CMD_RESULT = 0 ∧ u.mem = s.mem) ∧
  (∀ slot, s.atu.draining ≠ some slot → exec (.unbindDrained slot) s = .next s)

/-- R303 to R308, R314 to R324, R327, R329.
Model's choices in it: log entries 38, 241. -/
def Obligations.Translations : Prop := ∀ (s : State),
  (∀ client id task part pasid va rd wr, 0 < client → client ≤ 86 → let w : XWant := ⟨client, id, task, part, va % 2 ^ 64, rd, wr⟩
    (s.ctxOf pasid = none → exec (.translate client id task part pasid va rd wr 0) s = .next (s.refuseX none xrNO_CONTEXT w).atuWork) ∧
    (∀ slot c, s.ctxOf pasid = some slot → s.ctx slot = some c → c.part = part → s.atu.draining ≠ some slot →
      (c.device = false → s.host.atsEn = false → exec (.translate client id task part pasid va rd wr 0) s =
        .next (s.refuseX (some slot) xrATS_DISABLED w).atuWork) ∧
      (c.device = false → s.host.atsEn = true →
        (∀ t, (NMap.getD s.atu.l1 [] client).find? (fun t => t.covers slot (w.va / 2 ^ 21) && t.permits w) = some t →
          exec (.translate client id task part pasid va rd wr 0) s =
            .next ((((s.count (pg cATU client) PgATC.PERF_L1_HITS 1).l1Put client t).grantX slot w t).atuWork)) ∧
        ((NMap.getD s.atu.l1 [] client) = [] → s.l2Find slot (w.va / 2 ^ 21) = none → s.hostOpen = true →
          s.atu.xreqs.find? (fun x => x.slot = slot && x.vpn2 = w.va / 2 ^ 21) = none → ∃ v : State,
          exec (.translate client id task part pasid va rd wr 0) s = .next v.atuWork ∧ v.out = s.out ++ [.atsReq slot (w.va / 2 ^ 21) (!wr)] ∧
          v.atu = { s.atu with xreqs := s.atu.xreqs ++ [{ slot := slot, vpn2 := w.va / 2 ^ 21, device := false, nw := !wr, wants := [w] }] } ∧
          v = { s with regs := v.regs, out := v.out, atu := v.atu })))) ∧
  (∀ slot vpn2 x, s.xreq? slot vpn2 false = some x → ∀ rd wr z a u, exec (.atsCompletion slot vpn2 rd wr z a u) s = .next (s.atsCompletion x rd wr z a u).atuWork ∧
    exec (.atsCompletion slot vpn2 false false z a u) s = .next (s.endX x none xrNOT_PRESENT).atuWork ∧
    (z < 21 → exec (.atsCompletion slot vpn2 true wr z a u) s = .next (s.endX x none xrSIZE).atuWork)) ∧
  (∀ slot vpn2, s.xreq? slot vpn2 false = none → ∀ rd wr z a u, exec (.atsCompletion slot vpn2 rd wr z a u) s = .next s) ∧
  (∀ slot vpn2 x, s.xreq? slot vpn2 true = some x → ∀ es, exec (.deviceWalkDone slot vpn2 es) s = .next (s.walkDone x es).atuWork ∧
    (∀ c e, s.ctx x.slot = some c → s.walkEntry c.part (c.root + 8 * (x.vpn2 / 512 ^ 2 % 512)) (es.headD none) = some e → natBit e 0 = false →
      exec (.deviceWalkDone slot vpn2 es) s = .next (s.endX x none xrNOT_PRESENT).atuWork)) ∧
  (∀ g code, exec (.prgResponse g code) s = .next (s.prgResponse g code).atuWork ∧
    (NMap.getD s.atu.prg none g = none → exec (.prgResponse g code) s = .next s.atuWork)) ∧
  (∀ i e, s.atu.fq.find? (fun e => e.idx = i && (e.prg ≠ none || e.reported)) = some e → exec (.priTimeout i) s = .next (s.priTimeout e).atuWork) ∧
  (∀ r i, s.opens r cATU 0 = true → (s.atu.fq.find? (fun e => e.idx = i && e.reported) = none → exec (.fqRetry r i) s = .next ((s.arrived r).order pATU r 0x138) ∧
      exec (.fqFail r i) s = .next ((s.arrived r).order pATU r 0x138)) ∧
    (∀ e, s.atu.fq.find? (fun e => e.idx = i && e.reported) = some e → exec (.fqFail r i) s = .next ((s.arrived r).fqRefuse e xrPRI_FAILURE).atuWork ∧
      exec (.fqRetry r i) s = .next ((s.arrived r).fqRetry e).atuWork)) ∧
  (∀ tag pasid v n, (32 ≤ s.atu.invs.length → ∃ u : State, exec (.atsInvalidate tag pasid v n) s = .next u ∧
      u.atu = { s.atu with invWait := s.atu.invWait ++ [(tag, pasid, v, n)] } ∧ u = { s with atu := u.atu }) ∧
    (s.atu.invs.length < 32 → ∃ w : State, exec (.atsInvalidate tag pasid v n) s = .next (w.invalidate (some tag) (s.hostSlots pasid) v n).atuWork ∧
      w = { s with atu := { s.atu with invs := s.atu.invs ++ [tag] } })) ∧
  (∀ t, s.invOpen t = true → exec (.invalidationComplete t) s = .next s) ∧
  (∀ t, s.invOpen (some t) = false → s.sitesOwe (some t) = false → s.atu.invs.contains t = true → s.atu.invWait = [] → ∃ v : State, exec (.invalidationComplete (some t)) s = .next v.atuWork ∧
    v.out = s.out ++ [.invCpl t] ∧ v.atu.invs = s.atu.invs.erase t ∧ v = { s with atu := v.atu, out := v.out }) ∧
  (∀ t, s.invOpen t = false → s.sitesOwe t = true → ∃ v : State, exec (.invalidationComplete t) s = .next v.atuWork ∧ v.out = s.out ∧ v.atu.invs = s.atu.invs ∧ v.atu.invReady.contains t = true) ∧
  (∀ r slot, s.opens r cATU 0 = true → ∀ c ∈ [Instr.invRange r slot, .invContext r slot],
    (s.atu.invCmd = true → exec c s = .next ((s.arrived r).order pATU r 0x120)) ∧
    (s.atu.invCmd = false → s.ctx (slot % 4096) = none → ∃ u : State, exec c s = .next u ∧ u.fld pATU PgATU.INV_CMD_RESULT = 2 ∧ (s.arrived r).onlyIrq u)) ∧
  (∀ r slot x, s.opens r cATU 0 = true → s.atu.invCmd = false → s.ctx (slot % 4096) = some x →
    (x.device = false → ∃ u : State, exec (.invRange r slot) s = .next u ∧ u.fld pATU PgATU.INV_CMD_RESULT = 4 ∧ (s.arrived r).onlyIrq u) ∧
    (x.device = true → exec (.invContext r slot) s = .next (({ ((s.arrived r).setFld pATU PgATU.INV_CMD_SLOT slot).invalidate none (fun k => k = slot % 4096) 0 (2 ^ 43)
      with atu := { (((s.arrived r).setFld pATU PgATU.INV_CMD_SLOT slot).invalidate none (fun k => k = slot % 4096) 0 (2 ^ 43)).atu with invCmd := true } } : State).setFld
        pATU PgATU.INV_CMD_BUSY 1).atuWork)) ∧
  (∀ r slot x, s.opens r cATU 0 = true → s.atu.invCmd = false → s.ctx (slot % 4096) = some x → x.device = true →
    let a := (s.arrived r).setFld pATU PgATU.INV_CMD_SLOT slot
    let v := s.fld pATU PgATU.INV_ARG_VPN2
    let c := s.fld pATU PgATU.INV_ARG_COUNT
    let w := a.invalidate none (fun k => k = slot % 4096) v c
    ((c = 0 ∨ 262144 < c ∨ 2 ^ 27 < v + c) → ∃ u : State, exec (.invRange r slot) s = .next u ∧ u.fld pATU PgATU.INV_CMD_RESULT = 4 ∧ (s.arrived r).onlyIrq u) ∧
    (c ≠ 0 → c ≤ 262144 → v + c ≤ 2 ^ 27 → exec (.invRange r slot) s =
      .next (({ w with atu := { w.atu with invCmd := true } } : State).setFld pATU PgATU.INV_CMD_BUSY 1).atuWork)) ∧
  exec .atsEnableClear s = .next ((({ s with host := { s.host with atsEn := false } } : State).invalidate (some (2 ^ 32)) (s.hostSlots none) 0 (2 ^ 43)).atuWork) ∧
  (s.atu.fq = [] → ∃ v : State, exec .priEnableCycle s = .next v.atuWork ∧ v.atu = { s.atu with prg := [], priStopped := false } ∧ v.host = { s.host with priEn := true } ∧
    v = { s with atu := v.atu, host := v.host }) ∧
  (∀ r client, 0 < client → client ≤ 86 → s.opens r cATU client = true → ∃ u : State, exec (.l1Flush r client) s = .next u ∧ NMap.find? u.atu.l1 client = none ∧
    (∀ k, k ≠ client → NMap.find? u.atu.l1 k = NMap.find? s.atu.l1 k) ∧ u = { s.arrived r with atu := { s.atu with l1 := u.atu.l1 } })

/-- R371, R375 to R377; R505 of 16_host_endpoint.md.
Model's choices in it: log entries 179, 180. -/
def Obligations.HostCoherence : Prop := ∀ (s : State),
  (s.cxlOn = true → ∀ id hpa mv, hpa % 64 = 0 →
    (s.hdmAddr hpa = none → (∀ b, ∃ v : State, exec (.cxlMemrd id hpa mv b) s = .next v.kick ∧ v.out = s.out ++ [.cohErr 4 id] ∧
        v = { s with regs := v.regs, out := v.out }) ∧
      (∀ d p, ∃ v : State, exec (.cxlMemwr id hpa mv d p) s = .next v.kick ∧ v.out = s.out ++ [.cohErr 4 id] ∧ v = { s with regs := v.regs, out := v.out })) ∧
    (∀ p x, s.hdmAddr hpa = some (p, .dpa x) →
      (s.locate (hdmAccess id p (.dpa x)) false ≠ .refuse → (mv = 3 → exec (.cxlMemrd id hpa mv false) s =
          .next (s.enter { acc := hdmAccess id p (.dpa x), op := .read, coh := .rdShared, agent := 4 }).kick) ∧
        (mv = 2 → exec (.cxlMemrd id hpa mv false) s =
          .next (s.enter { acc := hdmAccess id p (.dpa x), op := .read, coh := .rdOwn, agent := 4 }).kick) ∧
        (mv = 0 → exec (.cxlMemrd id hpa mv false) s =
          .next (s.serveParts (.cxl (x / 64)) 476 p 2 0 .rdCur 4 [{ addr := .dpa x, len := 64, op := .read }]).kick)) ∧
      (∀ d pois n line q unc tier, s.locate (hdmAccess id p (.dpa x)) true = .home n line q unc tier →
        ((∃ e, s.filterOf n (x / 64) = some e ∧ e.st = .o 4) → exec (.cxlMemwr id hpa mv d pois) s = .next (s.wrBack n (x / 64) q 4 id d pois).kick) ∧
        (s.filterOf n (x / 64) = none → s.mem.txns = [] → exec (.cxlMemwr id hpa mv d pois) s =
          .next (s.enter { acc := hdmAccess id p (.dpa x), op := .write d pois, agent := 4, mv := mv }).kick)))) ∧
  (∀ line d p, exec (.cxlBisnpResponse line d p) s = .next (s.snoopAnswer line 4 false (d.map (fun d => (d, p))) false).kick ∧
    (s.mem.txns = [] → exec (.cxlBisnpResponse line d p) s = .next s.kick)) ∧
  (∀ line, (s.mem.txns.any (fun t => t.line = line && t.snoops.any (fun w => w.agent = 4)) = true → ∃ u : State, exec (.biconflict line) s = .next u ∧
      u.out = s.out ++ [.biConflictAck line] ∧ u = { s with out := u.out }) ∧
    (s.mem.txns.any (fun t => t.line = line && t.snoops.any (fun w => w.agent = 4)) = false → exec (.biconflict line) s = .next s)) ∧
  (s.cxlOn = true → ∀ l, ∀ x ∈ ([(.h2dSnpdata l, .fwdShared), (.h2dSnpinv l, .inv), (.h2dSnpcur l, .fwdCur)] : List (Instr × SnpKind)),
    (s.t3Holders (t3Key l) = [] → ∃ v : State, exec x.1 s = .next v.kick ∧ v.out = s.out ++ [.d2h 8 l []] ∧ v = { s with out := v.out }) ∧
    (∀ n, s.t3Holders (t3Key l) = [n] → ∃ v : State, exec x.1 s = .next (v.settle n).kick ∧ v.mem = { s.mem with h2dWait := s.mem.h2dWait ++ [(n, t3Key l, x.2, true)] })) ∧
  (∀ l d p st t, s.mem.txns.find? (fun t => t.line = t3Key l && t.phase = .fill && t.gotMask = 0) = some t →
    (st ≠ 0 → ∃ u : State, exec (.cxlH2dResponse l d p st) s = .next u ∧ u = s.putTxn { t with got := d, gotMask := 3, gotPois := p, hst := st } ∧
      (∀ y ∈ u.mem.txns, y.id = t.id → y.got = d ∧ y.hst = st)) ∧
    (∀ r, st = 0 → t.req = some r → r.coh = .plain → exec (.cxlH2dResponse l d p st) s =
      .next (((s.respond r.acc tsTIER_FAIL [] 0).closeTxn t.id).settle t.slice).kick)) ∧
  (∀ line agent t, s.mem.txns.find? (fun t => t.line = line && t.phase = .snoop && t.snoops.any (fun w => w.agent = agent)) = some t →
    exec (.snoopTimeout line agent) s = .next ((s.snoopTimeout t agent).kick).atuWork) ∧
  (s.mem.txns = [] → ∀ line agent, exec (.snoopTimeout line agent) s = .next s)

/-- R335, R340, R341, R346 to R349; R37 of 01_anatomy.md.
Model's choices in it: log entries 9, 81, 206, 240. -/
def Obligations.MeshAndTollgates : Prop := ∀ (s : State),
  (∀ f : Flit, s.mesh.flits.find? (fun g => g.id = f.id) = none → s.flitPassed f = false → ∀ p c, exec (.flitHop f p c) s = .next s) ∧
  (∀ f : Flit, s.mesh.flits.find? (fun g => g.id = f.id) = none → s.flitPassed f = true → f.here < 448 → f.dest < 448 → s.live (.router f.here) = true → s.stopped (pg cMSH f.here) = false →
    (s.nextHop f.here f.dest = none → exec (.flitHop f true true) s = .next s) ∧
    (s.nextHop f.here f.dest = some f.dest → s.absorbs f.dest = false → s.mesh.retry.contains (f.tol * 2 ^ 32 + f.txn) = false →
      ∃ u : State, exec (.flitHop f true true) s = .next u ∧ u.out = s.out ++ [.flitOut f.id f.dest] ∧ (∀ g ∈ u.mesh.flits, g.id ≠ f.id) ∧
      u = { s with regs := u.regs, mesh := u.mesh, out := u.out }) ∧
    (∀ k, s.nextHop f.here f.dest = some k → k ≠ f.dest → ∃ u : State, exec (.flitHop f true true) s = .next u ∧ u.out = s.out ∧
      (∃ d, u.mesh.flits = s.mesh.flits.filter (fun g => g.id ≠ f.id) ++ [{ f with here := k, detour := d }]) ∧ u = { s with regs := u.regs, mesh := u.mesh })) ∧
  (∀ f : Flit, s.mesh.flits.find? (fun g => g.id = f.id) = none → s.live (.router f.here) = false → ∀ p c, exec (.flitHop f p c) s = .next s) ∧
  (∀ t : TolReq, t.tol ≤ 490 → (∀ u ∈ s.mesh.waiting, u.req.tol ≠ t.tol) → s.outTxn? t.tol t.id = none → s.unregulated t.tol (s.tolClass t) = true →
    ∃ u : State, exec (.tollgatePass t) s = .next u.kick ∧ u.mesh.waiting = s.mesh.waiting ∧
    u.mesh.outs = s.mesh.outs ++ [⟨t.tol, t.id, t.task, t.lower, s.levelOf t.tol (s.tolClass t)⟩] ∧
    u.out = s.out ++ [.inject t.tol t.id (s.tolClass t) (s.levelOf t.tol (s.tolClass t))] ∧ u = { s with mesh := u.mesh, out := u.out }) ∧
  (∃ u : State, exec .tokenRefill s = .next (((s.mesh.waiting.map (fun t => t.req.tol)).eraseDups).foldl (fun w k => w.tolTry k) u).kick ∧
    (s.mesh.waiting = [] → exec .tokenRefill s = .next u.kick) ∧
    u.tick = (s.tick + 1) % 2 ^ (PgGLB.TICK_NOW_TICK.hi + 1 - PgGLB.TICK_NOW_TICK.lo) ∧ u.clock = s.clock + 1 ∧ u.mesh.waiting = s.mesh.waiting ∧
    u = { s with regs := u.regs, clock := u.clock, mesh := { s.mesh with frac := u.mesh.frac } }) ∧
  (∀ tol c, tol ≤ 490 → c < 4 → (s.unregulated tol c = true → s.refill tol c = s) ∧
    (s.unregulated tol c = false → (s.refill tol c).tokens tol c = min ((s.fld (pg cTOL tol) (PgTOL.BUCKET_BURST c) : Nat) : Int)
      (s.tokens tol c + (((NMap.getD s.mesh.frac 0 (tol * 4 + c) + s.fld (pg cTOL tol) (PgTOL.BUCKET_RATE c)) / 100 : Nat) : Int)))) ∧
  (∀ tol percent, 468 ≤ tol → tol ≤ 476 → let p := pg cTOL tol
    ∃ v : State, exec (.urgencyChange tol percent) s = .next (v.tolTry tol).kick ∧ s.onlyRegs v ∧
    (s.fld p PgTOL.URG_CFG_T3 ≤ percent → v.fld p PgTOL.STATUS_URGENCY = 3) ∧
    (percent < s.fld p PgTOL.URG_CFG_T3 → percent < s.fld p PgTOL.URG_CFG_T2 → percent < s.fld p PgTOL.URG_CFG_T1 → v.fld p PgTOL.STATUS_URGENCY = 0)) ∧
  (∀ tol, tol ≤ 490 → (s.fld (pg cTOL tol) PgTOL.LAT_CFG_TARGET_NS = 0 → ∃ u : State, exec (.latencyWindow tol) s = .next u ∧
      u.fld (pg cTOL tol) PgTOL.STATUS_STEP = 0 ∧ u.fld (pg cTOL tol) PgTOL.STATUS_LAT_NOW_NS = min (2 ^ 24 - 1) (NMap.getD s.mesh.lat 0 tol) ∧
      NMap.find? u.mesh.lat tol = none ∧ u = { s with regs := u.regs, mesh := { s.mesh with lat := u.mesh.lat, heldIn := u.mesh.heldIn } }) ∧
    (0 < s.fld (pg cTOL tol) PgTOL.LAT_CFG_TARGET_NS → 90 * s.fld (pg cTOL tol) PgTOL.LAT_CFG_TARGET_NS ≤ 100 * min (2 ^ 24 - 1) (NMap.getD s.mesh.lat 0 tol) →
      ∃ u : State, exec (.latencyWindow tol) s = .next u ∧ u.fld (pg cTOL tol) PgTOL.STATUS_STEP = 3)) ∧
  (∀ tol id ns o, s.outTxn? tol id = some o → s.fld (pg cTOL tol) PgTOL.LAT_CFG_TARGET_NS = 0 → ∃ u : State, exec (.transactionResponse tol id ns) s = .next u ∧
    u.mesh.outs = s.mesh.outs.filter (fun o => !(o.tol = tol && o.id = id)) ∧ u = { s with mesh := u.mesh }) ∧
  (∀ tol id ns, s.outTxn? tol id = none → s.mesh.late.contains (tol, id) = false → exec (.transactionResponse tol id ns) s = .next s) ∧
  (∀ tol id o, s.outTxn? tol id = some o → s.host.held.any (fun q => q.back = some (tol, id)) = false → exec (.initiatorTimeout tol id) s = .next (s.initiatorTimeout o).kick ∧
    (o.tol = tol → o.id = id → id < joinBase → let u := s.initiatorTimeout o
    u.mesh.outs = s.mesh.outs.filter (fun o => !(o.tol = tol && o.id = id)) ∧ u.mesh.late = s.mesh.late ++ [(tol, id)] ∧ u.mem = s.mem ∧ u.dsp = s.dsp))

/-- R537, R542 T0. R542 T1 and T6, R543, R545, R548.
Model's choices in it: log entries 2, 138, 141. -/
def Obligations.LifeCycleTargets : Prop :=
  (∀ (s : State) (r : Requester) (target : Nat), s.opens r cLCS 0 = true →
  (s.flag pLCS PgLCS.STATUS_BUSY = false → s.lcResult .mgmt (target % 16) ≠ 0 → ∃ u : State, exec (.lcsTargetWrite r target) s = .next u ∧
    u.fld pLCS PgLCS.STATUS_RESULT = s.lcResult .mgmt (target % 16) % 16 ∧ u.lc = s.lc ∧ (s.arrived r).onlyRegs u ∧
    (s.arrived r).regsBut u [(pLCS, 0x100)]) ∧
  (s.flag pLCS PgLCS.STATUS_BUSY = false → s.lcResult .mgmt (target % 16) = 0 → ∃ u : State, exec (.lcsTargetWrite r target) s = .next u ∧
    u.fld pLCS PgLCS.STATUS_RESULT = 0 ∧ u.flag pLCS PgLCS.STATUS_BUSY = true ∧ u.lc.stage = 1 ∧ u.lc.target = target % 16 ∧
    (s.lc.completes (target % 16) = false → u.lc.src = s.lc.state ∧ s.lc.freeSlot (target % 16) = some u.lc.slot) ∧
    u.lc = { s.lc with stage := 1, target := target % 16, src := u.lc.src, wipe := u.lc.wipe, slot := u.lc.slot } ∧
    u = { s.arrived r with regs := u.regs, lc := u.lc, tap := u.tap } ∧ (s.arrived r).regsBut u [(pLCS, 0x100), (pLCS, 0x10)]) ∧
  (s.flag pLCS PgLCS.STATUS_BUSY = true → ∃ u : State, exec (.lcsTargetWrite r target) s = .next u ∧ u.lc = s.lc ∧
    u.word pLCS 0x100 = s.word pLCS 0x100 ∧ natBit (u.word pLCS 0x28).toNat 1 = true ∧ (s.arrived r).onlyIrq u)) ∧
  (∀ (s : State),
  (s.lc.stage = 1 → ∃ u : State, exec .lcTransitionResetDone s = .next u ∧ u.lc.stateWord = s.lc.stateWord ∧ u.lc.excWord = s.lc.excWord ∧
    u.lc.slots = s.lc.slots ∧ (slotValid (NMap.getD s.lc.slots 0 s.lc.slot) = false → u.lc.stage = 2) ∧
    (slotValid (NMap.getD s.lc.slots 0 s.lc.slot) = true → natBit (NMap.getD s.lc.slots 0 s.lc.slot) 62 = true → u.lc.stage = 4)) ∧
  (∀ images, s.lc.stage = 6 → let b := ({ s with lc := { s.lc with stage := 0 } } : State).rotStart images
    (b.rot.halted = false → exec (.lcRestartDone images) s = .next
      (({ b.measureBoot b.plan.fuses with boot := { (b.measureBoot b.plan.fuses).boot with
            kind := .lifeCycle, running := [9], ended := [], overrun := [], warm := true, lossCause := 3
            sitesPend := [], hbmPend := [], optPend := [], hankPend := [] } } : State).stageOver 9 |>.stageOver 10)) ∧
    (b.rot.halted = true → b.lc.state ≠ lcSCRAPPED → exec (.lcRestartDone images) s = .next b) ∧
    (b.rot.halted = true → b.lc.state = lcSCRAPPED → ∃ u : State, exec (.lcRestartDone images) s = .next u ∧ u.lc = b.lc ∧
      (∀ d, d < 824 → (u.domSt d).st = 2) ∧ u.domSt 824 = b.domSt 824)))

/-- R538, R539, R541, R542 T2 to T5.
Model's choices in it: log entries 134, 138. -/
def Obligations.LcProgramming : Prop := ∀ (s : State),
  (s.lc.stage = 2 → s.lc.src < 16 → s.lc.target < 16 → NMap.getD s.lc.slots 0 s.lc.slot = 0 → ∃ u v, exec (.lcIntentProgrammed false) s = .next u ∧
    natBits v 31 16 = 0xFFFF - natBits v 15 0 ∧ natBits v 3 0 = s.lc.src ∧ natBits v 7 4 = s.lc.target ∧ natBit v 8 = s.lc.wipe ∧
    natBits v 63 32 = 0 ∧ NMap.getD u.lc.slots 0 s.lc.slot = v ∧ (∀ k, k ≠ s.lc.slot → NMap.getD u.lc.slots 0 k = NMap.getD s.lc.slots 0 k) ∧
    u = { s with lc := { s.lc with slots := u.lc.slots, stage := if s.lc.wipe then 3 else 4 } }) ∧
  (s.lc.stage = 3 → ∃ u : State, exec (.lcEraseDone false) s = .next u ∧ u.rot.owner = none ∧ natBit (NMap.getD u.lc.slots 0 s.lc.slot) 62 = true ∧
    u = { s with rot := { s.rot with owner := none }, lc := { s.lc with slots := u.lc.slots, stage := 4 } }) ∧
  (s.lc.stage = 4 → ∃ u : State, exec (.lcStateProgrammed none) s = .next u ∧
    (∀ b ∈ s.lc.bits.1, natBit u.lc.stateWord b = true) ∧ (∀ b ∈ s.lc.bits.2, natBit u.lc.excWord b = true) ∧
    (∀ b, b ∉ s.lc.bits.1 → natBit u.lc.stateWord b = natBit s.lc.stateWord b) ∧
    (∀ b, b ∉ s.lc.bits.2 → natBit u.lc.excWord b = natBit s.lc.excWord b) ∧
    u = { s with lc := { s.lc with stateWord := u.lc.stateWord, excWord := u.lc.excWord, stage := 5 } }) ∧
  (s.lc.stage = 5 → ∃ u : State, exec (.lcDoneProgrammed false) s = .next u ∧ natBit (NMap.getD u.lc.slots 0 s.lc.slot) 63 = true ∧
    u.flag pLCS PgLCS.STATUS_BUSY = false ∧ u = { s with regs := u.regs, lc := { s.lc with slots := u.lc.slots, stage := 6 } } ∧
    s.regsBut u [(pLCS, 0x100), (pLCS, 0x10)]) ∧
  (s.lc.stage = 2 ∨ s.lc.stage = 3 ∨ s.lc.stage = 4 ∨ s.lc.stage = 5 → ∀ c, c = Instr.lcIntentProgrammed true ∧ s.lc.stage = 2 ∨
    c = Instr.lcEraseDone true ∧ s.lc.stage = 3 ∨ (∃ k, c = Instr.lcStateProgrammed (some k) ∧ s.lc.stage = 4) ∨ c = Instr.lcDoneProgrammed true ∧ s.lc.stage = 5 →
    ∃ u : State, exec c s = .next u ∧ u.lc.stage = 6 ∧ u.fld pLCS PgLCS.STATUS_RESULT = 6 ∧ u.flag pLCS PgLCS.STATUS_BUSY = false ∧ u.dom = s.dom ∧ u.mem = s.mem)

/-- R548, R551.
Model's choices in it: log entries 139, 140. -/
def Obligations.DebugPage : Prop := ∀ (s : State),
  ((s.lc.state = lcFIELD_DEBUG ∨ s.lc.state = lcRETURNED) → s.lc.incomplete = false → s.hubReady = true →
    (∀ a, a < 8 → s.live (.hbmAtt a) = true → s.zeroingCount a = 0) → ∃ u : State, exec .debugReadySet s = .next u ∧
    u.flag pLCS PgLCS.STATUS_DEBUG_READY = true ∧ u.accessClass pDBG = 1 ∧ s.onlyRegs u ∧ s.regsBut u [(pLCS, 0x100), (pDBG, 0x68)]) ∧
  (∀ (r : Requester), s.opens r cDBG 0 = true →
    (∀ cls inst, s.flag pDBG PgDBG.CTRL_HALT = false → cls < 32 → inst < 4096 → ∃ u : State, exec (.dbgHalt r cls inst) s = .next u ∧
      u.flag pDBG PgDBG.CTRL_HALT = true ∧ u.dbgTarget = pg cls inst ∧ u = { s.arrived r with regs := u.regs }) ∧
    (exec (.dbgResume r) s = .next (s.arrived r).dbgRelease.kick) ∧
    (s.flag pDBG PgDBG.CTRL_HALTED = true → r ≠ .host →
      (∀ a, s.dbgBank = some a →
        exec (.dbgDataRead r) s = .next { s with out := s.out ++ [.regValue r (regAddr pDBG 0x110) (leNat (readBytes s.mem.banks a 8))] } ∧
        ∀ data, ∃ u : State, exec (.dbgDataWrite r data) s = .next u ∧ (∀ x, x + 1 ≤ a ∨ a + 8 ≤ x → NMap.getD u.mem.banks 0 x = NMap.getD s.mem.banks 0 x) ∧
          leNat (readBytes u.mem.banks a 8) = data % 2 ^ 64 ∧ u = { s with mem := { s.mem with banks := u.mem.banks } }) ∧
      (s.dbgBank = none → ∀ data, ∃ u : State, exec (.dbgDataWrite r data) s = .next u ∧ NMap.find? u.tap.arrays s.dbgKey = some (BitVec.ofNat 64 data) ∧
        u = { s with tap := { s.tap with arrays := u.tap.arrays } }) ∧
      (∃ u : State, exec (.dbgStep r) s = .next u ∧ u.flag pDBG PgDBG.CTRL_HALTED = false ∧ u.tap.step = true ∧
        u = { s with regs := u.regs, tap := { s.tap with step := true, arrays := [] } }))) ∧
  (s.flag pDBG PgDBG.CTRL_HALT = true → s.flag pDBG PgDBG.CTRL_HALTED = false → s.tap.step = false → s.pageWork s.dbgTarget = false → ∃ u,
    exec .dbgHalted s = .next u ∧ u.flag pDBG PgDBG.CTRL_HALTED = true ∧ u.pageState s.dbgTarget ≠ stBUSY)

/-- R547: each TAP instruction where it is live, and BYPASS. What leaves the chains and the boundary register is free. R546, R547: LCS_ACCESS, DBG_ACCESS and TST_ACCESS where they are live.
Model's choices in it: log entries 102, 103, 104, 105, 106, 107. -/
def Obligations.TestPort : Prop :=
  (∀ s : State, s.boot.io18Ok = true →
  (s.tapLive .idcode = true → ∃ t, exec .idcode s = .next t ∧ t.tap.tdo = Config.idcode.toNat ∧ t.tap.ir = 0x01 ∧
    t = { s with tap := t.tap, out := s.out ++ [.tdo t.tap.tdo] }) ∧
  (∀ data, s.tapLive .sample = true → ∃ t, exec (.samplePreload data) s = .next t ∧ t.tap.boundary = data ∧ t.tap.ir = 0x02 ∧
    t = { s with tap := t.tap, out := s.out ++ [.tdo t.tap.tdo], freeCtr := s.freeCtr + 1 }) ∧
  (∀ data, s.tapLive .extest = true → ∃ t, exec (.extest data) s = .next t ∧ t.tap.boundary = data ∧ t.tap.ir = 0x03 ∧
    t = { s with tap := t.tap, out := s.out ++ [.tdo t.tap.tdo], freeCtr := s.freeCtr + 1 }) ∧
  (∀ data, s.tapLive .scan = true → ∃ t, exec (.scan data) s = .next t ∧ t.tap.dr = data ∧ t.tap.ir = 0x30 ∧
    t = { s with tap := t.tap, out := s.out ++ [.tdo t.tap.tdo], freeCtr := s.freeCtr + 1 }) ∧
  (∀ data, s.tapLive .wir = true → ∃ t, exec (.wir1500 data) s = .next t ∧ t.tap.dr = data ∧ t.tap.ir = 0x31 ∧
    t = { s with tap := t.tap, out := s.out ++ [.tdo t.tap.tdo], freeCtr := s.freeCtr + 1 }) ∧
  (∀ site data, s.tapLive (.site site) = true → ∃ t, exec (.site1838 site data) s = .next t ∧ t.tap.dr = data ∧ t.tap.ir = 0x34 + site ∧
    t = { s with tap := t.tap, out := s.out ++ [.tdo t.tap.tdo], freeCtr := s.freeCtr + 1 }) ∧
  (∀ code bit, (tapOp (code % 256) = .bypass ∨ s.tapLive (tapOp (code % 256)) = false) → ∃ t, exec (.bypass code bit) s = .next t ∧
    t.tap.tdo = 2 * (bit % 2) ∧ t.tap.ir = code % 256 ∧ t = { s with tap := t.tap, out := s.out ++ [.tdo t.tap.tdo] })) ∧
  (∀ s : State, s.boot.io18Ok = true →
  (s.shut pLCS = false → ∃ t, exec .lcsAccessRead s = .next t ∧ t.tap.tdo = s.lcsStatus ∧ t.tap.ir = 0x20 ∧
    t = { s with tap := t.tap, out := s.out ++ [.tdo t.tap.tdo] }) ∧
  (∀ target, s.shut pLCS = false → s.tapTarget (target % 16) = true → ∃ u : State, u.tap.dr = 16 + target % 16 ∧
    u = { s with tap := u.tap, out := s.out ++ [.tdo s.tap.dr] } ∧ exec (.lcsAccessWrite target) s = .next (u.lcTarget .rot .tap (target % 16))) ∧
  (∀ target, s.tapTarget (target % 16) = false → ∃ t, exec (.lcsAccessWrite target) s = .next t ∧
    t = { s with tap := t.tap, out := s.out ++ [.tdo s.tap.dr] }) ∧
  (∀ off data, s.tapLive .dbgAccess = true → off < 0x1000 → off % 8 = 0 →
    exec (.dbgAccess off true data) s = .next ((s.regWrite .rot (regAddr pDBG off) 8 data).tapOut 0x21 0) ∧
    exec (.dbgAccess off false data) s = .next ((s.pageRead .rot pDBG off 8 false).1.tapOut 0x21 (s.pageRead .rot pDBG off 8 false).2)) ∧
  (∀ off data, s.tapLive .tstAccess = true → off < 0x1000 → off % 8 = 0 →
    exec (.tstAccess off true data) s = .next ((s.regWrite .rot (regAddr pTST off) 8 data).tapOut 0x22 0) ∧
    exec (.tstAccess off false data) s = .next ((s.pageRead .rot pTST off 8 false).1.tapOut 0x22 (s.pageRead .rot pTST off 8 false).2)))

/-- R561, R562: the requests outside sessions. Response codes and the order of the first three requests are the model's choice (PRESUMED from
DMTF SPDM, log entry 83).
Model's choices in it: log entries 83, 84, 85, 86, 87, 88, 89. -/
def Obligations.SpdmRequests : Prop := ∀ (s : State) (t : Transport), s.served t = true → s.trAdmits t = true →
  (∃ u : State, exec (.getVersion t) s = .next u ∧ (u.conn t).phase = 1 ∧
    u = { s with rot := { s.rot with conns := u.rot.conns }, out := s.out ++ [.spdm t 0x04 [0x12, 0x13]] }) ∧
  (1 ≤ (s.conn t).phase → ∃ u : State, exec (.getCapabilities t) s = .next u ∧ 2 ≤ (u.conn t).phase ∧
    u = { s with rot := { s.rot with conns := u.rot.conns }, out := s.out ++ [.spdm t 0x61 []] }) ∧
  (2 ≤ (s.conn t).phase → ∃ u : State, exec (.negotiateAlgorithms t) s = .next u ∧ (u.conn t).phase = 3 ∧
    u = { s with rot := { s.rot with conns := u.rot.conns }, out := s.out ++ [.spdm t 0x63 []] }) ∧
  (∀ bytes last, 3 ≤ (s.conn t).phase → ∃ u : State, exec (.chunkSend t bytes last) s = .next u ∧
    (u.conn t).chunkIn = (if last then 0 else (s.conn t).chunkIn + bytes) ∧
    u = { s with rot := { s.rot with conns := u.rot.conns }, out := s.out ++ [.spdm t 0x05 [(s.conn t).chunkIn + bytes]] }) ∧
  (∀ bytes, 3 ≤ (s.conn t).phase → 0 < (s.conn t).chunkOut → ∃ u : State, exec (.chunkGet t bytes) s = .next u ∧
    (u.conn t).chunkOut = (s.conn t).chunkOut - min bytes (s.conn t).chunkOut ∧
    u = { s with rot := { s.rot with conns := u.rot.conns }, out := s.out ++ [.spdm t 0x06 [min bytes (s.conn t).chunkOut]] }) ∧
  (3 ≤ (s.conn t).phase → s.hasIdentity = true →
    (exec (.getDigests t) s = .next { s with out := s.out ++ [.spdm t 0x01 [3, (Config.certDigest 0).toNat, (Config.certDigest 1).toNat]] }) ∧
    (∀ slot offset, slot < 2 → ∃ u : State, exec (.getCertificate t slot offset) s = .next u ∧
      u = { s with rot := { s.rot with conns := u.rot.conns }, freeCtr := s.freeCtr + 1, out := s.out ++ [.spdm t 0x02 [slot, offset]] }) ∧
    (∀ nonce, ∃ sig, exec (.challenge t nonce) s = .next { s with freeCtr := s.freeCtr + 1, out := s.out ++ [.spdm t 0x03 [nonce, sig]] }))

/-- R558, R559: the report's blocks are those of one state; during an activation there is none. R561, R562, R565, R566: sessions.
Model's choices in it: log entries 85, 86, 96, 99, 101. -/
def Obligations.MeasurementsAndSessions : Prop :=
  (∀ (s : State) (t : Transport) (who : Option Nat) (index nonce : Nat),
  s.served t = true → s.trAdmits t = true → 3 ≤ (s.conn t).phase → s.hasIdentity = true →
  (∀ i, who = some i → ∃ x, s.session i = some x ∧ x.tr = t ∧ x.up = true) →
  (s.activationOn = true → ∃ u : State, exec (.getMeasurements t who index nonce) s = .next u ∧ u = { s with out := s.out ++ [.spdmError t 1] }) ∧
  (s.activationOn = false → s.measBlocks index ≠ [] → ∃ u sig, exec (.getMeasurements t who index nonce) s = .next u ∧
    u.out = s.out ++ [.spdm t 0x60 [nonce, sig], .report t (s.measBlocks index) s.rot.overflow] ∧
    (∀ b ∈ s.measBlocks index, s.measBlock b.1 = some b.2) ∧
    u = { s with rot := { s.rot with conns := u.rot.conns, sessions := u.rot.sessions }, freeCtr := s.freeCtr + 2, out := u.out })) ∧
  (∀ (s : State) (t : Transport), s.served t = true → s.trAdmits t = true → 3 ≤ (s.conn t).phase →
  (∀ m : Bool, s.hasIdentity = true → s.sessionRoom t = true → (m = true → t = .i3c ∨ t = .sgmii) → ∃ u sig, exec (.keyExchange t m) s = .next u ∧
    u.rot.sessions = s.rot.sessions ++ [{ id := s.rot.nextSession, tr := t, mutAuth := m }] ∧
    u = { s with rot := { s.rot with sessions := u.rot.sessions, nextSession := s.rot.nextSession + 1 }, freeCtr := s.freeCtr + 1
                 out := s.out ++ [.spdm t 0x64 [s.rot.nextSession, sig]] }) ∧
  (∀ i x, s.session i = some x → x.tr = t → x.up = false → (x.mutAuth = true → s.rot.owner.isSome = true) → ∃ u : State, exec (.finish t i true true) s = .next u ∧
    u.rot.sessions = s.rot.sessions.map (fun y => if y.id = x.id then { x with up := true } else y) ∧
    u = { s with rot := { s.rot with sessions := u.rot.sessions }, out := s.out ++ [.spdm t 0x65 [i]] }) ∧
  (∀ i x, s.session i = some x → x.tr = t → x.up = true →
    (∃ u : State, exec (.heartbeat t i) s = .next u ∧ u.rot.sessions = s.rot.sessions.map (fun y => if y.id = x.id then { x with beat := true } else y) ∧
      u = { s with rot := { s.rot with sessions := u.rot.sessions }, out := s.out ++ [.spdm t 0x68 [i]] }) ∧
    (∃ u : State, exec (.keyUpdate t i) s = .next u ∧ u.rot.sessions = s.rot.sessions.map (fun y => if y.id = x.id then { x with epoch := x.epoch + 1 } else y) ∧
      u = { s with rot := { s.rot with sessions := u.rot.sessions }, out := s.out ++ [.spdm t 0x69 [i]] }) ∧
    (∀ h, s.hasIdentity = true → x.transcript = some h → ∃ sig, exec (.pqSign t i) s =
      .next { s with freeCtr := s.freeCtr + 1, out := s.out ++ [.spdm t 0x7E [h, sig]] }) ∧
    (∃ u : State, exec (.endSession t i) s = .next u ∧ u.session i = none ∧
      u = { s with rot := { s.rot with sessions := s.rot.sessions.filter (fun y => y.id ≠ i) }, out := s.out ++ [.spdm t 0x6C [i]] })) ∧
  (∀ i x, s.session i = some x →
    (x.beat = false → exec (.sessionTimeout i) s = .next { s with rot := { s.rot with sessions := s.rot.sessions.filter (fun y => y.id ≠ i) } }) ∧
    (x.beat = true → ∃ u : State, exec (.sessionTimeout i) s = .next u ∧ (u.session i).isSome = true ∧ u = { s with rot := { s.rot with sessions := u.rot.sessions } })))

/-- R565, R566: SET_OWNER, REPLACE_OWNER, SET_POLICY, REG_READ, REG_WRITE. What a new policy lets leave the hub leaves (hostRelease, R571). R567, R569, R443: key blobs.
Model's choices in it: log entries 90, 91, 92, 93. -/
def Obligations.OwnersAndJobKeys : Prop :=
  (∀ (s : State) (i : Nat) (x : Session),
  s.session i = some x → x.up = true → (x.tr = .i3c ∨ x.tr = .sgmii) → s.served x.tr = true →
  (∀ o, s.rot.owner = none → x.mutAuth = false → exec (.setOwner i o) s = .next
    (((({ s with rot := { s.rot with owner := some o } } : State).extend 11 2 0 0 (Config.policyDigest (policyFields o.policy))).hostRelease).emit
      (.mgmtAnswer i 0))) ∧
  (∀ old, s.rot.owner = some old → x.mutAuth = true →
    (∀ o, ∃ u : State, exec (.replaceOwner i o true) s = .next u ∧ ∀ y ∈ u.rot.sessions, y.id = i ∨ (y.tr ≠ .i3c ∧ y.tr ≠ .sgmii)) ∧
    (∀ o, exec (.replaceOwner i o false) s = .next { s with out := s.out ++ [.mgmtAnswer i 2] }) ∧
    (∀ p, exec (.setPolicy i p true) s = .next
      (((({ s with rot := { s.rot with owner := some { old with policy := p } } } : State).extend 11 2 0 0
        (Config.policyDigest (policyFields p))).hostRelease).emit (.mgmtAnswer i 0))) ∧
    (∀ addr size, exec (.regRead i addr size) s = .next ((s.readReq .mgmt addr size).emit (.mgmtAnswer i 0))) ∧
    (∀ addr size data, exec (.regWrite i addr size data) s = .next ((s.regWrite .mgmt addr size data).emit (.mgmtAnswer i 0)).kick.atuWork))) ∧
  ((∀ (s : State) (i : Nat) (x : Session) (b : KeyBlob), s.session i = some x → x.up = true → (x.tr = .i3c ∨ x.tr = .sgmii) → s.served x.tr = true →
    s.rot.owner.isSome = true → x.mutAuth = true →
    (s.blobResult b ≠ 0 → exec (.loadJobKeys i b) s = .next (s.emit (.mgmtAnswer i (s.blobResult b)))) ∧
    (s.blobResult b = 0 → exec (.loadJobKeys i b) s = .next ((b.entries.foldl (fun s e => s.loadKey b.job e) s).emit (.mgmtAnswer i 0))) ∧
    (∀ slots, exec (.clearJobKeys i slots) s = .next ((s.keysClear slots).emit (.mgmtAnswer i 0)))) ∧
  (∀ (s : State) (job port slot id : Nat), ((s.loadKey job ⟨port, slot, false, id⟩).key port slot).cur = some id ∧
    ((s.loadKey job ⟨port, slot, false, id⟩).key port slot).fcnt = 0 ∧ ((s.loadKey job ⟨port, slot, false, id⟩).key port slot).job = job) ∧
  (∀ (s : State) (slots : List (Nat × Nat)) (port slot : Nat), port < 12 → slot < 16 →
    (((port, slot) ∈ slots → (s.keysClear slots).key port slot = {}) ∧ ((port, slot) ∉ slots → (s.keysClear slots).key port slot = s.key port slot))))

/-- R556, R568; R597 of 21_bring_up_and_reset.md. R569: the four commands of the mailbox.
Model's choices in it: log entries 91, 94, 95, 97, 98. -/
def Obligations.FirmwareAndMailbox : Prop :=
  (∀ (s : State) (i : Nat) (x : Session) (m : Nat) (img : FwImage),
  s.session i = some x → x.up = true → (x.tr = .i3c ∨ x.tr = .sgmii) → s.served x.tr = true → s.rot.owner.isSome = true → x.mutAuth = true →
  (s.stageResult m img true ≠ 0 → exec (.fwStage i m img) s = .next (s.emit (.mgmtAnswer i (s.stageResult m img true)))) ∧
  (s.stageResult m img true = 0 → (s.comp m).slotIn 1 = some false → ∃ u : State, exec (.fwStage i m img) s = .next u ∧
    (u.comp m).pendingImage = some img ∧ (u.comp m).slotA = (s.comp m).slotA ∧ (u.comp m).running = (s.comp m).running ∧
    (∀ k, k ≠ m → u.comp k = s.comp k) ∧
    u = { s with rot := { s.rot with comps := u.rot.comps, dirCopy := u.rot.dirCopy, dirSeq := u.rot.dirSeq }
                 out := s.out ++ [.mgmtAnswer i 0] }) ∧
  (s.activationOn = false → (s.comp m).slotA.st = 1 → (s.comp m).slotB.st = 2 → ∃ u : State, exec (.fwCancel i m) s = .next u ∧
    (u.comp m).pendingImage = none ∧ (u.comp m).slotA = (s.comp m).slotA ∧ (u.comp m).running = (s.comp m).running ∧
    (∀ k, k ≠ m → u.comp k = s.comp k) ∧
    u = { s with rot := { s.rot with comps := u.rot.comps, dirCopy := u.rot.dirCopy, dirSeq := u.rot.dirSeq }
                 out := s.out ++ [.mgmtAnswer i 0] })) ∧
  (∀ (s : State) (len : Nat), s.shut pROT = false → s.flag pROT PgROT.MBOX_CMD_BUSY = false → len ≤ 3584 →
  s.accessClass pROT = 1 →
  let s1 := s.setFld pROT PgROT.MBOX_CMD_LEN len
  let done (x : State × Nat) : State :=
    (({ x.1 with regs := x.1.regs.filter (fun e => decide (e.1 < regKey pROT 0x200) || decide (regKey pROT 0x1000 ≤ e.1)) } : State).setFld pROT
      PgROT.MBOX_CMD_RESULT x.2).setInt pROT 0
  (∀ b, (s1.mboxBlob len b = none → exec (.mboxKeyLoad .mgmt len b) s = .next (done (s1, resBAD_FORMAT))) ∧
    (∀ k, s1.mboxBlob len b = some k → exec (.mboxKeyLoad .mgmt len b) s = .next (done (s1.blobLoad k)))) ∧
  (∀ slots, exec (.mboxKeyClear .mgmt len slots) s = .next (done (s1.keysClear slots, 0))) ∧
  (∀ m img ok, exec (.mboxFwStage .mgmt len m img ok) s = .next (done (s1.fwStage m img ok))) ∧
  (∀ m, exec (.mboxFwCancel .mgmt len m) s = .next (done (s1.fwCancel m))))

/-- R108 to R113, R116, R121, R124, R178, R179.
Model's choices in it: log entries 195, 228, 232, 233, 234. -/
def Obligations.SpinsAndTiles : Prop := ∀ (s : State),
  (∀ pds t v x, s.pick 1 (s.spinCan (s.pdsOf pds)) = some (t, v) → (s.pdsOf pds).find? (fun x => x.task = t.id) = some x → ∃ u : State, exec (.spinDispatch pds) s = .next u ∧
    (x.status ≠ 0 → u = v.taskEnd t.id x.status) ∧
    (x.status = 0 → v.patCheck t.part x.data ≠ 0 → u = v.taskEnd t.id (v.patCheck t.part x.data)) ∧
    (x.status = 0 → v.patCheck t.part x.data = 0 → (v.hankSet t.part t.hset (patOf x.data)).2 ≠ 0 →
      u = v.taskEnd t.id (v.hankSet t.part t.hset (patOf x.data)).2) ∧
    (x.status = 0 → v.patCheck t.part x.data = 0 → (v.hankSet t.part t.hset (patOf x.data)).2 = 0 →
      ((patOf x.data).eligible = true → u.dsp.spins = s.dsp.spins ∧
        u.dsp.arriving = s.dsp.arriving ++ [⟨t.id, t.part, t.hset, patOf x.data, (v.hankSet t.part t.hset (patOf x.data)).1⟩]) ∧
      ((patOf x.data).eligible = false → u.dsp.arriving = s.dsp.arriving ∧ u.dsp.nextSpin = s.dsp.nextSpin + 1 ∧
        ∃ r : SpinRun, r.id = s.dsp.nextSpin ∧ r.members.map (fun m => m.task) = [t.id] ∧ r.hanks = (v.hankSet t.part t.hset (patOf x.data)).1 ∧
          u.dsp.spins = spinInsert r s.dsp.spins))) ∧
  (∀ t a, s.dsp.arriving.find? (fun a => a.task = t) = some a → exec (.distaffArrival t) s =
    .next (({ s with dsp := { s.dsp with arriving := s.dsp.arriving.filter (fun x => x.task ≠ t) } } : State).arrive a)) ∧
  (∀ a : DistaffReq, let l := s.lead a.hanks
    (∀ b ∈ s.dsp.batches, s.lead b.hanks = l → b.part = a.part → b.hset = a.hset → ∀ q, b.reqs.head? = some q → q.2.weightSide ≠ a.desc.weightSide) →
    0 < s.dstFld l PgHNK.DST_CFG_WINDOW → a.desc.n < s.dstFld l PgHNK.DST_CFG_FILL →
    (s.dsp.batches.filter (fun b => s.lead b.hanks = l)).length < s.dstFld l PgHNK.DST_CFG_MAX_OPEN →
    (s.arrive a).dsp.batches = s.dsp.batches ++ [⟨s.dsp.nextSpin, a.part, a.hset, [(a.task, a.desc)], s.clock, a.hanks⟩] ∧
    (s.arrive a).dsp.spins = s.dsp.spins ∧ (s.arrive a).mem = s.mem) ∧
  (∀ b x, s.dsp.batches.find? (fun x => x.id = b) = some x → (s.clock < x.tick + 10 * s.dstFld (s.lead x.hanks) PgHNK.DST_CFG_WINDOW →
      exec (.distaffWindowExpire b) s = .next s) ∧
    (x.tick + 10 * s.dstFld (s.lead x.hanks) PgHNK.DST_CFG_WINDOW ≤ s.clock → x.reqs ≠ [] → ∃ u : State, exec (.distaffWindowExpire b) s = .next u ∧
      u.dsp.batches = s.dsp.batches.filter (fun y => y.id ≠ b) ∧ u.dsp.spins.length = s.dsp.spins.length + 1 ∧ u = { s with dsp := u.dsp } ∧
      u.dsp.hanks = s.dsp.hanks ∧ u.dsp.tasks = s.dsp.tasks)) ∧
  (∀ n start k i r, n < 400 → (s.hank n).run = none → (s.hank n).check = 0 → (s.hank n).unfence = [] → s.live (.hank n) = true →
    s.accepts (pg cHNK n) = true → passes (s.spindles n) ≤ 1 → (s.hank n).drains.any (fun d => decide (d.set = (s.hank n).nextSet)) = false →
    nextOffer (s.hank n).lastSet (s.offers n) = some (k, i, r) → ∃ u : State, exec (.tileTake n start) s = .next u ∧
    u = ((s.putSpin r).takeTile n start r i) ∧ (u.hank n).nextSet = 1 - (s.hank n).nextSet ∧ (u.hank n).lastSet = r.part * 16 + r.hset ∧
    (r.desc.lists = false → ∃ t, (u.hank n).run = some t ∧ t.spin = r.id ∧ t.unit = i ∧ t.step = 0 ∧ t.set = (s.hank n).nextSet) ∧ u.mem = s.mem) ∧
  (∀ r n data, s.opens r cHNK n = true → n < 400 → ∃ u : State, exec (.spFenceWrite r n 8 false data) s = .next u ∧
    u = (s.arrived r).spFence r (pg cHNK n) n (data % 2 ^ 64) ∧ (u.hank n).run = (s.hank n).run ∧ u.plan = s.plan ∧
    (s.spindles n = 2 ^ 64 - 1 → 16 < popCount 64 (data % 2 ^ 64) → (u.hank n).fence = (s.hank n).fence)) ∧
  (∀ n, (s.hank n).fence ≠ [] → (s.hank n).check = 0 → (∀ t, (s.hank n).run = some t → t.step % 1024 = 0) → exec (.spindleFenceApply n) s =
    .next ((((s.hank n).fence.filter (fun j => (s.unit (.spindle n j)).live ≠ .faulted)).foldl (fun s j => s.setSpindle n j false .fenced)
      (s.setHank n { s.hank n with fence := [] })).tileRestart n)) ∧
  (∀ n t, (s.hank n).run = some t → t.step % 1024 ≠ 0 → exec (.spindleFenceApply n) s = .next s) ∧
  (∀ n, (s.hank n).unfence ≠ [] → (∀ t, (s.hank n).run = some t → t.edge = true ∧ (s.hank n).check = 0) → exec (.spindleReturn n) s =
    .next (((s.hank n).unfence.foldl (fun s j => s.setSpindle n j true .good) (s.setHank n { s.hank n with unfence := [] })).tileRestart n))

/-- R98, R101 to R106, R114 to R116; R615 of 22_fault_detection.md; R279 of 09_memory_integrity.md.
Model's choices in it: log entries 41, 42, 193, 194, 229, 232, 235, 236, 237, 238. -/
def Obligations.HankSteps : Prop := ∀ (s : State) (n : Nat),
  (∀ t r b, s.live (.hank n) = true → n < 400 → s.stopped (pg cHNK n) = false → (s.hank n).run = some t → s.spin? t.spin = some r →
    let held := s.heldSteps n b
    (s.fld (pg cBOB n) PgBOB.CFG_LOOKAHEAD ≤ held → ∀ x, exec (.operandFill n (.slice b) x) s = .next s.kick) ∧
    ((r.desc.bobsNeeded (s.spindles n) t).contains b = true → held < s.fld (pg cBOB n) PgBOB.CFG_LOOKAHEAD → t.step + held < r.desc.steps →
      s.filling n (.slice b) = false → ∃ f, s.fillFor n r t (.slice b) = some f ∧ f.at_ = r.desc.walkOf t (t.step + held) ∧ n ∈ f.goesTo ∧
        f.pieces = r.slicePieces (s.spindles n) t b f.at_ ∧ exec (.operandFill n (.slice b) false) s = .next (s.fillIssue r (s.runClass n r) f).kick ∧
        (s.fillLocal r f = true → s.fld (pg cBOB n) PgBOB.CFG_LOOKAHEAD / 2 ≤ held → ∃ u : State, exec (.operandFill n (.slice b) true) s = .next u.kick ∧
          s.onlyRegs u))) ∧
  (∀ f t r b xs, (s.hank n).run = some t → s.spin? f.spin = some r → t.spin = f.spin → f.fill = some (.slice b) → (∀ x ∈ xs, x.2 = false) →
    s.fillCome n f 0 xs = s.setHank n (r.desc.takeSlice (s.hank n) b f.at_ (r.sliceOf t b f.at_ (xs.map Prod.fst))) ∧
    NMap.getD (r.desc.takeSlice (s.hank n) b f.at_ (r.sliceOf t b f.at_ (xs.map Prod.fst))).bobs [] b =
      NMap.getD (s.hank n).bobs [] b ++ [r.sliceOf t b f.at_ (xs.map Prod.fst)]) ∧
  (∀ t r agree, (s.hank n).run = some t → s.spin? t.spin = some r → s.mayStep n (s.hank n) t = true →
    (r.desc.startReady (s.hank n) t = false → exec (.hankStep n agree .good) s = .next s.kick) ∧
    (r.desc.startReady (s.hank n) t = true → t.step + 1 < r.desc.steps →
      (r.desc.ready (s.spindles n) (s.hank n) t = false → ∃ u : State, exec (.hankStep n agree .good) s = .next u.kick ∧ (u.hank n).acc = (s.hank n).acc ∧
        (u.hank n).run = some t ∧ (u.hank n).steps = (s.hank n).steps ∧ (u.hank n).stall = ((s.hank n).stall + 1) % 1024 ∧
        u = { s with regs := u.regs, dsp := { s.dsp with hanks := u.dsp.hanks } }) ∧
      (r.desc.ready (s.spindles n) (s.hank n) t = true →
        (natBit (s.spindles n) ((s.hank n).steps % 64) = true → s.checkOk n = true → agree = false → ∃ u : State,
          exec (.hankStep n agree .good) s = .next u.kick ∧
          (u.hank n).check = 1 ∧ (u.hank n).acc = (s.hank n).acc ∧ (u.hank n).run = some t ∧ (u.hank n).steps = (s.hank n).steps + 1 ∧
          u.fld (pg cHNK n) PgHNK.CHECK_LAST_VICTIM = (s.hank n).steps % 64) ∧
        (agree = true → ∃ u : State, exec (.hankStep n agree .good) s = .next u.kick ∧ (u.hank n).steps = (s.hank n).steps + 1 ∧ (u.hank n).check = 0 ∧
          (∃ t1, (u.hank n).run = some t1 ∧ t1.step = t.step + 1 ∧ t1.spin = t.spin ∧ t1.set = t.set) ∧
          u = { s with regs := u.regs, dsp := { s.dsp with hanks := u.dsp.hanks } }) ∧
        (∀ e, (s.hank n).bobFail = false → ∃ u : State, exec (.hankStep n agree (.lasting e)) s = .next (u.tileRestart n).kick ∧ (u.hank n).bobFail = true ∧
          (u.hank n).acc = (s.hank n).acc) ∧
        (∀ e, (s.hank n).bobFail = true → ∃ u : State, exec (.hankStep n agree (.lasting e)) s = .next (u.faultUnit (.hank n) scBOBBIN).kick ∧
          u.dsp = s.dsp)))) ∧
  ((s.hank n).check = 1 → exec (.checkReplayDone n true) s = .next (s.replayDone n true) ∧
    ∃ u : State, exec (.checkReplayDone n false) s = .next u ∧ (u.hank n).check = 2 ∧ (u.hank n).run = (s.hank n).run ∧
    u = { s with dsp := { s.dsp with hanks := u.dsp.hanks } }) ∧
  ((s.hank n).check ≠ 1 → ∀ agree, exec (.checkReplayDone n agree) s = .next s) ∧
  ((s.hank n).check = 2 → exec (.checkKnownAnswerDone n true) s = .next
      (((s.setHank n { s.hank n with check := 0 }).setFld (pg cHNK n) PgHNK.CHECK_LAST_OUTCOME 2).spindleLost n
        (s.fld (pg cHNK n) PgHNK.CHECK_LAST_VICTIM)) ∧
    exec (.checkKnownAnswerDone n false) s = .next (s.knownAnswerDone n false)) ∧
  (∀ d rest, s.stopped (pg cHNK n) = false → (s.hank n).drains = d :: rest → exec (.drainDone n) s = .next (s.drainDone n d rest).kick ∧
    (∀ r, s.spin? d.spin = some r → d.ends < 2 → ((s.drainDone n d rest).hank n).drains = rest ∧ (s.drainDone n d rest).mem = s.mem)) ∧
  (∀ r m, s.stopped (pg cHNK n) = false →
    s.dsp.spins.findSome? (fun r => (r.merges.find? (fun m => m.1 = n)).map (fun m => (r, m))) = some (r, m) → s.dsp.fills = [] →
    exec (.topkMerge n) s = .next (s.fillIssue r (s.runClass n r)
      { id := s.dsp.nextFill, hank := n, spin := r.id, fill := none, at_ := 0, mt := m.2.1, unit := m.2.2, pieces := r.mergePieces m.2.1 m.2.2, goesTo := [n] }).kick) ∧
  (∀ f r xs, s.spin? f.spin = some r →
    ((∀ x ∈ xs, x.2 = false) → s.mergeCome n f 0 xs = s.mergeLists n r f.mt f.unit (xs.map Prod.fst) ∧
      ((s.mergeLists n r f.mt f.unit (xs.map Prod.fst)).hank n).drains.length = (s.hank n).drains.length + 1) ∧
    ((∃ x ∈ xs, x.2 = true) → (s.mergeCome n f 0 xs).mem = s.mem ∧ ((s.mergeCome n f 0 xs).hank n).drains = (s.hank n).drains ∧
      (∀ y ∈ (s.mergeCome n f 0 xs).dsp.spins, y.id = r.id → y.merges = r.merges.filter (fun m => m.2.1 ≠ f.mt) ∧ ∀ k ∈ y.members, k.stop = true)))

/-- R160 to R166, R180, R182. Doorbells wait for the host's earlier writes through BAR4 (R166, log entry 185).
Model's choices in it: log entries 185, 186, 187, 192, 230. -/
def Obligations.QueuesAndEvents : Prop := ∀ (s : State),
  (∀ (r : Requester) (p q : Nat), q < 4096 → s.opens r cDSP p = true →
    let d := pg cDSP p
    (s.flag d PgDSP.QCMD_BUSY = true → ∀ c ∈ [Instr.queueCreate r p q, .queueDestroy r p q, .queueStop r p q, .queueStart r p q, .queueQuery r p q],
      exec c s = .next ((s.arrived r).order d r 0x108)) ∧
    (s.flag d PgDSP.QCMD_BUSY = false →
      (s.queueIn p q = false → ∀ c ∈ [Instr.queueCreate r p q, .queueDestroy r p q, .queueStop r p q, .queueStart r p q, .queueQuery r p q],
        ∃ u : State, exec c s = .next u ∧ u.fld d PgDSP.QCMD_RESULT = 1 ∧ u.flag d PgDSP.QCMD_BUSY = false ∧ (s.arrived r).onlyIrq u) ∧
      (s.queueIn p q = true → (s.queue q).st = .absent → ∀ c ∈ [Instr.queueDestroy r p q, .queueStop r p q, .queueStart r p q, .queueQuery r p q],
        ∃ u : State, exec c s = .next u ∧ u.fld d PgDSP.QCMD_RESULT = 3 ∧ (s.arrived r).onlyIrq u) ∧
      (s.queueIn p q = true → (s.queue q).st ≠ .absent → ∃ u : State, exec (.queueCreate r p q) s = .next u ∧ u.fld d PgDSP.QCMD_RESULT = 2 ∧ (s.arrived r).onlyIrq u) ∧
      (let base := s.fld d PgDSP.QARG0_RING_BASE
       let log2 := s.fld d PgDSP.QARG1_LOG2_SIZE
       let mask := s.fld d PgDSP.QARG1_SITE_MASK
       let span := s.fld d PgDSP.QARG1_SPAN
       let pasid := s.fld d PgDSP.QARG1_PASID
       s.queueIn p q = true → (s.queue q).st = .absent → s.ownsPasid p pasid = true → s.reserved p + span ≤ s.fld (pg cPRT p) PgPRT.DSP_QUOTA_TASKS →
       4 ≤ log2 → log2 ≤ 16 → 1 ≤ span → span ≤ 4096 → base / 2 ^ 62 ≠ 3 → base % 4096 = 0 → (∀ x, x < 4 → natBit mask x = true → s.live (.site x) = true) →
       ∃ u : State, exec (.queueCreate r p q) s = .next u ∧ u.fld d PgDSP.QCMD_RESULT = 0 ∧ (∀ k, k ≠ q → u.queue k = s.queue k) ∧
         u.queue q = { st := .active, part := p, pasid := pasid, base := base, log2 := log2, span := span, siteMask := mask } ∧
         u.dsp = { s.dsp with queues := u.dsp.queues } ∧ u.mem = s.mem) ∧
      (s.queueIn p q = true → (s.queue q).st = .active →
        (∃ u : State, exec (.queueStop r p q) s = .next u ∧ u.fld d PgDSP.QCMD_RESULT = 0 ∧ u.queue q = { s.queue q with st := .stoppedSw } ∧
          u.dsp = { s.dsp with queues := u.dsp.queues }) ∧
        (∃ u : State, exec (.queueStart r p q) s = .next u ∧ u.fld d PgDSP.QCMD_RESULT = 7 ∧ (s.arrived r).onlyIrq u) ∧
        (∃ u : State, exec (.queueQuery r p q) s = .next u ∧ u.fld d PgDSP.QCMD_RESULT = 0 ∧ u.word d 0x110 = BitVec.ofNat 64 (s.queue q).base ∧
          u.word d 0x120 = BitVec.ofNat 64 ((s.queue q).tail * 2 ^ 32 + (s.queue q).head) ∧ (s.arrived r).onlyIrq u) ∧
        (exec (.queueDestroy r p q) s = .next ((((s.arrived r).setFld d PgDSP.QCMD_QUEUE q).setFld d PgDSP.QCMD_BUSY 1).queueEnd q))) ∧
      (s.queueIn p q = true → (s.queue q).st = .stoppedErr → ∃ u : State, exec (.queueStart r p q) s = .next u ∧ u.fld d PgDSP.QCMD_RESULT = 0 ∧
        u.queue q = { s.queue q with st := .active, errIndex := 0, errCode := 0 } ∧ u.dsp = { s.dsp with queues := u.dsp.queues }))) ∧
  (∀ q, (s.queue q).destroying = true → s.liveIn q = 0 → ∃ u : State, exec (.queueDestroyComplete q) s = .next u ∧ u.queue q = {} ∧
    (∀ k, k ≠ q → u.queue k = s.queue k) ∧ u.dsp.tasks = s.dsp.tasks ∧ u.mem = s.mem) ∧
  (∀ q, (s.queue q).destroying = true → s.liveIn q ≠ 0 → exec (.queueDestroyComplete q) s = .next s) ∧
  (∀ q, q < 4096 → s.hostReach = true → s.ideShut = false → s.postedBefore s.nextJoin = true → let a := s.rxTlp
    (∀ tail, exec (.dbTail q tail) s = .next { a with dsp := { s.dsp with bells := s.dsp.bells ++ [⟨none, s.nextJoin, [], q, none, tail⟩] } }) ∧
    (∀ e, exec (.dbEvent q e) s = .next { a with dsp := { s.dsp with bells := s.dsp.bells ++ [⟨none, s.nextJoin, [], q, some (e % 2 ^ 14), 0⟩] } })) ∧
  (∀ q tail, q < 4096 → s.postedBefore s.nextJoin = false → s.hostReach = true → s.ideShut = false → (s.queue q).st ≠ .absent → (s.queue q).destroying = false →
    tail % 2 ^ 32 ≠ (s.queue q).tail → let a := s.rxTlp
    ((tail % 2 ^ 32 + 2 ^ 32 - (s.queue q).head) % 2 ^ 32 ≤ 2 ^ (s.queue q).log2 → (tail % 2 ^ 32 + 2 ^ 32 - (s.queue q).tail) % 2 ^ 32 < 2 ^ 31 →
      ∃ u : State, exec (.dbTail q tail) s = .next u ∧ u.queue q = { s.queue q with tail := tail % 2 ^ 32 } ∧ u = { a with dsp := { s.dsp with queues := u.dsp.queues } }) ∧
    (2 ^ (s.queue q).log2 < (tail % 2 ^ 32 + 2 ^ 32 - (s.queue q).head) % 2 ^ 32 →
      ∃ u : State, exec (.dbTail q tail) s = .next u ∧ u.queue q = { s.queue q with st := .stoppedErr, errIndex := 0, errCode := tsOVERRUN })) ∧
  (∀ q e, q < 4096 → s.postedBefore s.nextJoin = false → s.hostReach = true → s.ideShut = false → (s.queue q).st ≠ .absent → (s.queue q).destroying = false →
    exec (.dbEvent q e) s = .next (s.rxTlp.eventInc (s.queue q).part (e % 2 ^ 14) false)) ∧
  (∀ (r : Requester) (p e : Nat), e < 2 ^ 14 → s.opens r cDSP p = true → let d := pg cDSP p
    (s.eventIn p e = true →
      (∃ u : State, exec (.eventRead r p e .good) s = .next u ∧ u.word d 0x138 = BitVec.ofNat 64 (b2n (s.event e).err * 2 ^ 63 + b2n (s.event e).fwd.isSome * 2 ^ 62 +
        (match (s.event e).fwd with | some (n, _) => n % 2 ^ 18 * 2 ^ 36 + n / 2 ^ 18 % 16 * 2 ^ 32 | none => 0) + (s.event e).count) ∧ u.dsp = s.dsp) ∧
      (∃ v : State, exec (.eventSet r p e) s = .next ((v.evalWaits e).setInt d 1) ∧ v.event e = { count := s.fld d PgDSP.EVT_DATA_COUNT } ∧
        v.dsp = { s.dsp with events := v.dsp.events }) ∧
      (s.fld d PgDSP.EVT_DATA_COUNT < 2 ^ 14 → ∃ v : State, exec (.eventForward r p e) s = .next ((v.evalWaits e).setInt d 1) ∧
        v.event e = { fwd := some (s.fld d PgDSP.EVT_DATA_NODE + s.fld d PgDSP.EVT_DATA_PART * 2 ^ 18, s.fld d PgDSP.EVT_DATA_COUNT) })) ∧
    (2 ^ 14 ≤ s.fld d PgDSP.EVT_DATA_COUNT → exec (.eventForward r p e) s = .next ((s.arrived r).order d r 0x130)) ∧
    (s.eventIn p e = false → ∃ u : State, exec (.eventSet r p e) s = .next u ∧ u.dsp = s.dsp ∧
      u.fld d PgHDR.ERR_COUNT_CORRECTED = min (2 ^ (PgHDR.ERR_COUNT_CORRECTED.hi + 1 - PgHDR.ERR_COUNT_CORRECTED.lo) - 1) (s.fld d PgHDR.ERR_COUNT_CORRECTED + 1)))

/-- R167 to R175, R181, R183, R184; R409 of 13_chiplet_sites.md; R502 of 16_host_endpoint.md.
Model's choices in it: log entries 184, 188, 189, 190, 191, 226, 230. -/
def Obligations.TaskLife : Prop := ∀ (s : State),
  (∀ q, s.saf.stopped = false → (s.queue q).st = .active → (s.queue q).destroying = false → (s.queue q).head ≠ (s.queue q).tail → s.roomFor q = true →
    ∀ slot, let x := s.queue q
    let got := s.readObj x.part (x.base + x.head % 2 ^ x.log2 * 128) 128 slot
    (got = none → exec (.taskFetch q slot) s = .next (s.stopQueue q tsRING_FAULT (s.queue q).head)) ∧
    (∀ b, got = some b → b.length = 128 → (checkOk b = false → exec (.taskFetch q slot) s = .next (s.stopQueue q tsTASK_CHECK (s.queue q).head)) ∧
      (checkOk b = true → s.formatOk (s.queue q).part (s.queue q).span b = false →
        exec (.taskFetch q slot) s = .next (s.stopQueue q tsTASK_FORMAT (s.queue q).head)) ∧
      (checkOk b = true → s.formatOk (s.queue q).part (s.queue q).span b = true → fieldAt b 0 1 ≠ 2 → fieldAt b 4 2 ≠ 0 →
        s.task? ⟨q, (s.queue q).head⟩ = none →
        ∃ u : State, exec (.taskFetch q slot) s = .next u ∧ (u.queue q).head = ((s.queue q).head + 1) % 2 ^ 32 ∧ (u.queue q).st = .active ∧
        (∃ t, u.dsp.tasks = s.dsp.tasks ++ [t] ∧ t.id = ⟨q, (s.queue q).head⟩ ∧ t.phase = .waiting ∧ t.ty = fieldAt b 0 1 ∧ t.prio = fieldAt b 1 1 ∧
          t.pred = fieldAt b 4 2 ∧ t.part = (s.queue q).part ∧ t.refs = inlineRefs b))) ∧
    (∀ code idx, ((s.stopQueue q code idx).queue q).st = .stoppedErr ∧ ((s.stopQueue q code idx).queue q).errCode = code ∧
      ((s.stopQueue q code idx).queue q).errIndex = idx ∧ (s.stopQueue q code idx).dsp.tasks = s.dsp.tasks)) ∧
  (∀ q slot, (s.queue q).head = (s.queue q).tail → exec (.taskFetch q slot) s = .next s) ∧
  (∀ t v d, s.pick 2 (fun t => (List.range 64).any (fun d => s.dmaFree t.part d)) = some (t, v) → (List.range 64).find? (fun d => v.dmaFree t.part d) = some d →
    exec .moveDispatch s = .next (((v.dispatched t d).workStart (pg cDMA d)).moveStart t d).kick) ∧
  (∀ t v, s.pick 6 (fun _ => true) = some (t, v) → exec .waitDispatch s = .next ((v.dispatched t 0).evalWait { t with phase := .dispatched })) ∧
  (∀ t v, s.pick 7 (fun _ => (s.dsp.tasks.filter (fun t => t.ty = 7 && t.phase = .dispatched)).length < 16) = some (t, v) →
    exec .signalDispatch s = .next (v.fenceStart t) ∧ (t.scope = 0 → ∃ u : State, exec .signalDispatch s = .next u ∧
      u = v.dispatched { t with cover := (v.writesOut t.part).filter (fun k => k.1 = 1 || k.1 = 5 || k.1 = 6 || t.scope = 2) } 0)) ∧
  (∀ t v, s.pick 3 (fun t =>
      let x := (t.body.getD 0 0).toNat
      let f := (t.body.getD 1 0).toNat
      !s.funcBound x f t.part || s.firstChan x = none || (0 < s.taskCredits x f && s.accepts (pg cSIT x))) = some (t, v) →
    exec .siteTaskDispatch s = .next (v.siteTask t) ∧ (v.funcBound (t.body.getD 0 0).toNat (t.body.getD 1 0).toNat t.part = false →
      exec .siteTaskDispatch s = .next (v.taskEnd t.id tsSITE_ERROR))) ∧
  (∀ i x status, s.task? i = some x → x.phase = .dispatched → (s.queue i.queue).destroying = false →
    (x.ty = 1 ∨ x.ty = 2 ∨ x.ty = 4 ∨ x.ty = 5 ∨ x.ty = 7) →
    (status % 256 ≠ 0 → s.taskQuiet x.id = true → exec (.taskDone i status) s = .next (s.engineDone x (status % 256))) ∧
    (s.mayEnd x = true → exec (.taskDone i status) s = .next (s.engineDone x (status % 256))) ∧
    (s.taskQuiet x.id = false → s.mayEnd x = false → exec (.taskDone i status) s = .next s) ∧
    (x.ty = 2 → s.mayEnd x = true → s.taskQuiet x.id = true ∧ ∀ c ∈ s.dsp.copies, c.for_ = .move x.id → c.ended = true ∧ c.busy = false)) ∧
  (∀ i x status, s.task? i = some x → x.phase = .ready → exec (.taskDone i status) s = .next s ∧
    (0 < s.fld (pg cDSP x.part) PgDSP.CFG_AGE_US → ∃ u : State, exec (.taskAging i) s = .next u ∧
      u.dsp.tasks = s.dsp.tasks.map (fun y => if y.id = x.id then { x with prio := x.prio - 1 } else y) ∧ u.dsp.ready = s.dsp.ready ∧ u = { s with dsp := u.dsp })) ∧
  (∀ i x, s.task? i = some x → x.phase = .walking →
    (∀ rest, x.refs = 0 :: rest → exec (.referenceDelivery i .good) s = .next ((s.putTask { x with refs := rest }).walkEnd x.id)) ∧
    (∀ r rest, x.refs = r :: rest → r / 2 ^ 30 = 2 → exec (.referenceDelivery i .good) s =
      .next (((s.putTask { x with refs := rest }).eventInc x.part (r % 2 ^ 14) (x.status ≠ 0)).walkEnd x.id)) ∧
    (∀ e, exec (.referenceDelivery i (.lasting e)) s =
      .next (s.storeFatal (pg cDSP x.part) x.part (6 <<< 24 + (x.id.queue * 4096 + x.id.index % 4096) % 2 ^ 24))) ∧
    (x.refs = [] → x.block ≠ 0 → x.block ≠ 2 ^ 64 → ∀ data, exec (.succBlockRead i data) s = .next (s.blockRead x (s.readObj x.part x.block 64 data)))) ∧
  (∀ i x page, s.task? i = some x → x.ty = 7 → x.phase = .dispatched → x.sent = false → s.saf.stopped = false → (s.queue i.queue).destroying = false →
    s.joins.any (fun j => decide (j.kind = JoinKind.record i)) = false →
    (s.fenceDone x = true → exec (.fenceComplete i page) s = .next (s.recordWrite x page).kick) ∧
    (s.fenceDone x = false → exec (.fenceComplete i page) s = .next s))

/-- R426, R428, R432, R438 to R442, R447 to R450, R454.
Model's choices in it: log entries 167, 200, 201, 202. -/
def Obligations.FabricLinks : Prop := ∀ (s : State),
  (∀ g f c, (24 ≤ g ∨ s.strandState g = ssDOWN ∨ s.strandState g = ssNO_PEER ∨ s.strandState g = ssRETRAINING) → exec (.fabricFrameReceive g f c) s = .next s) ∧
  (∀ g f, g < 24 → s.strandState g = ssUP → ∀ e ∈ ([(.ok, s.frameIn g f .ok), (.badTrailer, (s.frameCount g false).badTrailer g), (.tagFail, ((s.frameCount g false).tagFail g).badTrailer g)] :
      List (FrameCheck × State)), exec (.fabricFrameReceive g f e.1) s = .next (if e.2.overrunning = s.overrunning then e.2 else e.2.timeReport false)) ∧
  (∀ ack fs, (ackFrames ack fs).length ≤ fs.length ∧ (∀ f ∈ ackFrames ack fs, f ∈ fs) ∧ ((∀ f ∈ fs, f.seq ≠ ack) → ackFrames ack fs = fs)) ∧
  (∀ g, ((s.strand g).unacked = [] → exec (.frameAckTimeout g) s = .next s) ∧
    ((s.strand g).unacked ≠ [] → s.strandUp g = true → ∃ u : State, exec (.frameAckTimeout g) s = .next u ∧ u = s.resend g ∧
      (u.strand g).unacked = (s.strand g).unacked ∧ (u.strand g).txSeq = (s.strand g).txSeq ∧ u.mem = s.mem)) ∧
  (∀ a p, a < 6 → s.jobMatches p = false →
    (p.ty = 1 → ∃ v : State, exec (.put a p) s = .next v.kick ∧ s.onlyRegs v ∧ s.regsBut v [(pg cFAB a, PgFAB.PERF2_DROPPED.off)]) ∧
    (p.ty = 3 → ∃ v : State, exec (.eventPacket a p) s = .next v ∧ s.onlyRegs v ∧ s.regsBut v [(pg cFAB a, PgFAB.PERF2_DROPPED.off)])) ∧
  (∀ a p st, a < 6 → s.jobMatches p = true → p.ackReq = true → s.appliedStatus p = some st →
    (p.ty = 1 → exec (.put a p) s = .next (s.junction a none none (dackFor p st)).kick) ∧
    (p.ty = 3 → s.eventIn p.dpart p.arg16 = true → exec (.eventPacket a p) s = .next (s.junction a none none (dackFor p st)))) ∧
  (∀ a p ps, a < 6 → p.ty = 1 → s.jobMatches p = true → p.ackReq = false → s.pktParts p = some ps →
    exec (.put a p) s = .next (s.serveParts (.dack a p) (470 + a) p.dpart 1 p.hint .plain 5 ps).kick) ∧
  (∀ a p, a < 6 → p.ty = 3 → s.jobMatches p = true → s.eventIn p.dpart p.arg16 = true → p.ackReq = false →
    exec (.eventPacket a p) s = .next (s.eventInc p.dpart p.arg16 (natBit p.arg32 0))) ∧
  (∀ a p, a < 6 → p.ty = 7 → p.ackReq = false → ∃ u : State, exec (.mgmtPacket a p) s = .next u ∧ u.out = s.out ++ [.mgmtMsg p.src p.data] ∧ u = { s with out := u.out }) ∧
  (∀ a p e, a < 6 → p.ty = 2 → s.fab.e2e.find? (fun e => e.pkt.e2e = p.e2e && e.pkt.dst = p.src && e.pkt.dpart = p.spart) = some e →
    (p.arg32 = 0x80 → exec (.dack a p) s = .next s) ∧
    (p.arg32 = 0 → e.task = none → ∃ u : State, exec (.dack a p) s = .next u ∧ u.fab.e2e = s.fab.e2e.filter (fun x => x.id ≠ e.id) ∧
      u = { s with fab := { s.fab with e2e := u.fab.e2e } }) ∧
    (p.arg32 = tsACCESS → exec (.dack a p) s = .next (s.e2eFailed e tsACCESS))) ∧
  (∀ a p, a < 6 → p.ty = 2 → s.fab.e2e = [] → exec (.dack a p) s = .next s) ∧
  (∀ i e, s.fab.e2e.find? (fun e => e.id = i) = some e → (s.fld (pg cFAB 0) PgFAB.E2E_RETRIES ≤ e.tries → exec (.e2eTimeout i) s = .next (s.e2eFailed e tsFABRIC_ERROR)) ∧
    (e.tries < s.fld (pg cFAB 0) PgFAB.E2E_RETRIES → ∃ v : State, exec (.e2eTimeout i) s = .next (v.junction 0 none none e.pkt) ∧
      v.fab.e2e = s.fab.e2e.map (fun x => if x.id = i then { x with tries := x.tries + 1 } else x) ∧ v = { s with fab := { s.fab with e2e := v.fab.e2e } })) ∧
  (∀ src id, ∃ u : State, exec (.appliedPairExpire src id) s = .next u ∧ u.fab.applied = s.fab.applied.filter (fun x => !(x.1 = src && x.2.1 = id)) ∧
    u = { s with fab := { s.fab with applied := u.fab.applied } }) ∧
  (∀ g ok l, g < 24 → (s.strandState g = ssRETRAINING → exec (.strandRetrainDone g ok l) s = .next (s.strandRetrained g ok l)) ∧
    (s.strandState g ≠ ssRETRAINING → exec (.strandRetrainDone g ok l) s = .next s)) ∧
  (∀ a lane corr unc, a < 6 → lane < 17 → corr ≤ s.fld (pg cFAB a) PgFAB.SPARE_CFG_CE_LIMIT → ∃ u : State, exec (.laneCeWindow a lane corr unc) s = .next u ∧
    NMap.getD u.fab.lanes (0, 0) (a * 17 + lane) = (min corr 0xFFFFFFFF, min unc 0xFFFF) ∧ u = { s with fab := { s.fab with lanes := u.fab.lanes } }) ∧
  (∀ a lane, a < 6 → lane < 16 → s.fab.lockLost.contains (a * 17 + lane) = false → s.strandState (4 * a + lane / 4) = ssUP → ∃ v : State,
    exec (.lostLockOnLane a lane) s = .next (v.strandRetrain (4 * a + lane / 4) true) ∧ v = { s with fab := { s.fab with lockLost := s.fab.lockLost ++ [a * 17 + lane] } }) ∧
  (∀ g, g < 24 → s.strandState g = ssTRAINING → ∃ u : State, exec (.noPeerLock g) s = .next u ∧ u.strandState g = ssNO_PEER ∧
    (∀ k, k < 24 → k ≠ g → u.strandState k = s.strandState k) ∧ s.onlyIrq u) ∧
  (∀ g b, g < 24 → s.strandState g = ssNO_PEER → exec (.noPeerRetry g none) s = .next s ∧ exec (.noPeerRetry g (some b)) s = .next ((s.strandMeets g b).pumpStrand g)) ∧
  (∀ r a, s.opens r cFAB a = true → (s.flag (pg cFAB a) PgFAB.TEST_START = true → exec (.fabTestStart r a) s = .next ((s.arrived r).order (pg cFAB a) r 0x158)) ∧
    (s.flag (pg cFAB a) PgFAB.TEST_START = false → ∃ v : State, exec (.fabTestStart r a) s = .next (v.fabTestTry a) ∧ v.flag (pg cFAB a) PgFAB.TEST_START = true ∧
      v.flag (pg cFAB a) PgFAB.TEST_DONE = false ∧ v.fab.testWait = s.fab.testWait ++ [a] ∧ v.fab.strands = s.fab.strands)) ∧
  (∀ a l, a < 6 → s.flag (pg cFAB a) PgFAB.TEST_START = true → s.fab.testWait.contains a = false → exec (.fabTestDone a l) s = .next (s.fabTestDone a (l % 2 ^ 17))) ∧
  (∀ r a secure, s.opens r cFAB a = true → s.quiet (pg cFAB a) = true →
    (s.fabModeBad secure = true → exec (.fabModeWrite r a secure) s = .next ((s.arrived r).order (pg cFAB a) r 0x100)) ∧
    (s.fabModeBad secure = false → ∃ u : State, exec (.fabModeWrite r a secure) s = .next u ∧ u.fabSecure a = secure ∧ (s.arrived r).onlyRegs u ∧
      (s.arrived r).regsBut u [(pg cFAB a, 0x100)])) ∧
  (∀ r p valid tag, s.opens r cPRT p = true → s.quiet (pg cPRT p) = true →
    (s.jobBad valid tag = true → exec (.jobBind r p valid tag) s = .next ((s.arrived r).order (pg cPRT p) r 0x130)) ∧
    (s.jobBad valid tag = false → ∃ u : State, exec (.jobBind r p valid tag) s = .next u ∧ u.flag (pg cPRT p) PgPRT.JOB_VALID = valid ∧
      u.fld (pg cPRT p) PgPRT.JOB_TAG = tag % 2 ^ (PgPRT.JOB_TAG.hi + 1 - PgPRT.JOB_TAG.lo) ∧ (s.arrived r).onlyRegs u ∧ (s.arrived r).regsBut u [(pg cPRT p, 0x130)]))

/-- R387, R389, R391, R394, R396, R401, R406, R409, R414, R416, R417, R419, R420.
Model's choices in it: log entries 75, 76, 181, 244. -/
def Obligations.SiteLinks : Prop := ∀ (s : State) (x : Nat),
  (∀ st, (4 ≤ x ∨ s.absent (.site x) = true) → exec (.siteStatusChange x st) s = .next s) ∧
  (exec (.sidebandSilence x) s = exec (.siteStatusChange x 0) s) ∧
  (∀ st, 4 < st → exec (.siteStatusChange x st) s = exec (.siteStatusChange x 0) s) ∧
  (∀ st, x < 4 → s.absent (.site x) = false → st ≤ 4 →
    (((s.siteSt x).peer ≠ 2 ∨ s.siteLink x ≠ slUP ∨ st = 2) → ((s.siteSt x).dropped = false ∨ st ≠ 2) → ((s.siteSt x).resetting = false ∨ st ≠ 3) →
      ∃ u : State, exec (.siteStatusChange x st) s = .next u ∧ u.siteSt x = { s.siteSt x with peer := st } ∧ (∀ y, y ≠ x → u.siteSt y = s.siteSt y) ∧
        u = { s with site := u.site }) ∧
    ((s.siteSt x).peer = 2 → st ≠ 2 → s.siteLink x = slUP → ∃ v : State, exec (.siteStatusChange x st) s = .next (v.siteDrop x) ∧
      v.siteSt x = { s.siteSt x with peer := st } ∧ v = { s with site := v.site }) ∧
    ((s.siteSt x).dropped = true → st = 2 → ∃ v : State, exec (.siteStatusChange x st) s = .next ((v.siteVoid x).siteRetrain x) ∧
      v.siteSt x = { s.siteSt x with peer := st } ∧ v = { s with site := v.site })) ∧
  ((4 ≤ x ∨ (s.siteSt x).dropped = false) → exec (.siteReadyTimeout x) s = .next s) ∧
  (x < 4 → (s.siteSt x).dropped = true → ∃ v : State, exec (.siteReadyTimeout x) s = .next (v.faultUnit (.site x) scLINK) ∧
    v.siteSt x = { s.siteSt x with dropped := false } ∧ v = { s with site := v.site }) ∧
  (∀ r mask, s.opens r cSIT x = true → ∃ u : State, exec (.channelRetrain r x mask) s = .next u ∧
    (∀ c, c < 64 → natBit mask c = true → s.chanIn x c = true → (u.chan x c).retraining = true) ∧
    (∀ c, (natBit mask c = false ∨ s.chanIn x c = false ∨ 64 ≤ c) → u.chan x c = s.chan x c) ∧
    u = { s.arrived r with regs := u.regs, site := u.site }) ∧
  (∀ c ok l, ((4 ≤ x ∨ 64 ≤ c ∨ (s.chan x c).retraining = false) → exec (.channelRetrainDone x c ok l) s = .next s) ∧
    (x < 4 → c < 64 → (s.chan x c).retraining = true → exec (.channelRetrainDone x c ok l) s = .next (s.chanTrained x c ok l))) ∧
  (∀ c, (4 ≤ x ∨ 64 ≤ c ∨ s.chanUp x c = false) → (∀ f ok, exec (.aspFlitReceive x c f ok) s = .next s) ∧ exec (.aspReplayTimeout x c) s = .next s) ∧
  (∀ c f, x < 4 → c < 64 → s.chanUp x c = true → let h := s.chan x c
    let nak : Out := .aspFlit x c { seq := h.txSeq, ack := (h.rxSeq + 127) % 128, nak := true }
    (exec (.aspFlitReceive x c f true) s = .next (s.flitIn x c f true)) ∧
    (h.badSeq ≠ some h.rxSeq → ∃ u : State, exec (.aspFlitReceive x c f false) s = .next u ∧
      u.chan x c = { h with naked := true, badSeq := some h.rxSeq } ∧ u.out = s.out ++ [nak] ∧ u = { s with site := u.site, out := u.out }) ∧
    (h.badSeq = some h.rxSeq → ∃ v : State, exec (.aspFlitReceive x c f false) s = .next (v.chanRetrain x c true) ∧ v.out = s.out ++ [nak] ∧
      v = { s with site := v.site, out := v.out }) ∧
    (h.unacked = [] → exec (.aspReplayTimeout x c) s = .next s) ∧
    (h.unacked ≠ [] → ∃ u : State, exec (.aspReplayTimeout x c) s = .next u ∧ u.out = s.out ++ h.unacked.map (fun f => Out.aspFlit x c f) ∧
      u = { s with regs := u.regs, out := u.out })) ∧
  (∀ ack fs, (ackFlits ack fs).length ≤ fs.length ∧ (∀ f ∈ ackFlits ack fs, f ∈ fs) ∧ ((∀ f ∈ fs, f.seq ≠ ack) → ackFlits ack fs = fs)) ∧
  (∀ tag, ((∀ i ∈ (s.siteSt x).invs, i.1 ≠ tag) → exec (.xlateinvTimeout x tag) s = .next s) ∧
    (∀ i, (s.siteSt x).invs.find? (fun i => i.1 = tag) = some i → exec (.xlateinvTimeout x tag) s = .next (s.siteMiss x (some i.2.2)).atuWork)) ∧
  (∀ h, ((∀ t ∈ (s.siteSt x).tasks, t.handle = h → t.late = true) → exec (.siteTaskTimeout x h) s = .next s) ∧
    (∀ t, x < 4 → s.fld (pg cSIT x) PgSIT.TASK_CFG_TASK_TIMEOUT_MS ≠ 0 → (s.siteSt x).tasks.find? (fun t => t.handle = h && !t.late) = some t →
      ∃ v : State, exec (.siteTaskTimeout x h) s = .next ((v.taskEnd t.task tsSITE_ERROR).setInt (pg cSIT x) 6) ∧
      (v.siteSt x).tasks = (s.siteSt x).tasks.map (fun u => if u.handle = h then { u with late := true } else u) ∧ v = { s with site := v.site })) ∧
  (∀ r f i, s.opens r cSIT x = true → let p := pg cSIT x
    (s.flag p PgSIT.CFG_CMD_BUSY = true → exec (.siteCfgRead r x f i) s = .next ((s.arrived r).order p r 0x130) ∧
      exec (.siteCfgWrite r x f i) s = .next ((s.arrived r).order p r 0x130)) ∧
    (s.flag p PgSIT.CFG_CMD_BUSY = false →
      (i % 512 ≤ 3 → ∃ u : State, exec (.siteCfgWrite r x f i) s = .next u ∧ u.fld p PgSIT.CFG_CMD_RESULT = 1 ∧ u.flag p PgSIT.CFG_CMD_BUSY = false ∧
        (s.arrived r).onlyIrq u) ∧
      (natBit (s.siteFuncs x) (f % 8) = false → ∀ e ∈ ([(Instr.siteCfgRead r x f i, true), (.siteCfgWrite r x f i, decide (3 < i % 512))] : List (Instr × Bool)),
        e.2 = true → ∃ u : State, exec e.1 s = .next u ∧ u.fld p PgSIT.CFG_CMD_RESULT = 2 ∧ u.flag p PgSIT.CFG_CMD_BUSY = false ∧ (s.arrived r).onlyIrq u) ∧
      (natBit (s.siteFuncs x) (f % 8) = true → ∀ e ∈ ([(Instr.siteCfgRead r x f i, true, false), (.siteCfgWrite r x f i, decide (3 < i % 512), true)] :
        List (Instr × Bool × Bool)), e.2.1 = true → ∃ v : State, exec e.1 s = .next (v.cfgPush x [⟨.software, f % 8, i % 512, e.2.2⟩]) ∧
        v.flag p PgSIT.CFG_CMD_BUSY = true ∧ v.fld p PgSIT.CFG_CMD_FUNC = f % 8 ∧ v.fld p PgSIT.CFG_CMD_INDEX = i % 512 ∧ (s.arrived r).onlyRegs v))) ∧
  (∀ r, s.opens r cSIT x = true → let p := pg cSIT x
    let may := (s.pageState p = stFENCED ∨ (s.pageState p = stIDLE ∧ s.flag p PgHDR.PAGE_CTRL_QUIESCE_REQ = true)) ∧ s.flag p PgSIT.TEST_START = false ∧
      s.flag p PgHDR.PAGE_STATE_COMMIT_BUSY = false
    (¬ may → exec (.siteTestStart r x) s = .next ((s.arrived r).order p r 0x148)) ∧
    (may → ∃ u : State, exec (.siteTestStart r x) s = .next (u.agentGone x) ∧ u.flag p PgSIT.TEST_START = true ∧ u.flag p PgSIT.TEST_DONE = false ∧ u.siteLink x = slTEST ∧
      (u.siteSt x).hub = 4 ∧ u = { s.arrived r with regs := u.regs, site := u.site, out := u.out })) ∧
  (∀ l, ((4 ≤ x ∨ s.flag (pg cSIT x) PgSIT.TEST_START = false) → exec (.siteTestDone x l) s = .next s) ∧
    (x < 4 → s.flag (pg cSIT x) PgSIT.TEST_START = true → ∃ v : State, exec (.siteTestDone x l) s = .next ((v.siteVoid x).siteRetrain x) ∧
      v.flag (pg cSIT x) PgSIT.TEST_START = false ∧ v.flag (pg cSIT x) PgSIT.TEST_DONE = true ∧
      v.flag (pg cSIT x) PgSIT.TEST_PASS = decide ((l.map (fun f => f.tx.length + f.rx.length)).foldl (· + ·) 0 = 0) ∧ s.onlyIrq v))

/-- R357, R358, R362, R367, R398 to R401, R403 to R405, R407 to R410, R415.
Model's choices in it: log entries 182. -/
def Obligations.SiteMessages : Prop := ∀ (s : State) (x c : Nat) (m : AspMsg),
  let t := s.tagged x c m
  (∀ e ∈ ([(.aspRdshared x c m, 0x01, true), (.aspRdown x c m, 0x02, true), (.aspUpgrade x c m, 0x03, true), (.aspRdcur x c m, 0x04, true),
      (.aspWr x c m, 0x05, true), (.aspWrpart x c m, 0x06, true), (.aspSecrd x c m, 0x07, true), (.aspSecwr x c m, 0x08, true), (.aspAtomic x c m, 0x09, true),
      (.aspXlatereq x c m, 0x0A, true), (.aspDoorbell x c m, 0x0B, false), (.aspEvent x c m, 0x0C, false), (.aspTaskdone x c m, 0x0D, false),
      (.aspIntr x c m, 0x0E, false), (.aspCleanevict x c m, 0x0F, false), (.aspWrback x c m, 0x10, true), (.aspRspi x c m, 0x30, true),
      (.aspRsps x c m, 0x31, true), (.aspRspfwds x c m, 0x32, true), (.aspRspfwdi x c m, 0x33, true), (.aspRspfwdcur x c m, 0x34, true),
      (.aspRspwbissued x c m, 0x35, true), (.aspRspidata x c m, 0x40, true), (.aspCmpack x c m, 0x36, true), (.aspFwd x c m, 0x41, false),
      (.aspHintaccept x c m, 0x37, true), (.aspHintdecline x c m, 0x38, true), (.aspXlateinvdone x c m, 0x39, false)] : List (Instr × Nat × Bool)),
    s.carries x c e.2.1 m = false → exec e.1 s = .next (if e.2.2 then s.kick else s)) ∧
  (∀ e ∈ ([(.aspRdshared x c m, 0x01, true, true), (.aspRdown x c m, 0x02, true, true), (.aspUpgrade x c m, 0x03, true, true),
      (.aspRdcur x c m, 0x04, true, true), (.aspWr x c m, 0x05, true, true), (.aspWrpart x c m, 0x06, true, true), (.aspSecrd x c m, 0x07, true, true),
      (.aspSecwr x c m, 0x08, true, true), (.aspAtomic x c m, 0x09, true, true), (.aspXlatereq x c m, 0x0A, true, true),
      (.aspDoorbell x c m, 0x0B, false, true), (.aspEvent x c m, 0x0C, false, true), (.aspCleanevict x c m, 0x0F, false, false)] :
        List (Instr × Nat × Bool × Bool)), s.carries x c e.2.1 m = true →
    let b := s.unbuffered x c m
    (s.tagRoom x c m = false → e.2.2.2 = true →
      let v := (b.count (pg cSIT x) PgHDR.ERR_COUNT_CORRECTED 1).aspSend x c { op := 0x3C, tag := m.tag, arg8 := tsACCESS }
      exec e.1 s = .next (if e.2.2.1 then v.kick else v)) ∧
    ((s.tagRoom x c m = true ∨ e.2.2.2 = false) → s.funcMay x c m = false → let v := b.aspSend x c { op := 0x3C, tag := m.tag, arg8 := tsACCESS }
      exec e.1 s = .next (if e.2.2.1 then v.kick else v))) ∧
  (∀ e ∈ ([(.aspRdshared x c m, 0x01, .rdShared, 0x04), (.aspRdown x c m, 0x02, .rdOwn, 0x09), (.aspUpgrade x c m, 0x03, .upgrade, 0x09)] :
      List (Instr × Nat × CohKind × Nat)), s.carries x c e.2.1 m = true → s.tagRoom x c m = true → s.funcMay x c m = true →
    (∀ a, m.ak = 3 → t.physAddr x { m with op := e.2.2.2 } (m.addr / 64 * 64) = some a → exec e.1 s = .next ((t.enter {
        acc := ⟨aspId c m.tag, 400 + x, (s.unbuffered x c m).funcPart x m.func, none, a, 64, t.siteClass x m, 0, false, none, false⟩
        op := .read, coh := e.2.2.1, agent := x }).siteWork x).kick) ∧
    ((m.ak ≠ 3 ∨ t.physAddr x { m with op := e.2.2.2 } (m.addr / 64 * 64) = none) → exec e.1 s = .next ((t.aspErr x c m.tag tsACCESS).siteWork x).kick)) ∧
  (∀ e ∈ ([(.aspRdcur x c m, 0x04, decide (1 ≤ m.len ∧ m.len ≤ 4 ∧ m.addr % 64 = 0)), (.aspWr x c m, 0x05, decide (1 ≤ m.len ∧ m.len ≤ 4 ∧ m.addr % 64 = 0)),
      (.aspWrpart x c m, 0x06, decide (m.addr % 64 = 0)), (.aspSecrd x c m, 0x07, decide (m.addr % 32 = 0)), (.aspSecwr x c m, 0x08, decide (m.addr % 32 = 0)),
      (.aspAtomic x c m, 0x09, decide (4 ≤ m.len ∧ m.len ≤ 64))] : List (Instr × Nat × Bool)),
    s.carries x c e.2.1 m = true → s.tagRoom x c m = true → s.funcMay x c m = true →
    (e.2.2 = false → exec e.1 s = .next ((t.aspErr x c m.tag tsACCESS).siteWork x).kick) ∧
    (e.2.2 = true → let p := (s.unbuffered x c m).funcPart x m.func
      (m.ak = 0 → t.ownsPasid p m.pasid = false → exec e.1 s = .next ((t.aspErr x c m.tag tsXLATE_REFUSED).siteWork x).kick) ∧
      (m.ak = 0 → t.ownsPasid p m.pasid = true →
        exec e.1 s = .next ((t.aspTranslate x p m (aspLen m) (aspReads m) (aspWrites m) (.asp x c m)).siteWork x).kick) ∧
      (m.ak = 1 → exec e.1 s = .next ((t.aspServe x c m (fun i => windowT0 (m.addr + i))).siteWork x).kick) ∧
      (m.ak = 2 → exec e.1 s = .next ((t.aspServe x c m (fun i => t.windowT2 p (m.addr + i))).siteWork x).kick) ∧
      (m.ak = 3 → exec e.1 s = .next ((t.aspServe x c m (fun i => t.physAddr x m (m.addr + i))).siteWork x).kick))) ∧
  (s.tagRoom x c m = true → s.funcMay x c m = true → let p := (s.unbuffered x c m).funcPart x m.func
    (s.carries x c 0x0A m = true → exec (.aspXlatereq x c m) s =
      .next ((t.aspTranslate x p m 1 (natBit m.arg8 0) (natBit m.arg8 1) (.aspXlate x c m)).siteWork x).kick) ∧
    (s.carries x c 0x0B m = true → let q := natBits m.addr 43 32
      (natBit (t.queue q).siteMask x = true → exec (.aspDoorbell x c m) s = .next (((t.ring (some x) q none (m.addr % 2 ^ 32)).aspReply x c { op := 0x3A, tag := m.tag }).siteWork x)) ∧
      (natBit (t.queue q).siteMask x = false → ∃ v : State, exec (.aspDoorbell x c m) s = .next ((v.aspReply x c { op := 0x3A, tag := m.tag }).siteWork x) ∧
        t.onlyRegs v ∧ t.regsBut v [(pg cSIT x, PgHDR.ERR_COUNT_CORRECTED.off)])) ∧
    (s.carries x c 0x0C m = true → exec (.aspEvent x c m) s = .next (((t.eventInc p (m.addr % 2 ^ 14) false).aspReply x c { op := 0x3A, tag := m.tag }).siteWork x)) ∧
    (s.carries x c 0x0F m = true → let b := s.unbuffered x c m
      (∀ n line part, b.siteHome x m false = some (n, line, part) → exec (.aspCleanevict x c m) s = .next ((b.cleanEvict n line x).siteWork x)) ∧
      (b.siteHome x m false = none → exec (.aspCleanevict x c m) s = .next ((b.aspErr x c m.tag tsACCESS).siteWork x)))) ∧
  (s.carries x c 0x0D m = true → let b := s.unbuffered x c m
    ((∀ k ∈ (b.siteSt x).tasks, k.handle ≠ m.tag) → exec (.aspTaskdone x c m) s = .next b) ∧
    (∀ k, (b.siteSt x).tasks.find? (fun k => k.handle = m.tag) = some k → ∃ v : State, (v.siteSt x).tasks = (b.siteSt x).tasks.filter (fun k => k.handle ≠ m.tag) ∧
      v = { b with site := v.site } ∧
      exec (.aspTaskdone x c m) s = .next (if k.late then v else v.taskDone k.task (if m.arg8 = 0 then tsOK else tsSITE_ERROR)))) ∧
  (s.carries x c 0x0E m = true → let b := s.unbuffered x c m
    let w := (b.word (pg cSIT x) (0x198 + 8 * (2 * (m.func % 8) + m.arg8 % 8 / 4))).toNat
    (natBit w (16 * (m.arg8 % 8 % 4) + 15) = true → exec (.aspIntr x c m) s = .next (b.sendVector (natBits w (16 * (m.arg8 % 8 % 4) + 10) (16 * (m.arg8 % 8 % 4))))) ∧
    (natBit w (16 * (m.arg8 % 8 % 4) + 15) = false → ∃ u : State, exec (.aspIntr x c m) s = .next u ∧ b.onlyRegs u ∧
      b.regsBut u [(pg cSIT x, PgHDR.ERR_COUNT_CORRECTED.off)])) ∧
  (s.carries x c 0x10 m = true → let b := s.aspFree x c 1 (aspCost m)
    (∀ n line part, b.siteHome x m false = some (n, line, part) →
      exec (.aspWrback x c m) s = .next ((b.wrBack n line part x (aspId c m.tag) m.data m.poison).siteWork x).kick) ∧
    (b.siteHome x m false = none → exec (.aspWrback x c m) s = .next ((b.aspErr x c m.tag tsACCESS).siteWork x).kick)) ∧
  (∀ e ∈ ([(.aspRspi x c m, 0x30, false, none, false), (.aspRsps x c m, 0x31, false, none, false), (.aspRspfwds x c m, 0x32, true, none, false),
      (.aspRspfwdi x c m, 0x33, true, none, false), (.aspRspfwdcur x c m, 0x34, true, none, false), (.aspRspwbissued x c m, 0x35, false, none, true),
      (.aspRspidata x c m, 0x40, false, some (m.data, m.poison), false)] : List (Instr × Nat × Bool × Option (List Byte × Nat) × Bool)),
    s.carries x c e.2.1 m = true → let b := s.aspFree x c (aspClass m.op) (aspCost m)
    (b.txnByTag x m.tag = none → exec e.1 s = .next b.kick) ∧
    (∀ k, b.txnByTag x m.tag = some k → k.phase = .place → exec e.1 s = .next b.kick) ∧
    (∀ k, b.txnByTag x m.tag = some k → k.phase ≠ .place → exec e.1 s = .next ((b.snoopAnswer k.line x e.2.2.1 e.2.2.2.1 e.2.2.2.2).siteWork x).kick)) ∧
  (s.carries x c 0x36 m = true → let b := s.aspFree x c 3 (aspCost m)
    (b.mem.txns = [] → exec (.aspCmpack x c m) s = .next b.kick) ∧
    (∀ k q, b.mem.txns = [k] → k.phase = .ack → k.req = some q → q.agent = x → q.acc.id = aspId c m.tag →
      exec (.aspCmpack x c m) s = .next ((b.cmpAck k.line x).siteWork x).kick)) ∧
  (s.carries x c 0x41 m = true → let b := s.aspFree x c 4 (aspCost m)
    (natBit m.fwdTo 7 = false → let y := m.fwdSite % 4
      let h := m.fwdTo % 64
      let v : State := { b with mem := { b.mem with txns := b.mem.txns.map (fun k =>
        if k.req.any (fun r => r.agent = y && r.acc.id = aspId h m.fwdTag) && k.phase = .snoop then { k with fwdM := decide (m.arg8 = 4) } else k) } }
      ((b.siteUp y && b.chanIn y h) = true → exec (.aspFwd x c m) s = .next (v.aspReply y h
        { op := 0x42, tag := m.fwdTag, arg8 := m.arg8, addr := m.addr, data := m.data, poison := m.poison })) ∧
      ((b.siteUp y && b.chanIn y h) = false → exec (.aspFwd x c m) s = .next v)) ∧
    (natBit m.fwdTo 7 = true → b.txnByTag x m.tag = none → exec (.aspFwd x c m) s = .next b)) ∧
  (∀ e ∈ ([(.aspHintaccept x c m, 0x37, true), (.aspHintdecline x c m, 0x38, false)] : List (Instr × Nat × Bool)), s.carries x c e.2.1 m = true →
    let b := s.aspFree x c 3 (aspCost m)
    (b.txnByTag x m.tag = none → exec e.1 s = .next b.kick) ∧
    (∀ k, b.txnByTag x m.tag = some k → k.phase ≠ .place → exec e.1 s = .next b.kick) ∧
    (∀ k, b.txnByTag x m.tag = some k → k.phase = .place → ∃ v : State, exec e.1 s = .next (((v.closeTxn k.id).settle k.slice).siteWork x).kick ∧
      (e.2.2 = true → (b.filterWay k.slice k.line ≠ none ∨ b.filterFree k.slice k.line ≠ none) → v.filterOf k.slice k.line = some ⟨k.line, k.part, .o x, 2 ^ x⟩) ∧
      v = { b with regs := v.regs, mem := { b.mem with filter := v.mem.filter, fplru := v.mem.fplru } } ∧
      (e.2.2 = false → b.onlyRegs v))) ∧
  (s.carries x c 0x39 m = true → exec (.aspXlateinvdone x c m) s = .next ((s.aspFree x c 3 (aspCost m)).siteInvEnd x m.tag).atuWork)

/-- R455 to R463.
Model's choices in it: log entries 145, 146, 149, 150, 169. -/
def Obligations.TimeTree : Prop := ∀ (s : State),
  (∀ r, s.opens r cMGT 0 = true → exec (.timeSyncCmd r) s = .next (s.arrived r).syncStart ∧
    ∃ u : State, exec (.timeStop r) s = .next u ∧ u.timeState = tmOFF ∧ u.mil.time = { children := s.mil.time.children } ∧
    u.mil.ports = s.mil.ports ∧ u = { s.arrived r with regs := u.regs, mil := u.mil } ∧ (s.arrived r).regsBut u [(pMGT, PgMGT.TIME_STATUS_STATE.off)]) ∧
  (∀ port tick, port < 12 → ∃ u : State, exec (.timePing port tick) s = .next u ∧ (∃ turn, u.out = s.out ++ [.timePkt port 1 [tick, turn]]) ∧
    u = { s with out := u.out, freeCtr := s.freeCtr + 1 }) ∧
  (∀ port turn round, s.timeState = tmMEASURING → s.portUp port = true → NMap.find? s.mil.time.delay port = none →
    (NMap.getD s.mil.time.samples [] port).length < 1023 → ∃ u : State, exec (.timePong port turn round) s = .next u ∧
    NMap.getD u.mil.time.samples [] port = NMap.getD s.mil.time.samples [] port ++ [(round - turn) / 2] ∧
    u.mil.time = { s.mil.time with samples := u.mil.time.samples } ∧ u = { s with mil := { s.mil with time := u.mil.time }, out := u.out }) ∧
  (∀ port rootTick period lead depth phase, s.isRoot = false → s.parentPort = some port → (s.timeState = tmLOCKING ∨ s.timeState = tmRUNNING) →
    exec (.timeSync port rootTick period lead depth phase) s = .next (s.syncIn port rootTick period lead depth phase) ∧
    (64 ≤ depth → ∃ u : State, exec (.timeSync port rootTick period lead depth phase) s = .next u ∧ u.timeState = tmLOST ∧ u.mil = s.mil)) ∧
  (∀ port through node locked, s.childPorts.contains port = true → ∃ v : State, exec (.timeReady port through node locked) s = .next (v.timeReport false) ∧
    NMap.find? v.mil.time.children port = some (some (through, node, locked)) ∧ v = { s with mil := { s.mil with time := v.mil.time } } ∧
    v.mil.time = { s.mil.time with children := v.mil.time.children }) ∧
  (∀ port, port < 12 → ∃ u : State, exec (.timeAdopt port) s = .next u ∧ NMap.find? u.mil.time.children port = some none ∧
    (∀ q, q ≠ port → NMap.find? u.mil.time.children q = NMap.find? s.mil.time.children q) ∧ u = { s with mil := { s.mil with time := u.mil.time } }) ∧
  (∀ port tick, s.parentPort = some port → (s.timeState = tmLOCKING ∨ s.timeState = tmRUNNING) →
    exec (.timeStart port tick) s = .next ((s.setTime { s.mil.time with epoch := some tick }).toChildren 7 [tick]).bootCheck) ∧
  (s.isRoot = true → (s.timeState = tmLOCKING ∨ s.timeState = tmRUNNING) → exec .syncPeriod s = .next s.syncOut.bootCheck) ∧
  (∀ p, s.isRoot = false → s.timeState ≠ tmOFF → s.parentPort = some p → exec .parentFail s = .next (s.parentFail p))

/-- R461, R464, R474 to R477.
Model's choices in it: log entries 145, 147. -/
def Obligations.Boundaries : Prop := ∀ (s : State),
  (∀ port n tick culprit, s.parentPort = some port → s.timeState = tmRUNNING → exec (.timeGo port n tick culprit) s = .next (s.sendGo n tick culprit) ∧
    (s.tick ≤ tick → ∃ u : State, exec (.timeGo port n tick culprit) s = .next u ∧ u.mil.time.go = s.mil.time.go ++ [(n, tick, culprit)] ∧
      u.mil.time.hold = none ∧ u.mil.ports = s.mil.ports ∧ u = { s with mil := u.mil, out := u.out })) ∧
  (∀ port n, s.parentPort = some port → s.timeState = tmRUNNING → ∃ u : State, exec (.timeHold port n) s = .next u ∧
    u.mil.time = { s.mil.time with hold := some n } ∧ u = { s with mil := { s.mil with time := u.mil.time }, out := u.out } ∧
    u.out = s.out ++ s.childPorts.map (fun p => .timePkt p 5 [n])) ∧
  (∀ e, s.mil.time.epoch = some e → e ≤ s.tick → exec .epochReached s = .next (s.epochAt e)) ∧
  (∀ e, s.mil.time.epoch = some e → s.tick < e → exec .epochReached s = .next s) ∧
  (s.isRoot = true → s.timeState = tmRUNNING → exec .rootDecision s = .next s.rootDecide) ∧
  (∀ n tick culprit rest, s.mil.time.go = (n, tick, culprit) :: rest → (s.timeState = tmRUNNING ∨ s.timeState = tmLOST) →
    (tick ≤ s.tick → exec .milestoneBoundary s = .next ((s.setTime { s.mil.time with go := rest }).moveTo n tick culprit)) ∧
    (s.tick < tick → exec .milestoneBoundary s = .next s)) ∧
  (∀ p entry e r, (s.milPort p).ent? entry = some e →
    (s.milPort p).runs.find? (fun r => r.ent = entry && r.endTick = none && 0 ≤ msDiff s.msNow ((r.occ + e.span) % 2 ^ 48)) = some r →
    exec (.spanEnd p entry) s = .next (s.spanEnd p e r) ∧
    ((e.kind = 2 ∨ e.kind = 4 ∨ r.done = true) → ∃ u : State, exec (.spanEnd p entry) s = .next u ∧ u = { s with mil := u.mil } ∧ u.mil.time = s.mil.time)) ∧
  (s.held = true → exec .stretchLimit s = .next (s.milFailAll 3)) ∧ (s.held = false → exec .stretchLimit s = .next s) ∧
  (∀ p entry e, (s.milPort p).ent? entry = some e → (e.kind = 2 ∨ e.kind = 4) →
    (s.milPort p).runs.any (fun r => r.ent = entry && r.endTick ≠ none && decide (r.moved < r.need)) = true →
    exec (.recvLost p entry) s = .next (s.milFailAll 5))

/-- R465 to R472, R478 to R484.
Model's choices in it: log entries 151, 152, 153, 154, 157, 158. -/
def Obligations.SchedulesAndPlies : Prop := ∀ (s : State),
  (∀ r p, p < 12 → s.opens r cMIL p = true → s.flag (pg cMIL p) PgMIL.LOAD_CMD_BUSY = false →
    (s.milCommit p = true → ∃ u : State, exec (.schedLoad r p) s = .next u ∧ u.fld (pg cMIL p) PgMIL.LOAD_CMD_RESULT = 4 ∧ (s.arrived r).onlyRegs u ∧
      exec (.schedClear r p) s = .next u) ∧
    (s.milCommit p = false → ∃ u : State, exec (.schedLoad r p) s = .next u ∧ (u.milPort p).staged = none ∧ (u.milPort p).active = (s.milPort p).active ∧
      u.flag (pg cMIL p) PgMIL.LOAD_CMD_BUSY = true ∧ u = { s.arrived r with regs := u.regs, mil := u.mil }) ∧
    (s.milCommit p = false → ∃ u : State, exec (.schedClear r p) s = .next u ∧ (u.milPort p).staged = none ∧ (u.milPort p).active = (s.milPort p).active ∧
      u.fld (pg cMIL p) PgMIL.LOAD_CMD_RESULT = 0 ∧ u = { s.arrived r with regs := u.regs, mil := u.mil })) ∧
  (∀ p image, p < 12 → s.flag (pg cMIL p) PgMIL.LOAD_CMD_BUSY = true → exec (.schedLoadDone p image) s = .next (s.schedLoaded p image)) ∧
  (∀ r k, k < 1024 → s.opens r cCOL 0 = true → s.flag pCOL PgCOL.PLY_CMD_BUSY = false →
    let a := (s.arrived r).setFld pCOL PgCOL.PLY_CMD_PLY k
    (∀ d b y, a.plyDesc d = some b → checkOk (b.take 64) = true → a.plyOf b = some y → s.ply? k = none → s.plyInUse k = false → ∃ u : State,
      exec (.plySet r k d) s = .next u ∧
      u.ply? k = some y ∧ (∀ j, j ≠ k → u.ply? j = s.ply? j) ∧ u.fld pCOL PgCOL.PLY_CMD_RESULT = 0 ∧ u.mil.colls = s.mil.colls ∧ u.mem = s.mem) ∧
    (∀ d b, a.plyDesc d = some b → checkOk (b.take 64) = false → ∃ u : State, exec (.plySet r k d) s = .next u ∧ u.mil = s.mil ∧ u.fld pCOL PgCOL.PLY_CMD_RESULT = 1) ∧
    (s.plyInUse k = true → ∃ u : State, exec (.plyClear r k) s = .next u ∧ u.mil = s.mil ∧ u.fld pCOL PgCOL.PLY_CMD_RESULT = 3) ∧
    (s.plyInUse k = false → ∃ u : State, exec (.plyClear r k) s = .next u ∧ u.ply? k = none ∧ (∀ j, j ≠ k → u.ply? j = s.ply? j) ∧
      u.fld pCOL PgCOL.PLY_CMD_RESULT = 0) ∧
    (∃ u : State, exec (.plyQuery r k) s = .next u ∧ u.mil = s.mil ∧ natBit (u.fld pCOL PgCOL.PLY_ARG_DESC) 63 = (s.ply? k).isSome)) ∧
  (∀ t v, s.pick 4 (fun t => s.milBound (t.body.getD 0 0).toNat < 1024) = some (t, v) → exec .xferDispatch s = .next (v.xferBind t)) ∧
  (∀ t v sp dp, s.mil.colls = [] → s.pick 5 (fun t =>
      let k := leNat (t.body.take 2)
      s.mil.colls.length < 16 && !s.mil.colls.any (fun c => c.ply = k) &&
        (List.range 12).all (fun p => !(match (s.milPort p).active with | some x => x.plies.contains k | none => false) || s.milBound p < 1024)) = some (t, v) →
    exec (.collDispatch sp dp) s = .next (v.collStart t sp dp).kick) ∧
  (∀ a p, a < 6 → (p.ty = 4 → exec (.sched a p) s = .next (s.schedIn a p).kick) ∧ (p.ty = 5 → exec (.collPacket a p) s = .next (s.collPacket a p).kick)) ∧
  (∀ a p, s.jobMatches p = false → s.schedIn a p = s.count (pg cFAB a) PgFAB.PERF2_DROPPED 1 ∧ s.collPacket a p = s.count (pg cFAB a) PgFAB.PERF2_DROPPED 1) ∧
  (∀ t c y, s.coll? t = some c → c.phase = 1 → s.ply? c.ply = some y → y.sched = false →
    exec (.collStepTimeout t) s = .next (s.collEnd t tsFABRIC_ERROR).kick)

/-- R485 to R487.
Model's choices in it: log entries 161. -/
def Obligations.Images : Prop := ∀ (s : State),
  (∀ r image, image < 65536 → s.opens r cMGT 0 = true →
    (∃ u : State, exec (.imgArm r image) s = .next u ∧ u.mil.img = { image := image } ∧ u.imgState = imRECEIVING ∧
      u = { s.arrived r with regs := u.regs, mil := { s.mil with img := u.mil.img } }) ∧
    (∃ u : State, exec (.imgAbort r image) s = .next u ∧ u.mil.img = {} ∧ u.imgState = imIDLE ∧
      u = { s.arrived r with regs := u.regs, mil := { s.mil with img := u.mil.img } }) ∧
    (s.childPorts = [] → ∀ chunks, chunks ≤ 16384 → ∃ u : State, exec (.imgSend r image chunks) s = .next u ∧
      u.mil.img = { image := image, chunks := chunks, held := List.range chunks } ∧ u.imgState = imSENDING ∧
      u = { s.arrived r with regs := u.regs, mil := { s.mil with img := u.mil.img } })) ∧
  (∀ port image offset data good, port < 12 → (s.imgState = imRECEIVING ∨ s.imgState = imREPAIRING) → s.mil.img.image = image →
    exec (.imageData port image offset data good) s = .next (s.imgPiece offset data good).kick ∧
    (s.mil.img.held.contains (offset / 4096) = true → exec (.imageData port image offset data good) s = .next s.kick)) ∧
  (∀ port image offset, port < 12 → (s.mil.img.image ≠ image ∨ s.mil.img.held.contains (offset / 4096) = false) →
    exec (.imageReq port image offset) s = .next (s.emit (.imagePkt port 2 image offset []))) ∧
  (∀ port image offset, port < 12 → s.mil.img.image = image → s.imgState ≠ imIDLE → s.mil.img.held.contains (offset / 4096) = true →
    exec (.imageReq port image offset) s = .next (s.chunkOut port (offset / 4096)).kick) ∧
  (∀ port offset tried, s.imgState = imREPAIRING → s.mil.img.asking = some (offset / 4096, tried) → tried.getLast? = some port →
    exec (.imageNotHeld port s.mil.img.image offset) s = .next (s.imgAskFrom (offset / 4096) tried)) ∧
  (∀ port chunks, port < 12 → s.imgState = imRECEIVING → chunks ≤ 16384 → (∀ c, c < chunks → s.mil.img.held.contains c = true) → ∃ u : State,
    exec (.imageEnd port s.mil.img.image chunks) s = .next u ∧ u.imgState = imCOMPLETE ∧ u.mil.img = { s.mil.img with chunks := chunks } ∧
    Out.imageReady s.mil.img.image chunks ∈ u.out) ∧
  (s.imgState = imREPAIRING → s.mil.img.missing = [] → exec .imageRepairRound s = .next s.imgComplete) ∧
  (s.imgState = imREPAIRING → s.mil.img.missing ≠ [] → s.fld pMGT PgMGT.IMG_STATUS_ROUND = 3 → ∃ u : State, exec .imageRepairRound s = .next u ∧
    u.imgState = imINCOMPLETE ∧ u.out = s.out ++ [.mgmtIrq pMGT] ∧ u.mil.img.held = s.mil.img.held)

/-- R520, R522, R525, R527, R529 to R531.
Model's choices in it: log entries 164, 168, 183. -/
def Obligations.EthernetTraffic : Prop := ∀ (s : State),
  (∀ e kind prio bytes, (2 ≤ e ∨ s.ethUp e = false) → exec (.ethFrameReceive e kind prio bytes) s = .next s) ∧
  (∀ e prio bytes, e < 2 → s.ethUp e = true → ∃ u : State, exec (.ethFrameReceive e 1 prio bytes) s = .next u ∧ (u.ethPort e).paused = prio % 256 ∧
    (u.ethPort e).buf = (s.ethPort e).buf ∧ (u.ethPort e).xoff = (s.ethPort e).xoff ∧ u.eth.qps = s.eth.qps ∧ u = { s with regs := u.regs, eth := u.eth }) ∧
  (∀ e kind prio bytes, e < 2 → s.ethUp e = true → 2 ≤ kind → ∃ u : State, exec (.ethFrameReceive e kind prio bytes) s = .next u ∧
    (u.ethPort e).buf = (s.ethPort e).buf ∧ u.fld (pg cETH e) PgETH.PERF1_DROPPED =
      min (2 ^ (PgETH.PERF1_DROPPED.hi + 1 - PgETH.PERF1_DROPPED.lo) - 1) (s.fld (pg cETH e) PgETH.PERF1_DROPPED + 1) ∧
    u.eth.qps = s.eth.qps ∧ u = { s with regs := u.regs, eth := u.eth }) ∧
  (∀ e prio bytes, e < 2 → s.ethUp e = true →
    (1024 * 1024 < (s.ethPort e).bytes + bytes → ∃ u : State, exec (.ethFrameReceive e 0 prio bytes) s = .next u ∧ (u.ethPort e).buf = (s.ethPort e).buf ∧
      natBit (u.word (pg cETH e) 0x30).toNat 3 = true ∧ u = { s with regs := u.regs, eth := u.eth, host := u.host, out := u.out }) ∧
    ((s.ethPort e).bytes + bytes ≤ 1024 * 1024 → ∃ v : State, exec (.ethFrameReceive e 0 prio bytes) s = .next ((v.pfcCheck e).ethWork e) ∧
      (v.ethPort e).buf = (s.ethPort e).buf ++ [(prio % 8, bytes)] ∧ v.eth.qps = s.eth.qps ∧ v = { s with regs := v.regs, eth := v.eth })) ∧
  (∀ e up, (2 ≤ e ∨ (up = true ∧ s.ethMayUp e = false)) → exec (.ethLinkChange e up) s = .next s) ∧
  (∀ e up, e < 2 → (up = false ∨ s.ethMayUp e = true) → ∃ u : State, exec (.ethLinkChange e up) s = .next u ∧ u.ethUp e = up ∧ u.eth.qps = s.eth.qps ∧
    (up = true → (u.ethPort e).lane = none) ∧ (s.ethUp e ≠ up → natBit (u.word (pg cETH e) 0x30).toNat 0 = true) ∧
    u = { s with regs := u.regs, eth := u.eth, host := u.host, out := u.out }) ∧
  (∀ e lane, (2 ≤ e ∨ 8 ≤ lane ∨ s.live (.eth e) = false ∨ ((s.ethPort e).lane ≠ some lane ∧ s.ethUp e = false)) → exec (.ethLaneLockLoss e lane) s = .next s) ∧
  (∀ e lane, e < 2 → lane < 8 → s.live (.eth e) = true →
    ((s.ethPort e).lane ≠ some lane → s.ethUp e = true → ∃ u : State, exec (.ethLaneLockLoss e lane) s = .next u ∧ u.ethUp e = false ∧
      (u.ethPort e).lane = some lane ∧ u.fld (pg cETH e) PgETH.STATUS_FEC_LOCK = 0xFF - 2 ^ lane ∧ u.eth.qps = s.eth.qps ∧
      u = { s with regs := u.regs, eth := u.eth, host := u.host, out := u.out }) ∧
    ((s.ethPort e).lane = some lane → ∃ v : State, exec (.ethLaneLockLoss e lane) s = .next (v.faultUnit (.eth e) scLINK) ∧ v.ethUp e = false ∧
      (v.ethPort e).lane = none ∧ v = { s with regs := v.regs, eth := v.eth, host := v.host, out := v.out })) ∧
  (∀ q r, 16384 ≤ q → ∀ c ∈ [Instr.rdmaWriteIn q r, .rdmaReadIn q r, .rdmaSendIn q r, .rdmaAtomicIn q r], exec c s = .next s.kick) ∧
  (∀ q r, q < 16384 → let f := s.takeFrame (s.qp q).ctx.port
    let x := f.qp q
    ∀ c ∈ [Instr.rdmaWriteIn q r, .rdmaReadIn q r, .rdmaSendIn q r, .rdmaAtomicIn q r],
    (x.st ≠ 1 → exec c s = .next f.kick) ∧
    (x.st = 1 → r.psn ≠ x.rxPsn → (r.psn + 2 ^ 24 - x.rxPsn) % 2 ^ 24 < 2 ^ 23 → exec c s = .next (f.rdmaReply q x.rxPsn 1 0 []).kick) ∧
    (x.st = 1 → r.psn ≠ x.rxPsn → 2 ^ 23 ≤ (r.psn + 2 ^ 24 - x.rxPsn) % 2 ^ 24 → exec c s = .next (f.rdmaReply q r.psn 0 0 []).kick)) ∧
  (∀ q r, s.rdmaReady q r = true → let f := s.takeFrame (s.qp q).ctx.port
    let n := f.recvRead q r
    (f.recvRoom q n = true → exec (.rdmaSendIn q r) s = .next (f.rdmaQueue q 2 1 n none).kick) ∧
    (f.recvRoom q n = false → exec (.rdmaSendIn q r) s = .next (f.rnrNak q r).kick) ∧
    (r.imm ≠ none → f.recvRoom q n = false → exec (.rdmaWriteIn q r) s = .next (f.rnrNak q r).kick) ∧
    (∀ e ∈ ([(.rdmaWriteIn q r, 0, 1, 1, (if r.imm = none then r else n), decide (r.imm = none) || f.recvRoom q n, false, true),
        (.rdmaReadIn q r, 1, 0, (f.qp q).ctx.packets r.len, r, true, true, false), (.rdmaAtomicIn q r, 3, 2, 1, { r with len := 8 }, true, true, true)] :
        List (Instr × Nat × Nat × Nat × RdmaReq × Bool × Bool × Bool)), e.2.2.2.2.2.1 = true → let k := e.2.2.2.2.1
      (f.mrCheck q e.2.2.1 k = none → exec e.1 s = .next (f.rdmaRefuse q k.psn).kick) ∧
      (∀ m, f.mrCheck q e.2.2.1 k = some m →
        (((m.base + k.va) / 2 ^ 62 ≠ 0 ∨ k.len = 0) → exec e.1 s = .next (f.rdmaQueue q e.2.1 e.2.2.2.1 k none).kick) ∧
        ((m.base + k.va) / 2 ^ 62 = 0 → k.len ≠ 0 → exec e.1 s =
          .next (f.rdmaQueue q e.2.1 e.2.2.2.1 k (some ((m.base + k.va) % 2 ^ 57, k.len, e.2.2.2.2.2.2.1, e.2.2.2.2.2.2.2))).kick)))) ∧
  (∀ q psn a, ((16384 ≤ q ∨ (s.qp q).st ≠ 1) → exec (.rdmaAckIn q psn a) s = .next s) ∧
    (q < 16384 → (s.qp q).st = 1 → exec (.rdmaAckIn q psn a) s = .next ((s.takeFrame (s.qp q).ctx.port).ackIn q psn a).kick)) ∧
  (∀ q w rest psn, (s.qp q).st = 1 → (s.qp q).runs = w :: rest → psnLe w.lastPsn psn = false →
    (s.ackIn q psn .ack = s.putWqe q { w with tries := 0, rnrs := 0 })) ∧
  (∀ q, (s.qp q).runs = [] → exec (.rdmaAckTimeout q) s = .next s ∧ exec (.rnrTimer q) s = .next s) ∧
  (∀ q w rest, (s.qp q).runs = w :: rest →
    ((w.rnrWait = true ∨ w.storing = true) → exec (.rdmaAckTimeout q) s = .next s) ∧
    ((s.qp q).st = 1 → w.rnrWait = false → w.storing = false →
      ((s.qp q).ctx.retry ≤ w.tries + 1 → exec (.rdmaAckTimeout q) s = .next (s.wqeDone q w csRETRY 0)) ∧
      (w.tries + 1 < (s.qp q).ctx.retry → exec (.rdmaAckTimeout q) s = .next ((s.putWqe q { w with tries := w.tries + 1 }).resendFrom q (w :: rest)))) ∧
    (w.rnrWait = false → exec (.rnrTimer q) s = .next s) ∧
    (w.rnrWait = true → exec (.rnrTimer q) s = .next ((s.putWqe q { w with rnrWait := false }).resendFrom q ({ w with rnrWait := false } :: rest)))) ∧
  (∀ q, (s.qp q).st ≠ 1 → exec (.cnpReceive q) s = .next s ∧ exec (.rateRecovery q) s = .next s) ∧
  (∀ q, (s.qp q).st = 1 → ∀ e ∈ ([(.cnpReceive q, (s.qp q).rate / 2), (.rateRecovery q, min (2 ^ 32) ((s.qp q).rate + 2 ^ 28))] : List (Instr × Nat)),
    ∃ u : State, exec e.1 s = .next u ∧ u.qp q = { s.qp q with rate := e.2 } ∧ (∀ j, j ≠ q → u.qp j = s.qp j) ∧
    u = { s with eth := { s.eth with qps := u.eth.qps } })

/-- R523 to R526, R528 to R530, R532.
Model's choices in it: log entries 162, 163, 165, 166. -/
def Obligations.QueuePairs : Prop := ∀ (s : State),
  (∀ r, s.opens r cETH 0 = true → let a := s.arrived r
  (s.flag pETH PgETH.QP_CMD_BUSY = true → ∀ part q b, ∀ c ∈ [Instr.qpCreate r part q b, .qpDestroy r part q, .qpQuery r part q],
    exec c s = .next (a.order pETH r 0x138)) ∧
  (s.flag pETH PgETH.MR_CMD_BUSY = true → ∀ m k, ∀ c ∈ [Instr.mrRegister r m k, .mrInvalidate r m k], exec c s = .next (a.order pETH r 0x148)) ∧
  (s.flag pETH PgETH.QP_CMD_BUSY = false → ∀ part q, part < 16 → q < 16384 →
    (∀ ctx, let got := (((a.setFld pETH PgETH.QP_CMD_PART part).setFld pETH PgETH.QP_CMD_QP q).qpCtxAt part).getD ctx
    (got = none → ∃ u : State, exec (.qpCreate r part q ctx) s = .next u ∧ u.qpAnswered 1 (s.qp q).st ∧ a.onlyIrq u) ∧
    (∀ b c, got = some b → Sys2Proof.Machine.checkOk (b.take 128) = true → qpCtxOf b = some c →
      ((s.live (.eth c.port) = false ∨ (c.event ≠ 0xFFFF ∧ s.eventIn part c.event = false)) →
        ∃ u : State, exec (.qpCreate r part q ctx) s = .next u ∧ u.qpAnswered 1 (s.qp q).st ∧ a.onlyIrq u) ∧
      (s.live (.eth c.port) = true → (c.event = 0xFFFF ∨ s.eventIn part c.event = true) →
        ((s.qp q).st ≠ 0 → ∃ u : State, exec (.qpCreate r part q ctx) s = .next u ∧ u.qpAnswered 2 (s.qp q).st ∧ a.onlyIrq u) ∧
        ((s.qp q).st = 0 → s.fld (pg cPRT part) PgPRT.ETH_QUOTA_QP_LIMIT ≤ s.qpsOf part →
          ∃ u : State, exec (.qpCreate r part q ctx) s = .next u ∧ u.qpAnswered 4 0 ∧ a.onlyIrq u) ∧
        ((s.qp q).st = 0 → s.qpsOf part < s.fld (pg cPRT part) PgPRT.ETH_QUOTA_QP_LIMIT → s.ownsPasid part c.pasid = false →
          ∃ u : State, exec (.qpCreate r part q ctx) s = .next u ∧ u.qpAnswered 5 0 ∧ a.onlyIrq u) ∧
        ((s.qp q).st = 0 → s.qpsOf part < s.fld (pg cPRT part) PgPRT.ETH_QUOTA_QP_LIMIT → s.ownsPasid part c.pasid = true →
          ∃ u : State, exec (.qpCreate r part q ctx) s = .next u ∧ u.qpAnswered 0 1 ∧
          u.qp q = { st := 1, part := part, ctx := c, txPsn := fieldAt b 0x2C 4, rxPsn := fieldAt b 0x30 4 } ∧ (∀ j, j ≠ q → u.qp j = s.qp j) ∧
          u = { a with regs := u.regs, host := u.host, out := u.out, eth := u.eth })))) ∧
    (((s.qp q).st = 0 ∨ (s.qp q).part ≠ part) →
      (∃ u : State, exec (.qpDestroy r part q) s = .next u ∧ u.qpAnswered 3 (s.qp q).st ∧ a.onlyIrq u) ∧
      (∃ u : State, exec (.qpQuery r part q) s = .next u ∧ u.qpAnswered 3 0 ∧ a.onlyIrq u)) ∧
    ((s.qp q).st ≠ 0 → (s.qp q).part = part →
      (∃ u : State, exec (.qpQuery r part q) s = .next u ∧ u.qpAnswered 0 (s.qp q).st ∧ a.onlyIrq u) ∧
      (∃ v : State, exec (.qpDestroy r part q) s = .next (v.qpGone q) ∧ (v.qp q).st = 2 ∧ (v.qp q).dying = true ∧ (v.qp q).runs = [] ∧ (v.qp q).inq = [] ∧
        (v.qp q).cqes.length = (s.qp q).cqes.length + (s.qp q).runs.length + (s.qp q).rqFree ∧ v.flag pETH PgETH.QP_CMD_BUSY = true ∧
        (∀ j, j ≠ q → v.qp j = s.qp j)))) ∧
  (s.flag pETH PgETH.MR_CMD_BUSY = false → ∀ m k, m < 16384 → k < 256 →
    let part := s.fld pETH PgETH.MR_ARG1_PART
    let base := s.fld pETH PgETH.MR_ARG0_BASE
    let hint := s.fld pETH PgETH.MR_ARG1_HINT
    let bad := base / 2 ^ 62 = 3 ∨ natBits base 61 57 ≠ 0 ∨ (hint / 2 ^ 13 = 2 ∧ 4 ≤ hint % 2 ^ 13) ∨ (hint / 2 ^ 13 ≠ 2 ∧ hint % 2 ^ 13 ≠ 0)
    let done (u : State) (code : Nat) : Prop := u.fld pETH PgETH.MR_CMD_RESULT = code ∧ natBit (u.word pETH 0x30).toNat 2 = true
    (bad → ∃ u : State, exec (.mrRegister r m k) s = .next u ∧ done u 1 ∧ a.onlyIrq u) ∧
    (¬ bad → (∀ x, s.mr m = some x → x.part ≠ part → ∃ u : State, exec (.mrRegister r m k) s = .next u ∧ done u 3 ∧ a.onlyIrq u) ∧
      (s.mr m = none → s.fld (pg cPRT part) PgPRT.ETH_QUOTA_MR_LIMIT ≤ s.mrsOf part → ∃ u : State, exec (.mrRegister r m k) s = .next u ∧ done u 4 ∧ a.onlyIrq u) ∧
      (((∃ x, s.mr m = some x ∧ x.part = part) ∨ (s.mr m = none ∧ s.mrsOf part < s.fld (pg cPRT part) PgPRT.ETH_QUOTA_MR_LIMIT)) →
        ∃ u : State, exec (.mrRegister r m k) s = .next u ∧ done u 0 ∧
        u.mr m = some ⟨part, k, base, s.fld pETH PgETH.MR_ARG1_ACCESS, hint, s.fld pETH PgETH.MR_ARG1_LENGTH⟩ ∧ (∀ j, j ≠ m → u.mr j = s.mr j) ∧
        u = { a with regs := u.regs, host := u.host, out := u.out, eth := u.eth })) ∧
    ((∀ x, s.mr m = some x → x.part ≠ part) → ∃ u : State, exec (.mrInvalidate r m k) s = .next u ∧ done u 3 ∧ a.onlyIrq u) ∧
    (∀ x, s.mr m = some x → x.part = part → ∃ u : State, exec (.mrInvalidate r m k) s = .next u ∧ done u 0 ∧ u.mr m = none ∧ (∀ j, j ≠ m → u.mr j = s.mr j) ∧
      u = { a with regs := u.regs, host := u.host, out := u.out, eth := u.eth })) ∧
  (∀ q i, q < 16384 → i < 2 ^ 32 → let x := s.qp q
    (x.st = 0 → ∀ c ∈ [Instr.ethDbSq r q i, .ethDbRq r q i, .ethDbCq r q i], exec c s = .next a) ∧
    (x.st = 1 → ∀ e ∈ ([(.ethDbSq r q i, x.sqTail, x.sqHead, 2 ^ x.ctx.sqLog, { x with sqTail := i }),
        (.ethDbRq r q i, x.rqTail, x.rqHead, (if x.ctx.rqLog = 0 then 0 else 2 ^ x.ctx.rqLog), { x with rqTail := i }),
        (.ethDbCq r q i, x.cqHead, x.cqHead, (x.cqTail + 2 ^ 32 - x.cqHead) % 2 ^ 32, { x with cqHead := i })] : List (Instr × Nat × Nat × Nat × QpSt)),
      let ok := (i + 2 ^ 32 - e.2.2.1) % 2 ^ 32 ≤ e.2.2.2.1 ∧ (i + 2 ^ 32 - e.2.1) % 2 ^ 32 < 2 ^ 31
      (i = e.2.1 → exec e.1 s = .next a) ∧
      (i ≠ e.2.1 → ok → ∃ u : State, exec e.1 s = .next u ∧ u.qp q = e.2.2.2.2 ∧ (∀ j, j ≠ q → u.qp j = s.qp j) ∧
        u = { a with eth := { s.eth with qps := u.eth.qps } }) ∧
      (i ≠ e.2.1 → ¬ ok → exec e.1 s = .next (a.qpError q))))) ∧
  (∀ q w b, let x := s.qp q
    ∀ e ∈ ([(.wqeWrite q w b, 0), (.wqeWriteImm q w b, 1), (.wqeSend q w b, 2), (.wqeSendImm q w b, 3), (.wqeRead q w b, 4), (.wqeFetchAdd q w b, 5),
      (.wqeCmpSwap q w b, 6)] : List (Instr × Nat)),
    let y := s.sendEntry q e.2 w
    let d := s.sendBuf q e.2 y.2 b
    (y.1 ≠ e.2 → exec e.1 s = .next s) ∧
    (y.1 = e.2 →
    ((x.st = 0 ∨ x.sqHead = x.sqTail) → exec e.1 s = .next s) ∧
    (x.st = 2 → x.sqHead ≠ x.sqTail → ∃ u : State, exec e.1 s = .next u ∧
      u.qp q = { x with sqHead := (x.sqHead + 1) % 2 ^ 32, cqes := x.cqes ++ [⟨some y.2.wrId, e.2, csFLUSHED, 0, 0, false⟩] } ∧
      (∀ j, j ≠ q → u.qp j = s.qp j) ∧ u = { s with eth := { s.eth with qps := u.eth.qps } }) ∧
    (x.st = 1 → x.sqHead ≠ x.sqTail →
      ((s.accepts (pg cETH x.ctx.port) = false ∨ (y.2.fence = true ∧ x.runs.any (fun r => 4 ≤ r.op) = true) ∨
        natBit (s.ethPort x.ctx.port).paused x.ctx.prio = true) → exec e.1 s = .next s) ∧
      (s.accepts (pg cETH x.ctx.port) = true → (y.2.fence = false ∨ x.runs.any (fun r => 4 ≤ r.op) = false) →
        natBit (s.ethPort x.ctx.port).paused x.ctx.prio = false → ∃ (v : State) (k : WqeRun), k.idx = x.sqHead ∧ k.op = e.2 ∧ k.wqe = y.2 ∧ k.psn = x.txPsn ∧
        k.packets = x.ctx.packets y.2.length ∧ v = { s with eth := { s.eth with qps := v.eth.qps } } ∧ (∀ j, j ≠ q → v.qp j = s.qp j) ∧
        (s.wqeCheck q e.2 y.2 d ≠ 0 → v.qp q = { x with sqHead := (x.sqHead + 1) % 2 ^ 32, runs := x.runs ++ [k] } ∧
          exec e.1 s = .next (v.wqeDone q k (s.wqeCheck q e.2 y.2 d) 0)) ∧
        (s.wqeCheck q e.2 y.2 d = 0 → v.qp q = { x with sqHead := (x.sqHead + 1) % 2 ^ 32, runs := x.runs ++ [k], txPsn := psnAdd x.txPsn k.packets } ∧
          exec e.1 s = .next (v.wqeSend q k)))))) ∧
  (∀ q n page, let x := s.qp q
    (16384 ≤ q → exec (.cqeWrite q n page) s = .next s) ∧
    (q < 16384 → x.cqes = [] → exec (.cqeWrite q n page) s = .next s.kick) ∧
    (q < 16384 → ∀ c rest, x.cqes = c :: rest → c.host = false →
      (2 ^ x.ctx.cqLog ≤ (x.cqTail + 2 ^ 32 - x.cqHead) % 2 ^ 32 → x.dying = false → exec (.cqeWrite q n page) s = .next s.kick) ∧
      ((x.cqTail + 2 ^ 32 - x.cqHead) % 2 ^ 32 < 2 ^ x.ctx.cqLog → x.dying = false →
        let i := x.cqTail % 2 ^ x.ctx.cqLog
        let ph := if natBit x.cqTail x.ctx.cqLog then !Config.firstPhase else Config.firstPhase
        ∃ v : State, v.qp q = { x with cqes := rest, flushing := false, cqTail := (x.cqTail + 1) % 2 ^ 32 } ∧ (∀ j, j ≠ q → v.qp j = s.qp j) ∧
        v = { s with eth := { s.eth with qps := v.eth.qps } } ∧
        (x.ctx.cqBase / 2 ^ 62 = 0 → page = none → exec (.cqeWrite q n page) s = .next (v.emit (.cqe q i c ph)).kick) ∧
        (x.ctx.cqBase / 2 ^ 62 ≠ 0 → ∀ d, s.objWindow x.part (x.ctx.cqBase + 32 * i) = some (.dpa d) →
          exec (.cqeWrite q n page) s = .next (((v.serveParts (.cqe x.part x.ctx.event (decide (c.status ≠ 0))) (468 + x.ctx.port) x.part 1 0 .plain 5
            [{ addr := .dpa d, len := 32, op := .write (cqeBytes q c n ph) 0 }]).emit (.cqe q i c ph)).qpGone q).kick))))

/-- The queue is the model's own; the spec lists the commands as steps, each whole and indivisible. What an empty queue does is a DESIGN CHOICE (log entry 1).
Model's choices in it: log entries 1. -/
def Obligations.StepRunsTheFront : Prop := ∀ (s : State) (c : Instr) (rest : List Instr),
  (s.pending = c :: rest → step s = exec c { s with pending := rest }) ∧ step { s with pending := c :: rest } = exec c { s with pending := rest } ∧
  (s.pending = [] → step s = .next s.ringsGo) ∧ (s.pending = [] → s.saf.ringQ = [] → step s = .next s)

/-- R56, R593 to R595 and reset columns of the register tables. OTP reading DEPLOYED is a DESIGN CHOICE (log entry 2).
Model's choices in it: log entries 2, 3, 10, 46, 210, 211. -/
def Obligations.ResetState : Prop := State.reset.pending = [] ∧ State.reset.out = [] ∧ Memory.wf State.reset.mem = true ∧ State.reset.mem.banks = [] ∧ State.reset.mem.hbm = [] ∧
  State.reset.mem.txns = [] ∧ State.reset.eth.qps = [] ∧ State.reset.fab.e2e = [] ∧ State.reset.hubReady = false ∧ State.reset.boot.pwrGood = false ∧
  State.reset.boot.perst = true ∧ State.reset.boot.running = [] ∧ State.reset.lc.state = lcDEPLOYED ∧ State.reset.lc.incomplete = false ∧
  (∀ c ∈ [cGLB, cFPD, cSKN, cHBM, cTIR, cCOH, cHNK, cSIT, cFAB, cHEP, cETH, cSAF, cPRT, cTOL, cMSH], ∀ i ∈ [0, 1, 2],
    State.reset.pageState (pg c i) = stRESET ∧ State.reset.flag (pg c i) PgHDR.PAGE_CTRL_ENABLE = false ∧ State.reset.ownerPart (pg c i) = 31) ∧
  (∀ e ∈ [(pg cSIT 0, PgSIT.CFG_MIN_CHANNELS, 32), (pg cSIT 3, PgSIT.THERM_CAP_DW, 594), (pg cSIT 1, PgSIT.TEST_DURATION_MS, 10),
      (pg cSIT 2, PgSIT.FUNC_CLASS_MIN 7, 2)], State.reset.fld e.1 e.2.1 = e.2.2)

/-- R622 and the list of steps.
Model's choices in it: log entries 5. -/
def Obligations.CommandsAnswer : Prop := ∀ (c : Instr) (s : State), ∃ t : State, exec c s = .next t ∧ t.pending = s.pending

/-- The form of the memories is the model's own (log entry 3).
Model's choices in it: log entries 3. -/
def Obligations.MemoryStaysCanonical : Prop := ∀ (s t : State), Memory.wf s.mem = true → step s = .next t → Memory.wf t.mem = true

/-- R538, R539, R541, R594.
Model's choices in it: log entries 2. -/
def Obligations.OtpBitsStay : Prop := ∀ (s t : State), step s = .next t → s.otpKept t
end

