-- ==== Sys2Proof/Laws/Bits.lean ====
section
/-! SUPPORT. Fields of a number: reading a field after one is written. -/
namespace Sys2Proof

/-- The number a field write leaves: what lies above, the field, what lies below. -/
theorem natSetBits_eq (n v : Nat) {hi lo : Nat} (h : lo ≤ hi) :
    natSetBits n hi lo v = (n / 2 ^ (hi + 1)) * 2 ^ (hi + 1) + (v % 2 ^ (hi + 1 - lo)) * 2 ^ lo + n % 2 ^ lo := by
  have hp : 2 ^ (hi + 1) = 2 ^ lo * 2 ^ (hi + 1 - lo) := by rw [← Nat.pow_add]; congr 1; omega
  have h1 := Nat.div_add_mod n (2 ^ lo)
  have h2 := Nat.div_add_mod (n / 2 ^ lo) (2 ^ (hi + 1 - lo))
  have h3 : n / 2 ^ lo / 2 ^ (hi + 1 - lo) = n / 2 ^ (hi + 1) := by rw [Nat.div_div_eq_div_mul, ← hp]
  rw [h3] at h2
  simp only [natSetBits, Nat.shiftRight_eq_div_pow, Nat.shiftLeft_eq]
  have h4 : n / 2 ^ lo = n / 2 ^ (hi + 1) * 2 ^ (hi + 1 - lo) + n / 2 ^ lo % 2 ^ (hi + 1 - lo) := by
    rw [Nat.mul_comm]; exact h2.symm
  have h5 : n = n / 2 ^ (hi + 1) * 2 ^ (hi + 1) + n / 2 ^ lo % 2 ^ (hi + 1 - lo) * 2 ^ lo + n % 2 ^ lo := by
    conv_lhs => rw [← h1, h4]
    rw [hp]; ring
  omega

theorem natSetBits_mod (n v : Nat) {hi lo : Nat} (h : lo ≤ hi) : natSetBits n hi lo v % 2 ^ lo = n % 2 ^ lo := by
  have hp : 2 ^ (hi + 1) = 2 ^ lo * 2 ^ (hi + 1 - lo) := by rw [← Nat.pow_add]; congr 1; omega
  rw [natSetBits_eq n v h, hp]
  have : n / (2 ^ lo * 2 ^ (hi + 1 - lo)) * (2 ^ lo * 2 ^ (hi + 1 - lo)) + v % 2 ^ (hi + 1 - lo) * 2 ^ lo + n % 2 ^ lo =
      n % 2 ^ lo + 2 ^ lo * (n / (2 ^ lo * 2 ^ (hi + 1 - lo)) * 2 ^ (hi + 1 - lo) + v % 2 ^ (hi + 1 - lo)) := by ring
  rw [this, Nat.add_mul_mod_self_left, Nat.mod_mod]

theorem natSetBits_low_lt (n v : Nat) {hi lo : Nat} (h : lo ≤ hi) :
    (v % 2 ^ (hi + 1 - lo)) * 2 ^ lo + n % 2 ^ lo < 2 ^ (hi + 1) := by
  have hp : 2 ^ (hi + 1) = 2 ^ lo * 2 ^ (hi + 1 - lo) := by rw [← Nat.pow_add]; congr 1; omega
  have h1 : v % 2 ^ (hi + 1 - lo) + 1 ≤ 2 ^ (hi + 1 - lo) := Nat.mod_lt _ (Nat.two_pow_pos _)
  have h2 : n % 2 ^ lo < 2 ^ lo := Nat.mod_lt _ (Nat.two_pow_pos _)
  calc (v % 2 ^ (hi + 1 - lo)) * 2 ^ lo + n % 2 ^ lo < (v % 2 ^ (hi + 1 - lo)) * 2 ^ lo + 2 ^ lo := by omega
    _ = (v % 2 ^ (hi + 1 - lo) + 1) * 2 ^ lo := by ring
    _ ≤ 2 ^ (hi + 1 - lo) * 2 ^ lo := Nat.mul_le_mul_right _ h1
    _ = 2 ^ (hi + 1) := by rw [hp]; ring

theorem natSetBits_div (n v : Nat) {hi lo : Nat} (h : lo ≤ hi) : natSetBits n hi lo v / 2 ^ (hi + 1) = n / 2 ^ (hi + 1) := by
  have hl := natSetBits_low_lt n v h
  rw [natSetBits_eq n v h, Nat.add_assoc, Nat.mul_comm, Nat.mul_add_div (Nat.two_pow_pos _), Nat.div_eq_of_lt hl, Nat.add_zero]

/-- A field reads what was written to it. -/
theorem natBits_natSetBits_self (n v : Nat) {hi lo : Nat} (h : lo ≤ hi) :
    natBits (natSetBits n hi lo v) hi lo = v % 2 ^ (hi + 1 - lo) := by
  have hp : 2 ^ (hi + 1) = 2 ^ lo * 2 ^ (hi + 1 - lo) := by rw [← Nat.pow_add]; congr 1; omega
  have hm : n % 2 ^ lo < 2 ^ lo := Nat.mod_lt _ (Nat.two_pow_pos _)
  simp only [natBits, Nat.shiftRight_eq_div_pow]
  rw [natSetBits_eq n v h, hp]
  have : n / (2 ^ lo * 2 ^ (hi + 1 - lo)) * (2 ^ lo * 2 ^ (hi + 1 - lo)) + v % 2 ^ (hi + 1 - lo) * 2 ^ lo + n % 2 ^ lo =
      2 ^ lo * (v % 2 ^ (hi + 1 - lo) + 2 ^ (hi + 1 - lo) * (n / (2 ^ lo * 2 ^ (hi + 1 - lo)))) + n % 2 ^ lo := by ring
  rw [this, Nat.mul_add_div (Nat.two_pow_pos _), Nat.div_eq_of_lt hm, Nat.add_zero, Nat.add_mul_mod_self_left, Nat.mod_mod]

theorem natBits_congr_mod {x y : Nat} {hi lo k : Nat} (hk : hi + 1 ≤ k) (h : x % 2 ^ k = y % 2 ^ k) : natBits x hi lo = natBits y hi lo := by
  have key : ∀ z : Nat, natBits z hi lo = natBits (z % 2 ^ k) hi lo := by
    intro z
    apply Nat.eq_of_testBit_eq
    intro i
    simp only [natBits, Nat.testBit_mod_two_pow, Nat.testBit_shiftRight]
    by_cases hi' : i < hi + 1 - lo
    · have : lo + i < k := by omega
      simp [this]
    · simp [hi']
  rw [key x, key y, h]

theorem natBits_congr_div {x y : Nat} {hi lo k : Nat} (hk : k ≤ lo) (h : x / 2 ^ k = y / 2 ^ k) : natBits x hi lo = natBits y hi lo := by
  have e : ∀ z : Nat, z >>> lo = z / 2 ^ k / 2 ^ (lo - k) := by
    intro z
    rw [Nat.shiftRight_eq_div_pow, Nat.div_div_eq_div_mul, ← Nat.pow_add]
    congr 2; omega
  simp only [natBits, e, h]

/-- A field that does not overlap the one written reads as before. -/
theorem natBits_natSetBits_ne (n v : Nat) {hi lo a b : Nat} (h : lo ≤ hi) (d : a < lo ∨ hi < b) :
    natBits (natSetBits n hi lo v) a b = natBits n a b := by
  rcases d with d | d
  · exact natBits_congr_mod (k := lo) (by omega) (natSetBits_mod n v h)
  · exact natBits_congr_div (k := hi + 1) (by omega) (natSetBits_div n v h)

theorem natSetBits_lt (n v : Nat) {hi lo k : Nat} (h : lo ≤ hi) (hk : hi < k) (hn : n < 2 ^ k) : natSetBits n hi lo v < 2 ^ k := by
  have hd := natSetBits_div n v h
  have h1 : n / 2 ^ (hi + 1) < 2 ^ (k - (hi + 1)) := by
    rw [Nat.div_lt_iff_lt_mul (Nat.two_pow_pos _), ← Nat.pow_add]
    have : k - (hi + 1) + (hi + 1) = k := by omega
    rwa [this]
  rw [← hd, Nat.div_lt_iff_lt_mul (Nat.two_pow_pos _), ← Nat.pow_add] at h1
  have : k - (hi + 1) + (hi + 1) = k := by omega
  rwa [this] at h1

theorem natBits_lt (n hi lo : Nat) : natBits n hi lo < 2 ^ (hi + 1 - lo) := Nat.mod_lt _ (Nat.two_pow_pos _)

end Sys2Proof
end

