-- ==== Sys2Proof/Laws/NMap.lean ====
section
/-! SUPPORT. What a sparse table answers after a write, and that every operation keeps the canonical form. -/
namespace Sys2Proof.Machine

variable {α : Type}

/-! ### Reading after a write -/

@[simp] theorem NMap.find?_nil (x : Nat) : NMap.find? ([] : NMap α) x = none := rfl

@[simp] theorem NMap.find?_insert_self (m : NMap α) (x : Nat) (w : α) : NMap.find? (NMap.insert m x w) x = some w := by
  induction m with
  | nil => simp [NMap.insert, NMap.find?]
  | cons e m ih =>
    obtain ⟨k, v⟩ := e
    simp only [NMap.insert]
    split
    · simp [NMap.find?]
    · rename_i hk
      split
      · simp [NMap.find?]
      · simp [NMap.find?, hk, ih]

theorem NMap.find?_insert_ne (m : NMap α) {x y : Nat} (w : α) (h : y ≠ x) : NMap.find? (NMap.insert m x w) y = NMap.find? m y := by
  induction m with
  | nil => simp [NMap.insert, NMap.find?, h.symm]
  | cons e m ih =>
    obtain ⟨k, v⟩ := e
    simp only [NMap.insert]
    split
    · rename_i hk; subst hk; simp [NMap.find?, h.symm]
    · split
      · simp [NMap.find?, h.symm]
      · simp [NMap.find?, ih]

@[simp] theorem NMap.find?_erase_self (m : NMap α) (x : Nat) : NMap.find? (NMap.erase m x) x = none := by
  induction m with
  | nil => rfl
  | cons e m ih =>
    obtain ⟨k, v⟩ := e
    simp only [NMap.erase]
    split
    · exact ih
    · rename_i hk; simp [NMap.find?, hk, ih]

theorem NMap.find?_erase_ne (m : NMap α) {x y : Nat} (h : y ≠ x) : NMap.find? (NMap.erase m x) y = NMap.find? m y := by
  induction m with
  | nil => rfl
  | cons e m ih =>
    obtain ⟨k, v⟩ := e
    simp only [NMap.erase]
    split
    · rename_i hk; subst hk; simp [NMap.find?, h.symm, ih]
    · simp [NMap.find?, ih]

@[simp] theorem NMap.getD_nil (d : α) (x : Nat) : NMap.getD ([] : NMap α) d x = d := rfl

@[simp] theorem NMap.getD_insert_self (m : NMap α) (d : α) (x : Nat) (w : α) : NMap.getD (NMap.insert m x w) d x = w := by
  simp [NMap.getD]

theorem NMap.getD_insert_ne (m : NMap α) (d : α) {x y : Nat} (w : α) (h : y ≠ x) :
    NMap.getD (NMap.insert m x w) d y = NMap.getD m d y := by
  simp [NMap.getD, NMap.find?_insert_ne m w h]

/-- A key reads what was put under it. -/
@[simp] theorem NMap.getD_put_self [DecidableEq α] (m : NMap α) (d : α) (x : Nat) (v : α) : NMap.getD (NMap.put m d x v) d x = v := by
  simp only [NMap.put]
  split
  · rename_i h; simp [NMap.getD, h]
  · simp

/-- Another key is found as before. -/
theorem NMap.find?_put_ne [DecidableEq α] (m : NMap α) (d : α) {x y : Nat} (v : α) (h : y ≠ x) :
    NMap.find? (NMap.put m d x v) y = NMap.find? m y := by
  simp only [NMap.put]
  split
  · exact NMap.find?_erase_ne m h
  · exact NMap.find?_insert_ne m v h

/-- Another key reads as before. -/
theorem NMap.getD_put_ne [DecidableEq α] (m : NMap α) (d : α) {x y : Nat} (v : α) (h : y ≠ x) :
    NMap.getD (NMap.put m d x v) d y = NMap.getD m d y := by
  simp only [NMap.put]
  split
  · simp [NMap.getD, NMap.find?_erase_ne m h]
  · exact NMap.getD_insert_ne m d v h

/-! ### The canonical form -/

theorem NMap.sortedFrom_mono {b c : Nat} (h : c ≤ b) : ∀ {m : NMap α}, NMap.sortedFrom b m = true → NMap.sortedFrom c m = true
  | [], _ => rfl
  | (k, _) :: _, hm => by
    simp only [NMap.sortedFrom, Bool.and_eq_true, decide_eq_true_eq] at hm ⊢
    exact ⟨by omega, hm.2⟩

theorem NMap.sortedFrom_erase (x : Nat) : ∀ {m : NMap α} {b : Nat}, NMap.sortedFrom b m = true → NMap.sortedFrom b (NMap.erase m x) = true
  | [], _, _ => rfl
  | (k, v) :: m, b, h => by
    simp only [NMap.sortedFrom, Bool.and_eq_true, decide_eq_true_eq] at h
    simp only [NMap.erase]
    split
    · exact NMap.sortedFrom_mono (by omega) (NMap.sortedFrom_erase x h.2)
    · simp only [NMap.sortedFrom, Bool.and_eq_true, decide_eq_true_eq]
      exact ⟨h.1, NMap.sortedFrom_erase x h.2⟩

theorem NMap.sortedFrom_insert (x : Nat) (w : α) : ∀ {m : NMap α} {b : Nat}, b ≤ x → NMap.sortedFrom b m = true →
    NMap.sortedFrom b (NMap.insert m x w) = true
  | [], b, hb, _ => by simp [NMap.insert, NMap.sortedFrom, hb]
  | (k, v) :: m, b, hb, h => by
    simp only [NMap.sortedFrom, Bool.and_eq_true, decide_eq_true_eq] at h
    simp only [NMap.insert]
    split
    · rename_i hk; subst hk; simp [NMap.sortedFrom, h]
    · split
      · rename_i hk hl
        simp only [NMap.sortedFrom, Bool.and_eq_true, decide_eq_true_eq]
        exact ⟨hb, by omega, h.2⟩
      · simp only [NMap.sortedFrom, Bool.and_eq_true, decide_eq_true_eq]
        exact ⟨h.1, NMap.sortedFrom_insert x w (by omega) h.2⟩

theorem NMap.sortedFrom_filter (f : Nat × α → Bool) : ∀ {m : NMap α} {b : Nat}, NMap.sortedFrom b m = true →
    NMap.sortedFrom b (m.filter f) = true
  | [], _, _ => rfl
  | (k, v) :: m, b, h => by
    simp only [NMap.sortedFrom, Bool.and_eq_true, decide_eq_true_eq] at h
    simp only [List.filter_cons]
    split
    · simp only [NMap.sortedFrom, Bool.and_eq_true, decide_eq_true_eq]
      exact ⟨h.1, NMap.sortedFrom_filter f h.2⟩
    · exact NMap.sortedFrom_mono (by omega) (NMap.sortedFrom_filter f h.2)

theorem NMap.mem_erase {x : Nat} {e : Nat × α} : ∀ {m : NMap α}, e ∈ NMap.erase m x → e ∈ m
  | [], h => by simp [NMap.erase] at h
  | (k, v) :: m, h => by
    simp only [NMap.erase] at h
    split at h
    · exact List.mem_cons_of_mem _ (NMap.mem_erase h)
    · rcases List.mem_cons.mp h with h | h
      · exact h ▸ List.mem_cons_self
      · exact List.mem_cons_of_mem _ (NMap.mem_erase h)

theorem NMap.mem_insert {x : Nat} {w : α} {e : Nat × α} : ∀ {m : NMap α}, e ∈ NMap.insert m x w → e = (x, w) ∨ e ∈ m
  | [], h => by simpa [NMap.insert] using h
  | (k, v) :: m, h => by
    simp only [NMap.insert] at h
    split at h
    · rcases List.mem_cons.mp h with h | h
      · exact .inl h
      · exact .inr (List.mem_cons_of_mem _ h)
    · split at h
      · rcases List.mem_cons.mp h with h | h
        · exact .inl h
        · exact .inr h
      · rcases List.mem_cons.mp h with h | h
        · exact .inr (h ▸ List.mem_cons_self)
        · rcases NMap.mem_insert h with h | h
          · exact .inl h
          · exact .inr (List.mem_cons_of_mem _ h)

section Wf
variable [DecidableEq α] {d : α}

theorem NMap.wf_iff {m : NMap α} : NMap.wf d m = true ↔ NMap.sortedFrom 0 m = true ∧ ∀ e ∈ m, e.2 ≠ d := by
  simp [NMap.wf, List.all_eq_true]

@[simp] theorem NMap.wf_nil : NMap.wf d ([] : NMap α) = true := rfl

/-- A write keeps the canonical form. -/
theorem NMap.wf_put {m : NMap α} (x : Nat) (v : α) (h : NMap.wf d m = true) : NMap.wf d (NMap.put m d x v) = true := by
  obtain ⟨hs, hv⟩ := NMap.wf_iff.mp h
  simp only [NMap.put]
  split
  · exact NMap.wf_iff.mpr ⟨NMap.sortedFrom_erase x hs, fun e he => hv e (NMap.mem_erase he)⟩
  · rename_i hne
    refine NMap.wf_iff.mpr ⟨NMap.sortedFrom_insert x v (Nat.zero_le x) hs, fun e he => ?_⟩
    rcases NMap.mem_insert he with he | he
    · subst he; exact hne
    · exact hv e he

/-- A write of a run keeps the canonical form. -/
theorem NMap.wf_putRun : ∀ (vs : List α) (m : NMap α) (x : Nat), NMap.wf d m = true → NMap.wf d (NMap.putRun m d x vs) = true
  | [], _, _, h => h
  | v :: vs, m, x, h => NMap.wf_putRun vs _ (x + 1) (NMap.wf_put x v h)

/-- Dropping entries keeps the canonical form. -/
theorem NMap.wf_filter {m : NMap α} (f : Nat × α → Bool) (h : NMap.wf d m = true) : NMap.wf d (m.filter f) = true := by
  obtain ⟨hs, hv⟩ := NMap.wf_iff.mp h
  exact NMap.wf_iff.mpr ⟨NMap.sortedFrom_filter f hs, fun e he => hv e (List.mem_of_mem_filter he)⟩

theorem NMap.wf_erase {m : NMap α} (x : Nat) (h : NMap.wf d m = true) : NMap.wf d (NMap.erase m x) = true := by
  obtain ⟨hs, hv⟩ := NMap.wf_iff.mp h
  exact NMap.wf_iff.mpr ⟨NMap.sortedFrom_erase x hs, fun e he => hv e (NMap.mem_erase he)⟩

end Wf

end Sys2Proof.Machine
end

