-- ==== Sys2Proof/Laws/Regs.lean ====
section
/-! SUPPORT. Registers: reading a register or a field after a write of one. -/
namespace Sys2Proof.Machine

@[simp] theorem State.word_setWord_self (s : State) (p off : Nat) (v : Word) : (s.setWord p off v).word p off = v := by
  simp [State.word, State.setWord]

theorem State.word_setWord_ne (s : State) {p q o r : Nat} (v : Word) (h : homePage q r * 512 + r / 8 ≠ homePage p o * 512 + o / 8) :
    (s.setWord p o v).word q r = s.word q r := by
  simp only [State.word, State.setWord, NMap.getD]
  rw [NMap.find?_put_ne]
  exact h

/-- A register written through another name of the same place. -/
theorem State.word_lt (s : State) (p off : Nat) : (s.word p off).toNat < 2 ^ 64 := (s.word p off).isLt

/-- A field reads what was stored in it. -/
theorem State.fld_setFld_self (s : State) (p : Nat) (f : Fld) (v : Nat) (h : f.lo ≤ f.hi) (h64 : f.hi < 64) :
    (s.setFld p f v).fld p f = v % 2 ^ (f.hi + 1 - f.lo) := by
  have hl := natSetBits_lt (s.word p f.off).toNat v h h64 (s.word_lt p f.off)
  simp only [State.fld, State.setFld, State.word_setWord_self, BitVec.toNat_ofNat, Nat.mod_eq_of_lt hl]
  exact natBits_natSetBits_self _ _ h

/-- A field of the same register that does not overlap the one stored reads as before. -/
theorem State.fld_setFld_apart (s : State) (p : Nat) (f g : Fld) (v : Nat) (h : f.lo ≤ f.hi) (h64 : f.hi < 64) (ho : g.off = f.off)
    (d : g.hi < f.lo ∨ f.hi < g.lo) : (s.setFld p f v).fld p g = s.fld p g := by
  have hl := natSetBits_lt (s.word p f.off).toNat v h h64 (s.word_lt p f.off)
  simp only [State.fld, State.setFld, ho, State.word_setWord_self, BitVec.toNat_ofNat, Nat.mod_eq_of_lt hl]
  exact natBits_natSetBits_ne _ _ h d

/-- A field of another register reads as before. -/
theorem State.fld_setFld_ne (s : State) {p q : Nat} (f g : Fld) (v : Nat)
    (h : homePage q g.off * 512 + g.off / 8 ≠ homePage p f.off * 512 + f.off / 8) : (s.setFld p f v).fld q g = s.fld q g := by
  simp only [State.fld, State.setFld, State.word_setWord_ne s _ h]

theorem State.fld_lt (s : State) (p : Nat) (f : Fld) : s.fld p f < 2 ^ (f.hi + 1 - f.lo) := natBits_lt _ _ _

/-- A counter field after a count: it stops at all ones. -/
theorem State.fld_count_self (s : State) (p : Nat) (f : Fld) (k : Nat) (h : f.lo ≤ f.hi) (h64 : f.hi < 64) :
    (s.count p f k).fld p f = min (2 ^ (f.hi + 1 - f.lo) - 1) (s.fld p f + k) := by
  simp only [State.count, State.fld_setFld_self s p f _ h h64, satAdd]
  apply Nat.mod_eq_of_lt
  have : 0 < 2 ^ (f.hi + 1 - f.lo) := Nat.two_pow_pos _
  omega

theorem State.flag_setFld_self (s : State) (p : Nat) (f : Fld) (v : Nat) (h : f.lo = f.hi) (h64 : f.hi < 64) :
    (s.setFld p f v).flag p f = decide (v % 2 ≠ 0) := by
  have e : f.hi + 1 - f.lo = 1 := by omega
  simp [State.flag, State.fld_setFld_self s p f v (by omega) h64, e]

theorem State.setWord_other (s : State) (p off : Nat) (v : Word) : s.setWord p off v = { s with regs := (s.setWord p off v).regs } := rfl

end Sys2Proof.Machine
end

