-- ==== Sys2Proof/Laws/State.lean ====
section
/-! SUPPORT. What the updates of the state leave unchanged: one lemma per field per update. -/
namespace Sys2Proof.Machine

@[simp] theorem State.setWord_pending (s : State) (p off : Nat) (v : Word) : (s.setWord p off v).pending = s.pending := id rfl
@[simp] theorem State.setWord_active (s : State) (p off : Nat) (v : Word) : (s.setWord p off v).active = s.active := id rfl
@[simp] theorem State.setWord_locks (s : State) (p off : Nat) (v : Word) : (s.setWord p off v).locks = s.locks := id rfl
@[simp] theorem State.setWord_out (s : State) (p off : Nat) (v : Word) : (s.setWord p off v).out = s.out := id rfl
@[simp] theorem State.setWord_freeCtr (s : State) (p off : Nat) (v : Word) : (s.setWord p off v).freeCtr = s.freeCtr := id rfl
@[simp] theorem State.setWord_clock (s : State) (p off : Nat) (v : Word) : (s.setWord p off v).clock = s.clock := id rfl
@[simp] theorem State.setWord_dmmCfg (s : State) (p off : Nat) (v : Word) : (s.setWord p off v).dmmCfg = s.dmmCfg := id rfl
@[simp] theorem State.setWord_rateFloor (s : State) (p off : Nat) (v : Word) : (s.setWord p off v).rateFloor = s.rateFloor := id rfl
@[simp] theorem State.setWord_dmm (s : State) (p off : Nat) (v : Word) : (s.setWord p off v).dmm = s.dmm := id rfl
@[simp] theorem State.setWord_plan (s : State) (p off : Nat) (v : Word) : (s.setWord p off v).plan = s.plan := id rfl
@[simp] theorem State.setWord_dom (s : State) (p off : Nat) (v : Word) : (s.setWord p off v).dom = s.dom := id rfl
@[simp] theorem State.setWord_boot (s : State) (p off : Nat) (v : Word) : (s.setWord p off v).boot = s.boot := id rfl
@[simp] theorem State.setWord_deliv (s : State) (p off : Nat) (v : Word) : (s.setWord p off v).deliv = s.deliv := id rfl
@[simp] theorem State.setWord_host (s : State) (p off : Nat) (v : Word) : (s.setWord p off v).host = s.host := id rfl
@[simp] theorem State.setWord_lc (s : State) (p off : Nat) (v : Word) : (s.setWord p off v).lc = s.lc := id rfl
@[simp] theorem State.setWord_tap (s : State) (p off : Nat) (v : Word) : (s.setWord p off v).tap = s.tap := id rfl
@[simp] theorem State.setWord_rot (s : State) (p off : Nat) (v : Word) : (s.setWord p off v).rot = s.rot := id rfl
@[simp] theorem State.setWord_saf (s : State) (p off : Nat) (v : Word) : (s.setWord p off v).saf = s.saf := id rfl
@[simp] theorem State.setWord_mem (s : State) (p off : Nat) (v : Word) : (s.setWord p off v).mem = s.mem := id rfl
@[simp] theorem State.setWord_atu (s : State) (p off : Nat) (v : Word) : (s.setWord p off v).atu = s.atu := id rfl
@[simp] theorem State.setWord_dsp (s : State) (p off : Nat) (v : Word) : (s.setWord p off v).dsp = s.dsp := id rfl
@[simp] theorem State.setWord_mesh (s : State) (p off : Nat) (v : Word) : (s.setWord p off v).mesh = s.mesh := id rfl
@[simp] theorem State.setWord_fab (s : State) (p off : Nat) (v : Word) : (s.setWord p off v).fab = s.fab := id rfl
@[simp] theorem State.setWord_site (s : State) (p off : Nat) (v : Word) : (s.setWord p off v).site = s.site := id rfl
@[simp] theorem State.setWord_joins (s : State) (p off : Nat) (v : Word) : (s.setWord p off v).joins = s.joins := id rfl
@[simp] theorem State.setWord_nextJoin (s : State) (p off : Nat) (v : Word) : (s.setWord p off v).nextJoin = s.nextJoin := id rfl
@[simp] theorem State.setWord_xwaits (s : State) (p off : Nat) (v : Word) : (s.setWord p off v).xwaits = s.xwaits := id rfl
@[simp] theorem State.setWord_nextWait (s : State) (p off : Nat) (v : Word) : (s.setWord p off v).nextWait = s.nextWait := id rfl
@[simp] theorem State.setWord_eth (s : State) (p off : Nat) (v : Word) : (s.setWord p off v).eth = s.eth := id rfl
@[simp] theorem State.setWord_mil (s : State) (p off : Nat) (v : Word) : (s.setWord p off v).mil = s.mil := id rfl
@[simp] theorem State.setWord_taskErrs (s : State) (p off : Nat) (v : Word) : (s.setWord p off v).taskErrs = s.taskErrs := id rfl

@[simp] theorem State.setFld_pending (s : State) (p : Nat) (f : Fld) (v : Nat) : (s.setFld p f v).pending = s.pending := id rfl
@[simp] theorem State.setFld_active (s : State) (p : Nat) (f : Fld) (v : Nat) : (s.setFld p f v).active = s.active := id rfl
@[simp] theorem State.setFld_locks (s : State) (p : Nat) (f : Fld) (v : Nat) : (s.setFld p f v).locks = s.locks := id rfl
@[simp] theorem State.setFld_out (s : State) (p : Nat) (f : Fld) (v : Nat) : (s.setFld p f v).out = s.out := id rfl
@[simp] theorem State.setFld_freeCtr (s : State) (p : Nat) (f : Fld) (v : Nat) : (s.setFld p f v).freeCtr = s.freeCtr := id rfl
@[simp] theorem State.setFld_clock (s : State) (p : Nat) (f : Fld) (v : Nat) : (s.setFld p f v).clock = s.clock := id rfl
@[simp] theorem State.setFld_dmmCfg (s : State) (p : Nat) (f : Fld) (v : Nat) : (s.setFld p f v).dmmCfg = s.dmmCfg := id rfl
@[simp] theorem State.setFld_rateFloor (s : State) (p : Nat) (f : Fld) (v : Nat) : (s.setFld p f v).rateFloor = s.rateFloor := id rfl
@[simp] theorem State.setFld_dmm (s : State) (p : Nat) (f : Fld) (v : Nat) : (s.setFld p f v).dmm = s.dmm := id rfl
@[simp] theorem State.setFld_plan (s : State) (p : Nat) (f : Fld) (v : Nat) : (s.setFld p f v).plan = s.plan := id rfl
@[simp] theorem State.setFld_dom (s : State) (p : Nat) (f : Fld) (v : Nat) : (s.setFld p f v).dom = s.dom := id rfl
@[simp] theorem State.setFld_boot (s : State) (p : Nat) (f : Fld) (v : Nat) : (s.setFld p f v).boot = s.boot := id rfl
@[simp] theorem State.setFld_deliv (s : State) (p : Nat) (f : Fld) (v : Nat) : (s.setFld p f v).deliv = s.deliv := id rfl
@[simp] theorem State.setFld_host (s : State) (p : Nat) (f : Fld) (v : Nat) : (s.setFld p f v).host = s.host := id rfl
@[simp] theorem State.setFld_lc (s : State) (p : Nat) (f : Fld) (v : Nat) : (s.setFld p f v).lc = s.lc := id rfl
@[simp] theorem State.setFld_tap (s : State) (p : Nat) (f : Fld) (v : Nat) : (s.setFld p f v).tap = s.tap := id rfl
@[simp] theorem State.setFld_rot (s : State) (p : Nat) (f : Fld) (v : Nat) : (s.setFld p f v).rot = s.rot := id rfl
@[simp] theorem State.setFld_saf (s : State) (p : Nat) (f : Fld) (v : Nat) : (s.setFld p f v).saf = s.saf := id rfl
@[simp] theorem State.setFld_mem (s : State) (p : Nat) (f : Fld) (v : Nat) : (s.setFld p f v).mem = s.mem := id rfl
@[simp] theorem State.setFld_atu (s : State) (p : Nat) (f : Fld) (v : Nat) : (s.setFld p f v).atu = s.atu := id rfl
@[simp] theorem State.setFld_dsp (s : State) (p : Nat) (f : Fld) (v : Nat) : (s.setFld p f v).dsp = s.dsp := id rfl
@[simp] theorem State.setFld_mesh (s : State) (p : Nat) (f : Fld) (v : Nat) : (s.setFld p f v).mesh = s.mesh := id rfl
@[simp] theorem State.setFld_fab (s : State) (p : Nat) (f : Fld) (v : Nat) : (s.setFld p f v).fab = s.fab := id rfl
@[simp] theorem State.setFld_site (s : State) (p : Nat) (f : Fld) (v : Nat) : (s.setFld p f v).site = s.site := id rfl
@[simp] theorem State.setFld_joins (s : State) (p : Nat) (f : Fld) (v : Nat) : (s.setFld p f v).joins = s.joins := id rfl
@[simp] theorem State.setFld_nextJoin (s : State) (p : Nat) (f : Fld) (v : Nat) : (s.setFld p f v).nextJoin = s.nextJoin := id rfl
@[simp] theorem State.setFld_xwaits (s : State) (p : Nat) (f : Fld) (v : Nat) : (s.setFld p f v).xwaits = s.xwaits := id rfl
@[simp] theorem State.setFld_nextWait (s : State) (p : Nat) (f : Fld) (v : Nat) : (s.setFld p f v).nextWait = s.nextWait := id rfl
@[simp] theorem State.setFld_eth (s : State) (p : Nat) (f : Fld) (v : Nat) : (s.setFld p f v).eth = s.eth := id rfl
@[simp] theorem State.setFld_mil (s : State) (p : Nat) (f : Fld) (v : Nat) : (s.setFld p f v).mil = s.mil := id rfl
@[simp] theorem State.setFld_taskErrs (s : State) (p : Nat) (f : Fld) (v : Nat) : (s.setFld p f v).taskErrs = s.taskErrs := id rfl

@[simp] theorem State.count_pending (s : State) (p : Nat) (f : Fld) (k : Nat) : (s.count p f k).pending = s.pending := id rfl
@[simp] theorem State.count_active (s : State) (p : Nat) (f : Fld) (k : Nat) : (s.count p f k).active = s.active := id rfl
@[simp] theorem State.count_locks (s : State) (p : Nat) (f : Fld) (k : Nat) : (s.count p f k).locks = s.locks := id rfl
@[simp] theorem State.count_out (s : State) (p : Nat) (f : Fld) (k : Nat) : (s.count p f k).out = s.out := id rfl
@[simp] theorem State.count_freeCtr (s : State) (p : Nat) (f : Fld) (k : Nat) : (s.count p f k).freeCtr = s.freeCtr := id rfl
@[simp] theorem State.count_clock (s : State) (p : Nat) (f : Fld) (k : Nat) : (s.count p f k).clock = s.clock := id rfl
@[simp] theorem State.count_dmmCfg (s : State) (p : Nat) (f : Fld) (k : Nat) : (s.count p f k).dmmCfg = s.dmmCfg := id rfl
@[simp] theorem State.count_rateFloor (s : State) (p : Nat) (f : Fld) (k : Nat) : (s.count p f k).rateFloor = s.rateFloor := id rfl
@[simp] theorem State.count_dmm (s : State) (p : Nat) (f : Fld) (k : Nat) : (s.count p f k).dmm = s.dmm := id rfl
@[simp] theorem State.count_plan (s : State) (p : Nat) (f : Fld) (k : Nat) : (s.count p f k).plan = s.plan := id rfl
@[simp] theorem State.count_dom (s : State) (p : Nat) (f : Fld) (k : Nat) : (s.count p f k).dom = s.dom := id rfl
@[simp] theorem State.count_boot (s : State) (p : Nat) (f : Fld) (k : Nat) : (s.count p f k).boot = s.boot := id rfl
@[simp] theorem State.count_deliv (s : State) (p : Nat) (f : Fld) (k : Nat) : (s.count p f k).deliv = s.deliv := id rfl
@[simp] theorem State.count_host (s : State) (p : Nat) (f : Fld) (k : Nat) : (s.count p f k).host = s.host := id rfl
@[simp] theorem State.count_lc (s : State) (p : Nat) (f : Fld) (k : Nat) : (s.count p f k).lc = s.lc := id rfl
@[simp] theorem State.count_tap (s : State) (p : Nat) (f : Fld) (k : Nat) : (s.count p f k).tap = s.tap := id rfl
@[simp] theorem State.count_rot (s : State) (p : Nat) (f : Fld) (k : Nat) : (s.count p f k).rot = s.rot := id rfl
@[simp] theorem State.count_saf (s : State) (p : Nat) (f : Fld) (k : Nat) : (s.count p f k).saf = s.saf := id rfl
@[simp] theorem State.count_mem (s : State) (p : Nat) (f : Fld) (k : Nat) : (s.count p f k).mem = s.mem := id rfl
@[simp] theorem State.count_atu (s : State) (p : Nat) (f : Fld) (k : Nat) : (s.count p f k).atu = s.atu := id rfl
@[simp] theorem State.count_dsp (s : State) (p : Nat) (f : Fld) (k : Nat) : (s.count p f k).dsp = s.dsp := id rfl
@[simp] theorem State.count_mesh (s : State) (p : Nat) (f : Fld) (k : Nat) : (s.count p f k).mesh = s.mesh := id rfl
@[simp] theorem State.count_fab (s : State) (p : Nat) (f : Fld) (k : Nat) : (s.count p f k).fab = s.fab := id rfl
@[simp] theorem State.count_site (s : State) (p : Nat) (f : Fld) (k : Nat) : (s.count p f k).site = s.site := id rfl
@[simp] theorem State.count_joins (s : State) (p : Nat) (f : Fld) (k : Nat) : (s.count p f k).joins = s.joins := id rfl
@[simp] theorem State.count_nextJoin (s : State) (p : Nat) (f : Fld) (k : Nat) : (s.count p f k).nextJoin = s.nextJoin := id rfl
@[simp] theorem State.count_xwaits (s : State) (p : Nat) (f : Fld) (k : Nat) : (s.count p f k).xwaits = s.xwaits := id rfl
@[simp] theorem State.count_nextWait (s : State) (p : Nat) (f : Fld) (k : Nat) : (s.count p f k).nextWait = s.nextWait := id rfl
@[simp] theorem State.count_eth (s : State) (p : Nat) (f : Fld) (k : Nat) : (s.count p f k).eth = s.eth := id rfl
@[simp] theorem State.count_mil (s : State) (p : Nat) (f : Fld) (k : Nat) : (s.count p f k).mil = s.mil := id rfl
@[simp] theorem State.count_taskErrs (s : State) (p : Nat) (f : Fld) (k : Nat) : (s.count p f k).taskErrs = s.taskErrs := id rfl

@[simp] theorem State.setActWord_pending (s : State) (p off : Nat) (v : Word) : (s.setActWord p off v).pending = s.pending := id rfl
@[simp] theorem State.setActWord_regs (s : State) (p off : Nat) (v : Word) : (s.setActWord p off v).regs = s.regs := id rfl
@[simp] theorem State.setActWord_locks (s : State) (p off : Nat) (v : Word) : (s.setActWord p off v).locks = s.locks := id rfl
@[simp] theorem State.setActWord_out (s : State) (p off : Nat) (v : Word) : (s.setActWord p off v).out = s.out := id rfl
@[simp] theorem State.setActWord_freeCtr (s : State) (p off : Nat) (v : Word) : (s.setActWord p off v).freeCtr = s.freeCtr := id rfl
@[simp] theorem State.setActWord_clock (s : State) (p off : Nat) (v : Word) : (s.setActWord p off v).clock = s.clock := id rfl
@[simp] theorem State.setActWord_dmmCfg (s : State) (p off : Nat) (v : Word) : (s.setActWord p off v).dmmCfg = s.dmmCfg := id rfl
@[simp] theorem State.setActWord_rateFloor (s : State) (p off : Nat) (v : Word) : (s.setActWord p off v).rateFloor = s.rateFloor := id rfl
@[simp] theorem State.setActWord_dmm (s : State) (p off : Nat) (v : Word) : (s.setActWord p off v).dmm = s.dmm := id rfl
@[simp] theorem State.setActWord_plan (s : State) (p off : Nat) (v : Word) : (s.setActWord p off v).plan = s.plan := id rfl
@[simp] theorem State.setActWord_dom (s : State) (p off : Nat) (v : Word) : (s.setActWord p off v).dom = s.dom := id rfl
@[simp] theorem State.setActWord_boot (s : State) (p off : Nat) (v : Word) : (s.setActWord p off v).boot = s.boot := id rfl
@[simp] theorem State.setActWord_deliv (s : State) (p off : Nat) (v : Word) : (s.setActWord p off v).deliv = s.deliv := id rfl
@[simp] theorem State.setActWord_host (s : State) (p off : Nat) (v : Word) : (s.setActWord p off v).host = s.host := id rfl
@[simp] theorem State.setActWord_lc (s : State) (p off : Nat) (v : Word) : (s.setActWord p off v).lc = s.lc := id rfl
@[simp] theorem State.setActWord_tap (s : State) (p off : Nat) (v : Word) : (s.setActWord p off v).tap = s.tap := id rfl
@[simp] theorem State.setActWord_rot (s : State) (p off : Nat) (v : Word) : (s.setActWord p off v).rot = s.rot := id rfl
@[simp] theorem State.setActWord_saf (s : State) (p off : Nat) (v : Word) : (s.setActWord p off v).saf = s.saf := id rfl
@[simp] theorem State.setActWord_mem (s : State) (p off : Nat) (v : Word) : (s.setActWord p off v).mem = s.mem := id rfl
@[simp] theorem State.setActWord_atu (s : State) (p off : Nat) (v : Word) : (s.setActWord p off v).atu = s.atu := id rfl
@[simp] theorem State.setActWord_dsp (s : State) (p off : Nat) (v : Word) : (s.setActWord p off v).dsp = s.dsp := id rfl
@[simp] theorem State.setActWord_mesh (s : State) (p off : Nat) (v : Word) : (s.setActWord p off v).mesh = s.mesh := id rfl
@[simp] theorem State.setActWord_fab (s : State) (p off : Nat) (v : Word) : (s.setActWord p off v).fab = s.fab := id rfl
@[simp] theorem State.setActWord_site (s : State) (p off : Nat) (v : Word) : (s.setActWord p off v).site = s.site := id rfl
@[simp] theorem State.setActWord_joins (s : State) (p off : Nat) (v : Word) : (s.setActWord p off v).joins = s.joins := id rfl
@[simp] theorem State.setActWord_nextJoin (s : State) (p off : Nat) (v : Word) : (s.setActWord p off v).nextJoin = s.nextJoin := id rfl
@[simp] theorem State.setActWord_xwaits (s : State) (p off : Nat) (v : Word) : (s.setActWord p off v).xwaits = s.xwaits := id rfl
@[simp] theorem State.setActWord_nextWait (s : State) (p off : Nat) (v : Word) : (s.setActWord p off v).nextWait = s.nextWait := id rfl
@[simp] theorem State.setActWord_eth (s : State) (p off : Nat) (v : Word) : (s.setActWord p off v).eth = s.eth := id rfl
@[simp] theorem State.setActWord_mil (s : State) (p off : Nat) (v : Word) : (s.setActWord p off v).mil = s.mil := id rfl
@[simp] theorem State.setActWord_taskErrs (s : State) (p off : Nat) (v : Word) : (s.setActWord p off v).taskErrs = s.taskErrs := id rfl

@[simp] theorem State.emit_pending (s : State) (m : Out) : (s.emit m).pending = s.pending := id rfl
@[simp] theorem State.emit_regs (s : State) (m : Out) : (s.emit m).regs = s.regs := id rfl
@[simp] theorem State.emit_active (s : State) (m : Out) : (s.emit m).active = s.active := id rfl
@[simp] theorem State.emit_locks (s : State) (m : Out) : (s.emit m).locks = s.locks := id rfl
@[simp] theorem State.emit_freeCtr (s : State) (m : Out) : (s.emit m).freeCtr = s.freeCtr := id rfl
@[simp] theorem State.emit_clock (s : State) (m : Out) : (s.emit m).clock = s.clock := id rfl
@[simp] theorem State.emit_dmmCfg (s : State) (m : Out) : (s.emit m).dmmCfg = s.dmmCfg := id rfl
@[simp] theorem State.emit_rateFloor (s : State) (m : Out) : (s.emit m).rateFloor = s.rateFloor := id rfl
@[simp] theorem State.emit_dmm (s : State) (m : Out) : (s.emit m).dmm = s.dmm := id rfl
@[simp] theorem State.emit_plan (s : State) (m : Out) : (s.emit m).plan = s.plan := id rfl
@[simp] theorem State.emit_dom (s : State) (m : Out) : (s.emit m).dom = s.dom := id rfl
@[simp] theorem State.emit_boot (s : State) (m : Out) : (s.emit m).boot = s.boot := id rfl
@[simp] theorem State.emit_deliv (s : State) (m : Out) : (s.emit m).deliv = s.deliv := id rfl
@[simp] theorem State.emit_host (s : State) (m : Out) : (s.emit m).host = s.host := id rfl
@[simp] theorem State.emit_lc (s : State) (m : Out) : (s.emit m).lc = s.lc := id rfl
@[simp] theorem State.emit_tap (s : State) (m : Out) : (s.emit m).tap = s.tap := id rfl
@[simp] theorem State.emit_rot (s : State) (m : Out) : (s.emit m).rot = s.rot := id rfl
@[simp] theorem State.emit_saf (s : State) (m : Out) : (s.emit m).saf = s.saf := id rfl
@[simp] theorem State.emit_mem (s : State) (m : Out) : (s.emit m).mem = s.mem := id rfl
@[simp] theorem State.emit_atu (s : State) (m : Out) : (s.emit m).atu = s.atu := id rfl
@[simp] theorem State.emit_dsp (s : State) (m : Out) : (s.emit m).dsp = s.dsp := id rfl
@[simp] theorem State.emit_mesh (s : State) (m : Out) : (s.emit m).mesh = s.mesh := id rfl
@[simp] theorem State.emit_fab (s : State) (m : Out) : (s.emit m).fab = s.fab := id rfl
@[simp] theorem State.emit_site (s : State) (m : Out) : (s.emit m).site = s.site := id rfl
@[simp] theorem State.emit_joins (s : State) (m : Out) : (s.emit m).joins = s.joins := id rfl
@[simp] theorem State.emit_nextJoin (s : State) (m : Out) : (s.emit m).nextJoin = s.nextJoin := id rfl
@[simp] theorem State.emit_xwaits (s : State) (m : Out) : (s.emit m).xwaits = s.xwaits := id rfl
@[simp] theorem State.emit_nextWait (s : State) (m : Out) : (s.emit m).nextWait = s.nextWait := id rfl
@[simp] theorem State.emit_eth (s : State) (m : Out) : (s.emit m).eth = s.eth := id rfl
@[simp] theorem State.emit_mil (s : State) (m : Out) : (s.emit m).mil = s.mil := id rfl
@[simp] theorem State.emit_taskErrs (s : State) (m : Out) : (s.emit m).taskErrs = s.taskErrs := id rfl

@[simp] theorem State.setVec_pending (s : State) (v : Nat) (x : MsixVec) : (s.setVec v x).pending = s.pending := id rfl
@[simp] theorem State.setVec_regs (s : State) (v : Nat) (x : MsixVec) : (s.setVec v x).regs = s.regs := id rfl
@[simp] theorem State.setVec_active (s : State) (v : Nat) (x : MsixVec) : (s.setVec v x).active = s.active := id rfl
@[simp] theorem State.setVec_locks (s : State) (v : Nat) (x : MsixVec) : (s.setVec v x).locks = s.locks := id rfl
@[simp] theorem State.setVec_out (s : State) (v : Nat) (x : MsixVec) : (s.setVec v x).out = s.out := id rfl
@[simp] theorem State.setVec_freeCtr (s : State) (v : Nat) (x : MsixVec) : (s.setVec v x).freeCtr = s.freeCtr := id rfl
@[simp] theorem State.setVec_clock (s : State) (v : Nat) (x : MsixVec) : (s.setVec v x).clock = s.clock := id rfl
@[simp] theorem State.setVec_dmmCfg (s : State) (v : Nat) (x : MsixVec) : (s.setVec v x).dmmCfg = s.dmmCfg := id rfl
@[simp] theorem State.setVec_rateFloor (s : State) (v : Nat) (x : MsixVec) : (s.setVec v x).rateFloor = s.rateFloor := id rfl
@[simp] theorem State.setVec_dmm (s : State) (v : Nat) (x : MsixVec) : (s.setVec v x).dmm = s.dmm := id rfl
@[simp] theorem State.setVec_plan (s : State) (v : Nat) (x : MsixVec) : (s.setVec v x).plan = s.plan := id rfl
@[simp] theorem State.setVec_dom (s : State) (v : Nat) (x : MsixVec) : (s.setVec v x).dom = s.dom := id rfl
@[simp] theorem State.setVec_boot (s : State) (v : Nat) (x : MsixVec) : (s.setVec v x).boot = s.boot := id rfl
@[simp] theorem State.setVec_deliv (s : State) (v : Nat) (x : MsixVec) : (s.setVec v x).deliv = s.deliv := id rfl
@[simp] theorem State.setVec_lc (s : State) (v : Nat) (x : MsixVec) : (s.setVec v x).lc = s.lc := id rfl
@[simp] theorem State.setVec_tap (s : State) (v : Nat) (x : MsixVec) : (s.setVec v x).tap = s.tap := id rfl
@[simp] theorem State.setVec_rot (s : State) (v : Nat) (x : MsixVec) : (s.setVec v x).rot = s.rot := id rfl
@[simp] theorem State.setVec_saf (s : State) (v : Nat) (x : MsixVec) : (s.setVec v x).saf = s.saf := id rfl
@[simp] theorem State.setVec_mem (s : State) (v : Nat) (x : MsixVec) : (s.setVec v x).mem = s.mem := id rfl
@[simp] theorem State.setVec_atu (s : State) (v : Nat) (x : MsixVec) : (s.setVec v x).atu = s.atu := id rfl
@[simp] theorem State.setVec_dsp (s : State) (v : Nat) (x : MsixVec) : (s.setVec v x).dsp = s.dsp := id rfl
@[simp] theorem State.setVec_mesh (s : State) (v : Nat) (x : MsixVec) : (s.setVec v x).mesh = s.mesh := id rfl
@[simp] theorem State.setVec_fab (s : State) (v : Nat) (x : MsixVec) : (s.setVec v x).fab = s.fab := id rfl
@[simp] theorem State.setVec_site (s : State) (v : Nat) (x : MsixVec) : (s.setVec v x).site = s.site := id rfl
@[simp] theorem State.setVec_joins (s : State) (v : Nat) (x : MsixVec) : (s.setVec v x).joins = s.joins := id rfl
@[simp] theorem State.setVec_nextJoin (s : State) (v : Nat) (x : MsixVec) : (s.setVec v x).nextJoin = s.nextJoin := id rfl
@[simp] theorem State.setVec_xwaits (s : State) (v : Nat) (x : MsixVec) : (s.setVec v x).xwaits = s.xwaits := id rfl
@[simp] theorem State.setVec_nextWait (s : State) (v : Nat) (x : MsixVec) : (s.setVec v x).nextWait = s.nextWait := id rfl
@[simp] theorem State.setVec_eth (s : State) (v : Nat) (x : MsixVec) : (s.setVec v x).eth = s.eth := id rfl
@[simp] theorem State.setVec_mil (s : State) (v : Nat) (x : MsixVec) : (s.setVec v x).mil = s.mil := id rfl
@[simp] theorem State.setVec_taskErrs (s : State) (v : Nat) (x : MsixVec) : (s.setVec v x).taskErrs = s.taskErrs := id rfl

@[simp] theorem State.syncHeld_pending (s : State) : (s.syncHeld).pending = s.pending := by simp [State.syncHeld]
@[simp] theorem State.syncHeld_active (s : State) : (s.syncHeld).active = s.active := by simp [State.syncHeld]
@[simp] theorem State.syncHeld_locks (s : State) : (s.syncHeld).locks = s.locks := by simp [State.syncHeld]
@[simp] theorem State.syncHeld_out (s : State) : (s.syncHeld).out = s.out := by simp [State.syncHeld]
@[simp] theorem State.syncHeld_freeCtr (s : State) : (s.syncHeld).freeCtr = s.freeCtr := by simp [State.syncHeld]
@[simp] theorem State.syncHeld_clock (s : State) : (s.syncHeld).clock = s.clock := by simp [State.syncHeld]
@[simp] theorem State.syncHeld_dmmCfg (s : State) : (s.syncHeld).dmmCfg = s.dmmCfg := by simp [State.syncHeld]
@[simp] theorem State.syncHeld_rateFloor (s : State) : (s.syncHeld).rateFloor = s.rateFloor := by simp [State.syncHeld]
@[simp] theorem State.syncHeld_dmm (s : State) : (s.syncHeld).dmm = s.dmm := by simp [State.syncHeld]
@[simp] theorem State.syncHeld_plan (s : State) : (s.syncHeld).plan = s.plan := by simp [State.syncHeld]
@[simp] theorem State.syncHeld_dom (s : State) : (s.syncHeld).dom = s.dom := by simp [State.syncHeld]
@[simp] theorem State.syncHeld_boot (s : State) : (s.syncHeld).boot = s.boot := by simp [State.syncHeld]
@[simp] theorem State.syncHeld_deliv (s : State) : (s.syncHeld).deliv = s.deliv := by simp [State.syncHeld]
@[simp] theorem State.syncHeld_host (s : State) : (s.syncHeld).host = s.host := by simp [State.syncHeld]
@[simp] theorem State.syncHeld_lc (s : State) : (s.syncHeld).lc = s.lc := by simp [State.syncHeld]
@[simp] theorem State.syncHeld_tap (s : State) : (s.syncHeld).tap = s.tap := by simp [State.syncHeld]
@[simp] theorem State.syncHeld_rot (s : State) : (s.syncHeld).rot = s.rot := by simp [State.syncHeld]
@[simp] theorem State.syncHeld_saf (s : State) : (s.syncHeld).saf = s.saf := by simp [State.syncHeld]
@[simp] theorem State.syncHeld_mem (s : State) : (s.syncHeld).mem = s.mem := by simp [State.syncHeld]
@[simp] theorem State.syncHeld_atu (s : State) : (s.syncHeld).atu = s.atu := by simp [State.syncHeld]
@[simp] theorem State.syncHeld_dsp (s : State) : (s.syncHeld).dsp = s.dsp := by simp [State.syncHeld]
@[simp] theorem State.syncHeld_mesh (s : State) : (s.syncHeld).mesh = s.mesh := by simp [State.syncHeld]
@[simp] theorem State.syncHeld_fab (s : State) : (s.syncHeld).fab = s.fab := by simp [State.syncHeld]
@[simp] theorem State.syncHeld_site (s : State) : (s.syncHeld).site = s.site := by simp [State.syncHeld]
@[simp] theorem State.syncHeld_joins (s : State) : (s.syncHeld).joins = s.joins := by simp [State.syncHeld]
@[simp] theorem State.syncHeld_nextJoin (s : State) : (s.syncHeld).nextJoin = s.nextJoin := by simp [State.syncHeld]
@[simp] theorem State.syncHeld_xwaits (s : State) : (s.syncHeld).xwaits = s.xwaits := by simp [State.syncHeld]
@[simp] theorem State.syncHeld_nextWait (s : State) : (s.syncHeld).nextWait = s.nextWait := by simp [State.syncHeld]
@[simp] theorem State.syncHeld_eth (s : State) : (s.syncHeld).eth = s.eth := by simp [State.syncHeld]
@[simp] theorem State.syncHeld_mil (s : State) : (s.syncHeld).mil = s.mil := by simp [State.syncHeld]
@[simp] theorem State.syncHeld_taskErrs (s : State) : (s.syncHeld).taskErrs = s.taskErrs := by simp [State.syncHeld]

@[simp] theorem State.emit_out (s : State) (m : Out) : (s.emit m).out = s.out ++ [m] := id rfl
@[simp] theorem State.emit_word (s : State) (m : Out) (p off : Nat) : (s.emit m).word p off = s.word p off := id rfl
@[simp] theorem State.emit_fld (s : State) (m : Out) (p : Nat) (f : Fld) : (s.emit m).fld p f = s.fld p f := id rfl
@[simp] theorem State.emit_flag (s : State) (m : Out) (p : Nat) (f : Fld) : (s.emit m).flag p f = s.flag p f := id rfl
@[simp] theorem State.setVec_word (s : State) (v : Nat) (x : MsixVec) (p off : Nat) : (s.setVec v x).word p off = s.word p off := id rfl

@[simp] theorem State.pendVec_pending (s : State) (v : Nat) : (s.pendVec v).pending = s.pending := by
  simp only [State.pendVec]; split <;> rfl
@[simp] theorem State.pendVec_regs (s : State) (v : Nat) : (s.pendVec v).regs = s.regs := by
  simp only [State.pendVec]; split <;> rfl
@[simp] theorem State.pendVec_active (s : State) (v : Nat) : (s.pendVec v).active = s.active := by
  simp only [State.pendVec]; split <;> rfl
@[simp] theorem State.pendVec_locks (s : State) (v : Nat) : (s.pendVec v).locks = s.locks := by
  simp only [State.pendVec]; split <;> rfl
@[simp] theorem State.pendVec_freeCtr (s : State) (v : Nat) : (s.pendVec v).freeCtr = s.freeCtr := by
  simp only [State.pendVec]; split <;> rfl
@[simp] theorem State.pendVec_clock (s : State) (v : Nat) : (s.pendVec v).clock = s.clock := by
  simp only [State.pendVec]; split <;> rfl
@[simp] theorem State.pendVec_dmmCfg (s : State) (v : Nat) : (s.pendVec v).dmmCfg = s.dmmCfg := by
  simp only [State.pendVec]; split <;> rfl
@[simp] theorem State.pendVec_rateFloor (s : State) (v : Nat) : (s.pendVec v).rateFloor = s.rateFloor := by
  simp only [State.pendVec]; split <;> rfl
@[simp] theorem State.pendVec_dmm (s : State) (v : Nat) : (s.pendVec v).dmm = s.dmm := by
  simp only [State.pendVec]; split <;> rfl
@[simp] theorem State.pendVec_plan (s : State) (v : Nat) : (s.pendVec v).plan = s.plan := by
  simp only [State.pendVec]; split <;> rfl
@[simp] theorem State.pendVec_dom (s : State) (v : Nat) : (s.pendVec v).dom = s.dom := by
  simp only [State.pendVec]; split <;> rfl
@[simp] theorem State.pendVec_boot (s : State) (v : Nat) : (s.pendVec v).boot = s.boot := by
  simp only [State.pendVec]; split <;> rfl
@[simp] theorem State.pendVec_deliv (s : State) (v : Nat) : (s.pendVec v).deliv = s.deliv := by
  simp only [State.pendVec]; split <;> rfl
@[simp] theorem State.pendVec_lc (s : State) (v : Nat) : (s.pendVec v).lc = s.lc := by
  simp only [State.pendVec]; split <;> rfl
@[simp] theorem State.pendVec_tap (s : State) (v : Nat) : (s.pendVec v).tap = s.tap := by
  simp only [State.pendVec]; split <;> rfl
@[simp] theorem State.pendVec_rot (s : State) (v : Nat) : (s.pendVec v).rot = s.rot := by
  simp only [State.pendVec]; split <;> rfl
@[simp] theorem State.pendVec_saf (s : State) (v : Nat) : (s.pendVec v).saf = s.saf := by
  simp only [State.pendVec]; split <;> rfl
@[simp] theorem State.pendVec_mem (s : State) (v : Nat) : (s.pendVec v).mem = s.mem := by
  simp only [State.pendVec]; split <;> rfl
@[simp] theorem State.pendVec_atu (s : State) (v : Nat) : (s.pendVec v).atu = s.atu := by
  simp only [State.pendVec]; split <;> rfl
@[simp] theorem State.pendVec_dsp (s : State) (v : Nat) : (s.pendVec v).dsp = s.dsp := by
  simp only [State.pendVec]; split <;> rfl
@[simp] theorem State.pendVec_mesh (s : State) (v : Nat) : (s.pendVec v).mesh = s.mesh := by
  simp only [State.pendVec]; split <;> rfl
@[simp] theorem State.pendVec_fab (s : State) (v : Nat) : (s.pendVec v).fab = s.fab := by
  simp only [State.pendVec]; split <;> rfl
@[simp] theorem State.pendVec_site (s : State) (v : Nat) : (s.pendVec v).site = s.site := by
  simp only [State.pendVec]; split <;> rfl
@[simp] theorem State.pendVec_joins (s : State) (v : Nat) : (s.pendVec v).joins = s.joins := by
  simp only [State.pendVec]; split <;> rfl
@[simp] theorem State.pendVec_nextJoin (s : State) (v : Nat) : (s.pendVec v).nextJoin = s.nextJoin := by
  simp only [State.pendVec]; split <;> rfl
@[simp] theorem State.pendVec_xwaits (s : State) (v : Nat) : (s.pendVec v).xwaits = s.xwaits := by
  simp only [State.pendVec]; split <;> rfl
@[simp] theorem State.pendVec_nextWait (s : State) (v : Nat) : (s.pendVec v).nextWait = s.nextWait := by
  simp only [State.pendVec]; split <;> rfl
@[simp] theorem State.pendVec_eth (s : State) (v : Nat) : (s.pendVec v).eth = s.eth := by
  simp only [State.pendVec]; split <;> rfl
@[simp] theorem State.pendVec_mil (s : State) (v : Nat) : (s.pendVec v).mil = s.mil := by
  simp only [State.pendVec]; split <;> rfl
@[simp] theorem State.pendVec_taskErrs (s : State) (v : Nat) : (s.pendVec v).taskErrs = s.taskErrs := by
  simp only [State.pendVec]; split <;> rfl

@[simp] theorem State.sendVector_pending (s : State) (v : Nat) : (s.sendVector v).pending = s.pending := by
  simp only [State.sendVector]; split <;> simp
@[simp] theorem State.sendVector_regs (s : State) (v : Nat) : (s.sendVector v).regs = s.regs := by
  simp only [State.sendVector]; split <;> simp
@[simp] theorem State.sendVector_active (s : State) (v : Nat) : (s.sendVector v).active = s.active := by
  simp only [State.sendVector]; split <;> simp
@[simp] theorem State.sendVector_locks (s : State) (v : Nat) : (s.sendVector v).locks = s.locks := by
  simp only [State.sendVector]; split <;> simp
@[simp] theorem State.sendVector_freeCtr (s : State) (v : Nat) : (s.sendVector v).freeCtr = s.freeCtr := by
  simp only [State.sendVector]; split <;> simp
@[simp] theorem State.sendVector_clock (s : State) (v : Nat) : (s.sendVector v).clock = s.clock := by
  simp only [State.sendVector]; split <;> simp
@[simp] theorem State.sendVector_dmmCfg (s : State) (v : Nat) : (s.sendVector v).dmmCfg = s.dmmCfg := by
  simp only [State.sendVector]; split <;> simp
@[simp] theorem State.sendVector_rateFloor (s : State) (v : Nat) : (s.sendVector v).rateFloor = s.rateFloor := by
  simp only [State.sendVector]; split <;> simp
@[simp] theorem State.sendVector_dmm (s : State) (v : Nat) : (s.sendVector v).dmm = s.dmm := by
  simp only [State.sendVector]; split <;> simp
@[simp] theorem State.sendVector_plan (s : State) (v : Nat) : (s.sendVector v).plan = s.plan := by
  simp only [State.sendVector]; split <;> simp
@[simp] theorem State.sendVector_dom (s : State) (v : Nat) : (s.sendVector v).dom = s.dom := by
  simp only [State.sendVector]; split <;> simp
@[simp] theorem State.sendVector_boot (s : State) (v : Nat) : (s.sendVector v).boot = s.boot := by
  simp only [State.sendVector]; split <;> simp
@[simp] theorem State.sendVector_deliv (s : State) (v : Nat) : (s.sendVector v).deliv = s.deliv := by
  simp only [State.sendVector]; split <;> simp
@[simp] theorem State.sendVector_lc (s : State) (v : Nat) : (s.sendVector v).lc = s.lc := by
  simp only [State.sendVector]; split <;> simp
@[simp] theorem State.sendVector_tap (s : State) (v : Nat) : (s.sendVector v).tap = s.tap := by
  simp only [State.sendVector]; split <;> simp
@[simp] theorem State.sendVector_rot (s : State) (v : Nat) : (s.sendVector v).rot = s.rot := by
  simp only [State.sendVector]; split <;> simp
@[simp] theorem State.sendVector_saf (s : State) (v : Nat) : (s.sendVector v).saf = s.saf := by
  simp only [State.sendVector]; split <;> simp
@[simp] theorem State.sendVector_mem (s : State) (v : Nat) : (s.sendVector v).mem = s.mem := by
  simp only [State.sendVector]; split <;> simp
@[simp] theorem State.sendVector_atu (s : State) (v : Nat) : (s.sendVector v).atu = s.atu := by
  simp only [State.sendVector]; split <;> simp
@[simp] theorem State.sendVector_dsp (s : State) (v : Nat) : (s.sendVector v).dsp = s.dsp := by
  simp only [State.sendVector]; split <;> simp
@[simp] theorem State.sendVector_mesh (s : State) (v : Nat) : (s.sendVector v).mesh = s.mesh := by
  simp only [State.sendVector]; split <;> simp
@[simp] theorem State.sendVector_fab (s : State) (v : Nat) : (s.sendVector v).fab = s.fab := by
  simp only [State.sendVector]; split <;> simp
@[simp] theorem State.sendVector_site (s : State) (v : Nat) : (s.sendVector v).site = s.site := by
  simp only [State.sendVector]; split <;> simp
@[simp] theorem State.sendVector_joins (s : State) (v : Nat) : (s.sendVector v).joins = s.joins := by
  simp only [State.sendVector]; split <;> simp
@[simp] theorem State.sendVector_nextJoin (s : State) (v : Nat) : (s.sendVector v).nextJoin = s.nextJoin := by
  simp only [State.sendVector]; split <;> simp
@[simp] theorem State.sendVector_xwaits (s : State) (v : Nat) : (s.sendVector v).xwaits = s.xwaits := by
  simp only [State.sendVector]; split <;> simp
@[simp] theorem State.sendVector_nextWait (s : State) (v : Nat) : (s.sendVector v).nextWait = s.nextWait := by
  simp only [State.sendVector]; split <;> simp
@[simp] theorem State.sendVector_eth (s : State) (v : Nat) : (s.sendVector v).eth = s.eth := by
  simp only [State.sendVector]; split <;> simp
@[simp] theorem State.sendVector_mil (s : State) (v : Nat) : (s.sendVector v).mil = s.mil := by
  simp only [State.sendVector]; split <;> simp
@[simp] theorem State.sendVector_taskErrs (s : State) (v : Nat) : (s.sendVector v).taskErrs = s.taskErrs := by
  simp only [State.sendVector]; split <;> simp

@[simp] theorem State.deliverIrq_pending (s : State) (p : Nat) : (s.deliverIrq p).pending = s.pending := by
  simp only [State.deliverIrq]; (repeat' split) <;> simp
@[simp] theorem State.deliverIrq_regs (s : State) (p : Nat) : (s.deliverIrq p).regs = s.regs := by
  simp only [State.deliverIrq]; (repeat' split) <;> simp
@[simp] theorem State.deliverIrq_active (s : State) (p : Nat) : (s.deliverIrq p).active = s.active := by
  simp only [State.deliverIrq]; (repeat' split) <;> simp
@[simp] theorem State.deliverIrq_locks (s : State) (p : Nat) : (s.deliverIrq p).locks = s.locks := by
  simp only [State.deliverIrq]; (repeat' split) <;> simp
@[simp] theorem State.deliverIrq_freeCtr (s : State) (p : Nat) : (s.deliverIrq p).freeCtr = s.freeCtr := by
  simp only [State.deliverIrq]; (repeat' split) <;> simp
@[simp] theorem State.deliverIrq_clock (s : State) (p : Nat) : (s.deliverIrq p).clock = s.clock := by
  simp only [State.deliverIrq]; (repeat' split) <;> simp
@[simp] theorem State.deliverIrq_dmmCfg (s : State) (p : Nat) : (s.deliverIrq p).dmmCfg = s.dmmCfg := by
  simp only [State.deliverIrq]; (repeat' split) <;> simp
@[simp] theorem State.deliverIrq_rateFloor (s : State) (p : Nat) : (s.deliverIrq p).rateFloor = s.rateFloor := by
  simp only [State.deliverIrq]; (repeat' split) <;> simp
@[simp] theorem State.deliverIrq_dmm (s : State) (p : Nat) : (s.deliverIrq p).dmm = s.dmm := by
  simp only [State.deliverIrq]; (repeat' split) <;> simp
@[simp] theorem State.deliverIrq_plan (s : State) (p : Nat) : (s.deliverIrq p).plan = s.plan := by
  simp only [State.deliverIrq]; (repeat' split) <;> simp
@[simp] theorem State.deliverIrq_dom (s : State) (p : Nat) : (s.deliverIrq p).dom = s.dom := by
  simp only [State.deliverIrq]; (repeat' split) <;> simp
@[simp] theorem State.deliverIrq_boot (s : State) (p : Nat) : (s.deliverIrq p).boot = s.boot := by
  simp only [State.deliverIrq]; (repeat' split) <;> simp
@[simp] theorem State.deliverIrq_deliv (s : State) (p : Nat) : (s.deliverIrq p).deliv = s.deliv := by
  simp only [State.deliverIrq]; (repeat' split) <;> simp
@[simp] theorem State.deliverIrq_lc (s : State) (p : Nat) : (s.deliverIrq p).lc = s.lc := by
  simp only [State.deliverIrq]; (repeat' split) <;> simp
@[simp] theorem State.deliverIrq_tap (s : State) (p : Nat) : (s.deliverIrq p).tap = s.tap := by
  simp only [State.deliverIrq]; (repeat' split) <;> simp
@[simp] theorem State.deliverIrq_rot (s : State) (p : Nat) : (s.deliverIrq p).rot = s.rot := by
  simp only [State.deliverIrq]; (repeat' split) <;> simp
@[simp] theorem State.deliverIrq_saf (s : State) (p : Nat) : (s.deliverIrq p).saf = s.saf := by
  simp only [State.deliverIrq]; (repeat' split) <;> simp
@[simp] theorem State.deliverIrq_mem (s : State) (p : Nat) : (s.deliverIrq p).mem = s.mem := by
  simp only [State.deliverIrq]; (repeat' split) <;> simp
@[simp] theorem State.deliverIrq_atu (s : State) (p : Nat) : (s.deliverIrq p).atu = s.atu := by
  simp only [State.deliverIrq]; (repeat' split) <;> simp
@[simp] theorem State.deliverIrq_dsp (s : State) (p : Nat) : (s.deliverIrq p).dsp = s.dsp := by
  simp only [State.deliverIrq]; (repeat' split) <;> simp
@[simp] theorem State.deliverIrq_mesh (s : State) (p : Nat) : (s.deliverIrq p).mesh = s.mesh := by
  simp only [State.deliverIrq]; (repeat' split) <;> simp
@[simp] theorem State.deliverIrq_fab (s : State) (p : Nat) : (s.deliverIrq p).fab = s.fab := by
  simp only [State.deliverIrq]; (repeat' split) <;> simp
@[simp] theorem State.deliverIrq_site (s : State) (p : Nat) : (s.deliverIrq p).site = s.site := by
  simp only [State.deliverIrq]; (repeat' split) <;> simp
@[simp] theorem State.deliverIrq_joins (s : State) (p : Nat) : (s.deliverIrq p).joins = s.joins := by
  simp only [State.deliverIrq]; (repeat' split) <;> simp
@[simp] theorem State.deliverIrq_nextJoin (s : State) (p : Nat) : (s.deliverIrq p).nextJoin = s.nextJoin := by
  simp only [State.deliverIrq]; (repeat' split) <;> simp
@[simp] theorem State.deliverIrq_xwaits (s : State) (p : Nat) : (s.deliverIrq p).xwaits = s.xwaits := by
  simp only [State.deliverIrq]; (repeat' split) <;> simp
@[simp] theorem State.deliverIrq_nextWait (s : State) (p : Nat) : (s.deliverIrq p).nextWait = s.nextWait := by
  simp only [State.deliverIrq]; (repeat' split) <;> simp
@[simp] theorem State.deliverIrq_eth (s : State) (p : Nat) : (s.deliverIrq p).eth = s.eth := by
  simp only [State.deliverIrq]; (repeat' split) <;> simp
@[simp] theorem State.deliverIrq_mil (s : State) (p : Nat) : (s.deliverIrq p).mil = s.mil := by
  simp only [State.deliverIrq]; (repeat' split) <;> simp
@[simp] theorem State.deliverIrq_taskErrs (s : State) (p : Nat) : (s.deliverIrq p).taskErrs = s.taskErrs := by
  simp only [State.deliverIrq]; (repeat' split) <;> simp

@[simp] theorem State.setInt_pending (s : State) (p b : Nat) : (s.setInt p b).pending = s.pending := by
  simp only [State.setInt, State.withIrq]; (repeat' split) <;> simp
@[simp] theorem State.setInt_active (s : State) (p b : Nat) : (s.setInt p b).active = s.active := by
  simp only [State.setInt, State.withIrq]; (repeat' split) <;> simp
@[simp] theorem State.setInt_locks (s : State) (p b : Nat) : (s.setInt p b).locks = s.locks := by
  simp only [State.setInt, State.withIrq]; (repeat' split) <;> simp
@[simp] theorem State.setInt_freeCtr (s : State) (p b : Nat) : (s.setInt p b).freeCtr = s.freeCtr := by
  simp only [State.setInt, State.withIrq]; (repeat' split) <;> simp
@[simp] theorem State.setInt_clock (s : State) (p b : Nat) : (s.setInt p b).clock = s.clock := by
  simp only [State.setInt, State.withIrq]; (repeat' split) <;> simp
@[simp] theorem State.setInt_dmmCfg (s : State) (p b : Nat) : (s.setInt p b).dmmCfg = s.dmmCfg := by
  simp only [State.setInt, State.withIrq]; (repeat' split) <;> simp
@[simp] theorem State.setInt_rateFloor (s : State) (p b : Nat) : (s.setInt p b).rateFloor = s.rateFloor := by
  simp only [State.setInt, State.withIrq]; (repeat' split) <;> simp
@[simp] theorem State.setInt_dmm (s : State) (p b : Nat) : (s.setInt p b).dmm = s.dmm := by
  simp only [State.setInt, State.withIrq]; (repeat' split) <;> simp
@[simp] theorem State.setInt_plan (s : State) (p b : Nat) : (s.setInt p b).plan = s.plan := by
  simp only [State.setInt, State.withIrq]; (repeat' split) <;> simp
@[simp] theorem State.setInt_dom (s : State) (p b : Nat) : (s.setInt p b).dom = s.dom := by
  simp only [State.setInt, State.withIrq]; (repeat' split) <;> simp
@[simp] theorem State.setInt_boot (s : State) (p b : Nat) : (s.setInt p b).boot = s.boot := by
  simp only [State.setInt, State.withIrq]; (repeat' split) <;> simp
@[simp] theorem State.setInt_deliv (s : State) (p b : Nat) : (s.setInt p b).deliv = s.deliv := by
  simp only [State.setInt, State.withIrq]; (repeat' split) <;> simp
@[simp] theorem State.setInt_lc (s : State) (p b : Nat) : (s.setInt p b).lc = s.lc := by
  simp only [State.setInt, State.withIrq]; (repeat' split) <;> simp
@[simp] theorem State.setInt_tap (s : State) (p b : Nat) : (s.setInt p b).tap = s.tap := by
  simp only [State.setInt, State.withIrq]; (repeat' split) <;> simp
@[simp] theorem State.setInt_rot (s : State) (p b : Nat) : (s.setInt p b).rot = s.rot := by
  simp only [State.setInt, State.withIrq]; (repeat' split) <;> simp
@[simp] theorem State.setInt_saf (s : State) (p b : Nat) : (s.setInt p b).saf = s.saf := by
  simp only [State.setInt, State.withIrq]; (repeat' split) <;> simp
@[simp] theorem State.setInt_mem (s : State) (p b : Nat) : (s.setInt p b).mem = s.mem := by
  simp only [State.setInt, State.withIrq]; (repeat' split) <;> simp
@[simp] theorem State.setInt_atu (s : State) (p b : Nat) : (s.setInt p b).atu = s.atu := by
  simp only [State.setInt, State.withIrq]; (repeat' split) <;> simp
@[simp] theorem State.setInt_dsp (s : State) (p b : Nat) : (s.setInt p b).dsp = s.dsp := by
  simp only [State.setInt, State.withIrq]; (repeat' split) <;> simp
@[simp] theorem State.setInt_mesh (s : State) (p b : Nat) : (s.setInt p b).mesh = s.mesh := by
  simp only [State.setInt, State.withIrq]; (repeat' split) <;> simp
@[simp] theorem State.setInt_fab (s : State) (p b : Nat) : (s.setInt p b).fab = s.fab := by
  simp only [State.setInt, State.withIrq]; (repeat' split) <;> simp
@[simp] theorem State.setInt_site (s : State) (p b : Nat) : (s.setInt p b).site = s.site := by
  simp only [State.setInt, State.withIrq]; (repeat' split) <;> simp
@[simp] theorem State.setInt_joins (s : State) (p b : Nat) : (s.setInt p b).joins = s.joins := by
  simp only [State.setInt, State.withIrq]; (repeat' split) <;> simp
@[simp] theorem State.setInt_nextJoin (s : State) (p b : Nat) : (s.setInt p b).nextJoin = s.nextJoin := by
  simp only [State.setInt, State.withIrq]; (repeat' split) <;> simp
@[simp] theorem State.setInt_xwaits (s : State) (p b : Nat) : (s.setInt p b).xwaits = s.xwaits := by
  simp only [State.setInt, State.withIrq]; (repeat' split) <;> simp
@[simp] theorem State.setInt_nextWait (s : State) (p b : Nat) : (s.setInt p b).nextWait = s.nextWait := by
  simp only [State.setInt, State.withIrq]; (repeat' split) <;> simp
@[simp] theorem State.setInt_eth (s : State) (p b : Nat) : (s.setInt p b).eth = s.eth := by
  simp only [State.setInt, State.withIrq]; (repeat' split) <;> simp
@[simp] theorem State.setInt_mil (s : State) (p b : Nat) : (s.setInt p b).mil = s.mil := by
  simp only [State.setInt, State.withIrq]; (repeat' split) <;> simp
@[simp] theorem State.setInt_taskErrs (s : State) (p b : Nat) : (s.setInt p b).taskErrs = s.taskErrs := by
  simp only [State.setInt, State.withIrq]; (repeat' split) <;> simp

@[simp] theorem State.pageErr_pending (s : State) (p : Nat) (e : PErr) (r : Requester) (o : Nat) : (s.pageErr p e r o).pending = s.pending := by
  simp only [State.pageErr]; split <;> simp
@[simp] theorem State.pageErr_active (s : State) (p : Nat) (e : PErr) (r : Requester) (o : Nat) : (s.pageErr p e r o).active = s.active := by
  simp only [State.pageErr]; split <;> simp
@[simp] theorem State.pageErr_locks (s : State) (p : Nat) (e : PErr) (r : Requester) (o : Nat) : (s.pageErr p e r o).locks = s.locks := by
  simp only [State.pageErr]; split <;> simp
@[simp] theorem State.pageErr_freeCtr (s : State) (p : Nat) (e : PErr) (r : Requester) (o : Nat) : (s.pageErr p e r o).freeCtr = s.freeCtr := by
  simp only [State.pageErr]; split <;> simp
@[simp] theorem State.pageErr_clock (s : State) (p : Nat) (e : PErr) (r : Requester) (o : Nat) : (s.pageErr p e r o).clock = s.clock := by
  simp only [State.pageErr]; split <;> simp
@[simp] theorem State.pageErr_dmmCfg (s : State) (p : Nat) (e : PErr) (r : Requester) (o : Nat) : (s.pageErr p e r o).dmmCfg = s.dmmCfg := by
  simp only [State.pageErr]; split <;> simp
@[simp] theorem State.pageErr_rateFloor (s : State) (p : Nat) (e : PErr) (r : Requester) (o : Nat) : (s.pageErr p e r o).rateFloor = s.rateFloor := by
  simp only [State.pageErr]; split <;> simp
@[simp] theorem State.pageErr_dmm (s : State) (p : Nat) (e : PErr) (r : Requester) (o : Nat) : (s.pageErr p e r o).dmm = s.dmm := by
  simp only [State.pageErr]; split <;> simp
@[simp] theorem State.pageErr_plan (s : State) (p : Nat) (e : PErr) (r : Requester) (o : Nat) : (s.pageErr p e r o).plan = s.plan := by
  simp only [State.pageErr]; split <;> simp
@[simp] theorem State.pageErr_dom (s : State) (p : Nat) (e : PErr) (r : Requester) (o : Nat) : (s.pageErr p e r o).dom = s.dom := by
  simp only [State.pageErr]; split <;> simp
@[simp] theorem State.pageErr_boot (s : State) (p : Nat) (e : PErr) (r : Requester) (o : Nat) : (s.pageErr p e r o).boot = s.boot := by
  simp only [State.pageErr]; split <;> simp
@[simp] theorem State.pageErr_deliv (s : State) (p : Nat) (e : PErr) (r : Requester) (o : Nat) : (s.pageErr p e r o).deliv = s.deliv := by
  simp only [State.pageErr]; split <;> simp
@[simp] theorem State.pageErr_lc (s : State) (p : Nat) (e : PErr) (r : Requester) (o : Nat) : (s.pageErr p e r o).lc = s.lc := by
  simp only [State.pageErr]; split <;> simp
@[simp] theorem State.pageErr_tap (s : State) (p : Nat) (e : PErr) (r : Requester) (o : Nat) : (s.pageErr p e r o).tap = s.tap := by
  simp only [State.pageErr]; split <;> simp
@[simp] theorem State.pageErr_rot (s : State) (p : Nat) (e : PErr) (r : Requester) (o : Nat) : (s.pageErr p e r o).rot = s.rot := by
  simp only [State.pageErr]; split <;> simp
@[simp] theorem State.pageErr_saf (s : State) (p : Nat) (e : PErr) (r : Requester) (o : Nat) : (s.pageErr p e r o).saf = s.saf := by
  simp only [State.pageErr]; split <;> simp
@[simp] theorem State.pageErr_mem (s : State) (p : Nat) (e : PErr) (r : Requester) (o : Nat) : (s.pageErr p e r o).mem = s.mem := by
  simp only [State.pageErr]; split <;> simp
@[simp] theorem State.pageErr_atu (s : State) (p : Nat) (e : PErr) (r : Requester) (o : Nat) : (s.pageErr p e r o).atu = s.atu := by
  simp only [State.pageErr]; split <;> simp
@[simp] theorem State.pageErr_dsp (s : State) (p : Nat) (e : PErr) (r : Requester) (o : Nat) : (s.pageErr p e r o).dsp = s.dsp := by
  simp only [State.pageErr]; split <;> simp
@[simp] theorem State.pageErr_mesh (s : State) (p : Nat) (e : PErr) (r : Requester) (o : Nat) : (s.pageErr p e r o).mesh = s.mesh := by
  simp only [State.pageErr]; split <;> simp
@[simp] theorem State.pageErr_fab (s : State) (p : Nat) (e : PErr) (r : Requester) (o : Nat) : (s.pageErr p e r o).fab = s.fab := by
  simp only [State.pageErr]; split <;> simp
@[simp] theorem State.pageErr_site (s : State) (p : Nat) (e : PErr) (r : Requester) (o : Nat) : (s.pageErr p e r o).site = s.site := by
  simp only [State.pageErr]; split <;> simp
@[simp] theorem State.pageErr_joins (s : State) (p : Nat) (e : PErr) (r : Requester) (o : Nat) : (s.pageErr p e r o).joins = s.joins := by
  simp only [State.pageErr]; split <;> simp
@[simp] theorem State.pageErr_nextJoin (s : State) (p : Nat) (e : PErr) (r : Requester) (o : Nat) : (s.pageErr p e r o).nextJoin = s.nextJoin := by
  simp only [State.pageErr]; split <;> simp
@[simp] theorem State.pageErr_xwaits (s : State) (p : Nat) (e : PErr) (r : Requester) (o : Nat) : (s.pageErr p e r o).xwaits = s.xwaits := by
  simp only [State.pageErr]; split <;> simp
@[simp] theorem State.pageErr_nextWait (s : State) (p : Nat) (e : PErr) (r : Requester) (o : Nat) : (s.pageErr p e r o).nextWait = s.nextWait := by
  simp only [State.pageErr]; split <;> simp
@[simp] theorem State.pageErr_eth (s : State) (p : Nat) (e : PErr) (r : Requester) (o : Nat) : (s.pageErr p e r o).eth = s.eth := by
  simp only [State.pageErr]; split <;> simp
@[simp] theorem State.pageErr_mil (s : State) (p : Nat) (e : PErr) (r : Requester) (o : Nat) : (s.pageErr p e r o).mil = s.mil := by
  simp only [State.pageErr]; split <;> simp
@[simp] theorem State.pageErr_taskErrs (s : State) (p : Nat) (e : PErr) (r : Requester) (o : Nat) : (s.pageErr p e r o).taskErrs = s.taskErrs := by
  simp only [State.pageErr]; split <;> simp

@[simp] theorem State.order_pending (s : State) (p : Nat) (r : Requester) (o : Nat) : (s.order p r o).pending = s.pending := by
  simp [State.order]
@[simp] theorem State.order_active (s : State) (p : Nat) (r : Requester) (o : Nat) : (s.order p r o).active = s.active := by
  simp [State.order]
@[simp] theorem State.order_locks (s : State) (p : Nat) (r : Requester) (o : Nat) : (s.order p r o).locks = s.locks := by
  simp [State.order]
@[simp] theorem State.order_freeCtr (s : State) (p : Nat) (r : Requester) (o : Nat) : (s.order p r o).freeCtr = s.freeCtr := by
  simp [State.order]
@[simp] theorem State.order_clock (s : State) (p : Nat) (r : Requester) (o : Nat) : (s.order p r o).clock = s.clock := by
  simp [State.order]
@[simp] theorem State.order_dmmCfg (s : State) (p : Nat) (r : Requester) (o : Nat) : (s.order p r o).dmmCfg = s.dmmCfg := by
  simp [State.order]
@[simp] theorem State.order_rateFloor (s : State) (p : Nat) (r : Requester) (o : Nat) : (s.order p r o).rateFloor = s.rateFloor := by
  simp [State.order]
@[simp] theorem State.order_dmm (s : State) (p : Nat) (r : Requester) (o : Nat) : (s.order p r o).dmm = s.dmm := by
  simp [State.order]
@[simp] theorem State.order_plan (s : State) (p : Nat) (r : Requester) (o : Nat) : (s.order p r o).plan = s.plan := by
  simp [State.order]
@[simp] theorem State.order_dom (s : State) (p : Nat) (r : Requester) (o : Nat) : (s.order p r o).dom = s.dom := by
  simp [State.order]
@[simp] theorem State.order_boot (s : State) (p : Nat) (r : Requester) (o : Nat) : (s.order p r o).boot = s.boot := by
  simp [State.order]
@[simp] theorem State.order_deliv (s : State) (p : Nat) (r : Requester) (o : Nat) : (s.order p r o).deliv = s.deliv := by
  simp [State.order]
@[simp] theorem State.order_lc (s : State) (p : Nat) (r : Requester) (o : Nat) : (s.order p r o).lc = s.lc := by
  simp [State.order]
@[simp] theorem State.order_tap (s : State) (p : Nat) (r : Requester) (o : Nat) : (s.order p r o).tap = s.tap := by
  simp [State.order]
@[simp] theorem State.order_rot (s : State) (p : Nat) (r : Requester) (o : Nat) : (s.order p r o).rot = s.rot := by
  simp [State.order]
@[simp] theorem State.order_saf (s : State) (p : Nat) (r : Requester) (o : Nat) : (s.order p r o).saf = s.saf := by
  simp [State.order]
@[simp] theorem State.order_mem (s : State) (p : Nat) (r : Requester) (o : Nat) : (s.order p r o).mem = s.mem := by
  simp [State.order]
@[simp] theorem State.order_atu (s : State) (p : Nat) (r : Requester) (o : Nat) : (s.order p r o).atu = s.atu := by
  simp [State.order]
@[simp] theorem State.order_dsp (s : State) (p : Nat) (r : Requester) (o : Nat) : (s.order p r o).dsp = s.dsp := by
  simp [State.order]
@[simp] theorem State.order_mesh (s : State) (p : Nat) (r : Requester) (o : Nat) : (s.order p r o).mesh = s.mesh := by
  simp [State.order]
@[simp] theorem State.order_fab (s : State) (p : Nat) (r : Requester) (o : Nat) : (s.order p r o).fab = s.fab := by
  simp [State.order]
@[simp] theorem State.order_site (s : State) (p : Nat) (r : Requester) (o : Nat) : (s.order p r o).site = s.site := by
  simp [State.order]
@[simp] theorem State.order_joins (s : State) (p : Nat) (r : Requester) (o : Nat) : (s.order p r o).joins = s.joins := by
  simp [State.order]
@[simp] theorem State.order_nextJoin (s : State) (p : Nat) (r : Requester) (o : Nat) : (s.order p r o).nextJoin = s.nextJoin := by
  simp [State.order]
@[simp] theorem State.order_xwaits (s : State) (p : Nat) (r : Requester) (o : Nat) : (s.order p r o).xwaits = s.xwaits := by
  simp [State.order]
@[simp] theorem State.order_nextWait (s : State) (p : Nat) (r : Requester) (o : Nat) : (s.order p r o).nextWait = s.nextWait := by
  simp [State.order]
@[simp] theorem State.order_eth (s : State) (p : Nat) (r : Requester) (o : Nat) : (s.order p r o).eth = s.eth := by
  simp [State.order]
@[simp] theorem State.order_mil (s : State) (p : Nat) (r : Requester) (o : Nat) : (s.order p r o).mil = s.mil := by
  simp [State.order]
@[simp] theorem State.order_taskErrs (s : State) (p : Nat) (r : Requester) (o : Nat) : (s.order p r o).taskErrs = s.taskErrs := by
  simp [State.order]

@[simp] theorem State.setState_pending (s : State) (p st : Nat) : (s.setState p st).pending = s.pending := by
  simp only [State.setState]; (repeat' split) <;> simp
@[simp] theorem State.setState_active (s : State) (p st : Nat) : (s.setState p st).active = s.active := by
  simp only [State.setState]; (repeat' split) <;> simp
@[simp] theorem State.setState_locks (s : State) (p st : Nat) : (s.setState p st).locks = s.locks := by
  simp only [State.setState]; (repeat' split) <;> simp
@[simp] theorem State.setState_freeCtr (s : State) (p st : Nat) : (s.setState p st).freeCtr = s.freeCtr := by
  simp only [State.setState]; (repeat' split) <;> simp
@[simp] theorem State.setState_clock (s : State) (p st : Nat) : (s.setState p st).clock = s.clock := by
  simp only [State.setState]; (repeat' split) <;> simp
@[simp] theorem State.setState_dmmCfg (s : State) (p st : Nat) : (s.setState p st).dmmCfg = s.dmmCfg := by
  simp only [State.setState]; (repeat' split) <;> simp
@[simp] theorem State.setState_rateFloor (s : State) (p st : Nat) : (s.setState p st).rateFloor = s.rateFloor := by
  simp only [State.setState]; (repeat' split) <;> simp
@[simp] theorem State.setState_dmm (s : State) (p st : Nat) : (s.setState p st).dmm = s.dmm := by
  simp only [State.setState]; (repeat' split) <;> simp
@[simp] theorem State.setState_plan (s : State) (p st : Nat) : (s.setState p st).plan = s.plan := by
  simp only [State.setState]; (repeat' split) <;> simp
@[simp] theorem State.setState_dom (s : State) (p st : Nat) : (s.setState p st).dom = s.dom := by
  simp only [State.setState]; (repeat' split) <;> simp
@[simp] theorem State.setState_boot (s : State) (p st : Nat) : (s.setState p st).boot = s.boot := by
  simp only [State.setState]; (repeat' split) <;> simp
@[simp] theorem State.setState_deliv (s : State) (p st : Nat) : (s.setState p st).deliv = s.deliv := by
  simp only [State.setState]; (repeat' split) <;> simp
@[simp] theorem State.setState_lc (s : State) (p st : Nat) : (s.setState p st).lc = s.lc := by
  simp only [State.setState]; (repeat' split) <;> simp
@[simp] theorem State.setState_tap (s : State) (p st : Nat) : (s.setState p st).tap = s.tap := by
  simp only [State.setState]; (repeat' split) <;> simp
@[simp] theorem State.setState_rot (s : State) (p st : Nat) : (s.setState p st).rot = s.rot := by
  simp only [State.setState]; (repeat' split) <;> simp
@[simp] theorem State.setState_saf (s : State) (p st : Nat) : (s.setState p st).saf = s.saf := by
  simp only [State.setState]; (repeat' split) <;> simp
@[simp] theorem State.setState_mem (s : State) (p st : Nat) : (s.setState p st).mem = s.mem := by
  simp only [State.setState]; (repeat' split) <;> simp
@[simp] theorem State.setState_atu (s : State) (p st : Nat) : (s.setState p st).atu = s.atu := by
  simp only [State.setState]; (repeat' split) <;> simp
@[simp] theorem State.setState_dsp (s : State) (p st : Nat) : (s.setState p st).dsp = s.dsp := by
  simp only [State.setState]; (repeat' split) <;> simp
@[simp] theorem State.setState_mesh (s : State) (p st : Nat) : (s.setState p st).mesh = s.mesh := by
  simp only [State.setState]; (repeat' split) <;> simp
@[simp] theorem State.setState_fab (s : State) (p st : Nat) : (s.setState p st).fab = s.fab := by
  simp only [State.setState]; (repeat' split) <;> simp
@[simp] theorem State.setState_site (s : State) (p st : Nat) : (s.setState p st).site = s.site := by
  simp only [State.setState]; (repeat' split) <;> simp
@[simp] theorem State.setState_joins (s : State) (p st : Nat) : (s.setState p st).joins = s.joins := by
  simp only [State.setState]; (repeat' split) <;> simp
@[simp] theorem State.setState_nextJoin (s : State) (p st : Nat) : (s.setState p st).nextJoin = s.nextJoin := by
  simp only [State.setState]; (repeat' split) <;> simp
@[simp] theorem State.setState_xwaits (s : State) (p st : Nat) : (s.setState p st).xwaits = s.xwaits := by
  simp only [State.setState]; (repeat' split) <;> simp
@[simp] theorem State.setState_nextWait (s : State) (p st : Nat) : (s.setState p st).nextWait = s.nextWait := by
  simp only [State.setState]; (repeat' split) <;> simp
@[simp] theorem State.setState_eth (s : State) (p st : Nat) : (s.setState p st).eth = s.eth := by
  simp only [State.setState]; (repeat' split) <;> simp
@[simp] theorem State.setState_mil (s : State) (p st : Nat) : (s.setState p st).mil = s.mil := by
  simp only [State.setState]; (repeat' split) <;> simp
@[simp] theorem State.setState_taskErrs (s : State) (p st : Nat) : (s.setState p st).taskErrs = s.taskErrs := by
  simp only [State.setState]; (repeat' split) <;> simp

/-! ### Registers through interrupts -/

theorem State.deliverIrq_word (s : State) (p q off : Nat) : (s.deliverIrq p).word q off = s.word q off := by
  have h : (s.deliverIrq p).regs = s.regs := State.deliverIrq_regs s p
  simp only [State.word, h]

/-- Setting an interrupt bit changes no register but INT_STATUS of its page. -/
theorem State.setInt_word (s : State) {p b q off : Nat} (h : homePage q off * 512 + off / 8 ≠ homePage p 0x30 * 512 + 0x30 / 8) :
    (s.setInt p b).word q off = s.word q off := by
  simp only [State.setInt, State.withIrq]
  split
  · rw [State.deliverIrq_word, State.word_setWord_ne s _ h]
  · rw [State.word_setWord_ne s _ h]

theorem State.setInt_fld (s : State) {p b q : Nat} {f : Fld} (h : homePage q f.off * 512 + f.off / 8 ≠ homePage p 0x30 * 512 + 0x30 / 8) :
    (s.setInt p b).fld q f = s.fld q f := by
  simp only [State.fld, State.setInt_word s h]

end Sys2Proof.Machine
end

