-- ==== Sys2Proof/Laws/Events.lean ====
section
/-! SUPPORT. Reporting an event, and a page taking up or ending work: for each operation one lemma that says everything it can do, and what
it leaves unchanged, one lemma per field. -/
namespace Sys2Proof.Machine
open Host

/-- An output that depends on a condition. -/
theorem State.emitIf_of (s : State) (b : Bool) (m : Out) (P : State → Prop)
    (h0 : P s)
    (h1 : P (s.emit m)) :
    P (s.emitIf b m) := by
  unfold State.emitIf
  split
  · exact h1
  · exact h0

@[simp] theorem State.emitIf_pending (s : State) (b : Bool) (m : Out) : (s.emitIf b m).pending = s.pending :=
  State.emitIf_of s b m (fun t => t.pending = s.pending) rfl (by simp)
@[simp] theorem State.emitIf_regs (s : State) (b : Bool) (m : Out) : (s.emitIf b m).regs = s.regs :=
  State.emitIf_of s b m (fun t => t.regs = s.regs) rfl (by simp)
@[simp] theorem State.emitIf_active (s : State) (b : Bool) (m : Out) : (s.emitIf b m).active = s.active :=
  State.emitIf_of s b m (fun t => t.active = s.active) rfl (by simp)
@[simp] theorem State.emitIf_locks (s : State) (b : Bool) (m : Out) : (s.emitIf b m).locks = s.locks :=
  State.emitIf_of s b m (fun t => t.locks = s.locks) rfl (by simp)
@[simp] theorem State.emitIf_freeCtr (s : State) (b : Bool) (m : Out) : (s.emitIf b m).freeCtr = s.freeCtr :=
  State.emitIf_of s b m (fun t => t.freeCtr = s.freeCtr) rfl (by simp)
@[simp] theorem State.emitIf_clock (s : State) (b : Bool) (m : Out) : (s.emitIf b m).clock = s.clock :=
  State.emitIf_of s b m (fun t => t.clock = s.clock) rfl (by simp)
@[simp] theorem State.emitIf_dmmCfg (s : State) (b : Bool) (m : Out) : (s.emitIf b m).dmmCfg = s.dmmCfg :=
  State.emitIf_of s b m (fun t => t.dmmCfg = s.dmmCfg) rfl (by simp)
@[simp] theorem State.emitIf_rateFloor (s : State) (b : Bool) (m : Out) : (s.emitIf b m).rateFloor = s.rateFloor :=
  State.emitIf_of s b m (fun t => t.rateFloor = s.rateFloor) rfl (by simp)
@[simp] theorem State.emitIf_dmm (s : State) (b : Bool) (m : Out) : (s.emitIf b m).dmm = s.dmm :=
  State.emitIf_of s b m (fun t => t.dmm = s.dmm) rfl (by simp)
@[simp] theorem State.emitIf_plan (s : State) (b : Bool) (m : Out) : (s.emitIf b m).plan = s.plan :=
  State.emitIf_of s b m (fun t => t.plan = s.plan) rfl (by simp)
@[simp] theorem State.emitIf_dom (s : State) (b : Bool) (m : Out) : (s.emitIf b m).dom = s.dom :=
  State.emitIf_of s b m (fun t => t.dom = s.dom) rfl (by simp)
@[simp] theorem State.emitIf_boot (s : State) (b : Bool) (m : Out) : (s.emitIf b m).boot = s.boot :=
  State.emitIf_of s b m (fun t => t.boot = s.boot) rfl (by simp)
@[simp] theorem State.emitIf_deliv (s : State) (b : Bool) (m : Out) : (s.emitIf b m).deliv = s.deliv :=
  State.emitIf_of s b m (fun t => t.deliv = s.deliv) rfl (by simp)
@[simp] theorem State.emitIf_host (s : State) (b : Bool) (m : Out) : (s.emitIf b m).host = s.host :=
  State.emitIf_of s b m (fun t => t.host = s.host) rfl (by simp)
@[simp] theorem State.emitIf_lc (s : State) (b : Bool) (m : Out) : (s.emitIf b m).lc = s.lc :=
  State.emitIf_of s b m (fun t => t.lc = s.lc) rfl (by simp)
@[simp] theorem State.emitIf_tap (s : State) (b : Bool) (m : Out) : (s.emitIf b m).tap = s.tap :=
  State.emitIf_of s b m (fun t => t.tap = s.tap) rfl (by simp)
@[simp] theorem State.emitIf_rot (s : State) (b : Bool) (m : Out) : (s.emitIf b m).rot = s.rot :=
  State.emitIf_of s b m (fun t => t.rot = s.rot) rfl (by simp)
@[simp] theorem State.emitIf_saf (s : State) (b : Bool) (m : Out) : (s.emitIf b m).saf = s.saf :=
  State.emitIf_of s b m (fun t => t.saf = s.saf) rfl (by simp)
@[simp] theorem State.emitIf_mem (s : State) (b : Bool) (m : Out) : (s.emitIf b m).mem = s.mem :=
  State.emitIf_of s b m (fun t => t.mem = s.mem) rfl (by simp)
@[simp] theorem State.emitIf_atu (s : State) (b : Bool) (m : Out) : (s.emitIf b m).atu = s.atu :=
  State.emitIf_of s b m (fun t => t.atu = s.atu) rfl (by simp)
@[simp] theorem State.emitIf_dsp (s : State) (b : Bool) (m : Out) : (s.emitIf b m).dsp = s.dsp :=
  State.emitIf_of s b m (fun t => t.dsp = s.dsp) rfl (by simp)
@[simp] theorem State.emitIf_mesh (s : State) (b : Bool) (m : Out) : (s.emitIf b m).mesh = s.mesh :=
  State.emitIf_of s b m (fun t => t.mesh = s.mesh) rfl (by simp)
@[simp] theorem State.emitIf_fab (s : State) (b : Bool) (m : Out) : (s.emitIf b m).fab = s.fab :=
  State.emitIf_of s b m (fun t => t.fab = s.fab) rfl (by simp)
@[simp] theorem State.emitIf_site (s : State) (b : Bool) (m : Out) : (s.emitIf b m).site = s.site :=
  State.emitIf_of s b m (fun t => t.site = s.site) rfl (by simp)
@[simp] theorem State.emitIf_joins (s : State) (b : Bool) (m : Out) : (s.emitIf b m).joins = s.joins :=
  State.emitIf_of s b m (fun t => t.joins = s.joins) rfl (by simp)
@[simp] theorem State.emitIf_nextJoin (s : State) (b : Bool) (m : Out) : (s.emitIf b m).nextJoin = s.nextJoin :=
  State.emitIf_of s b m (fun t => t.nextJoin = s.nextJoin) rfl (by simp)
@[simp] theorem State.emitIf_xwaits (s : State) (b : Bool) (m : Out) : (s.emitIf b m).xwaits = s.xwaits :=
  State.emitIf_of s b m (fun t => t.xwaits = s.xwaits) rfl (by simp)
@[simp] theorem State.emitIf_nextWait (s : State) (b : Bool) (m : Out) : (s.emitIf b m).nextWait = s.nextWait :=
  State.emitIf_of s b m (fun t => t.nextWait = s.nextWait) rfl (by simp)
@[simp] theorem State.emitIf_eth (s : State) (b : Bool) (m : Out) : (s.emitIf b m).eth = s.eth :=
  State.emitIf_of s b m (fun t => t.eth = s.eth) rfl (by simp)
@[simp] theorem State.emitIf_mil (s : State) (b : Bool) (m : Out) : (s.emitIf b m).mil = s.mil :=
  State.emitIf_of s b m (fun t => t.mil = s.mil) rfl (by simp)
@[simp] theorem State.emitIf_taskErrs (s : State) (b : Bool) (m : Out) : (s.emitIf b m).taskErrs = s.taskErrs :=
  State.emitIf_of s b m (fun t => t.taskErrs = s.taskErrs) rfl (by simp)

/-- FAULT_N is driven, or was. -/
theorem State.faultN_of (s : State) (P : State → Prop)
    (h0 : P s)
    (h1 : P ((s.setFld pSAF PgSAF.STATUS_FAULT_N 1).emit (.faultN true))) :
    P s.faultN := by
  unfold State.faultN
  split
  · exact h0
  · exact h1

@[simp] theorem State.faultN_pending (s : State) : s.faultN.pending = s.pending :=
  State.faultN_of s (fun t => t.pending = s.pending) rfl (by simp)
@[simp] theorem State.faultN_active (s : State) : s.faultN.active = s.active :=
  State.faultN_of s (fun t => t.active = s.active) rfl (by simp)
@[simp] theorem State.faultN_locks (s : State) : s.faultN.locks = s.locks :=
  State.faultN_of s (fun t => t.locks = s.locks) rfl (by simp)
@[simp] theorem State.faultN_freeCtr (s : State) : s.faultN.freeCtr = s.freeCtr :=
  State.faultN_of s (fun t => t.freeCtr = s.freeCtr) rfl (by simp)
@[simp] theorem State.faultN_clock (s : State) : s.faultN.clock = s.clock :=
  State.faultN_of s (fun t => t.clock = s.clock) rfl (by simp)
@[simp] theorem State.faultN_dmmCfg (s : State) : s.faultN.dmmCfg = s.dmmCfg :=
  State.faultN_of s (fun t => t.dmmCfg = s.dmmCfg) rfl (by simp)
@[simp] theorem State.faultN_rateFloor (s : State) : s.faultN.rateFloor = s.rateFloor :=
  State.faultN_of s (fun t => t.rateFloor = s.rateFloor) rfl (by simp)
@[simp] theorem State.faultN_dmm (s : State) : s.faultN.dmm = s.dmm :=
  State.faultN_of s (fun t => t.dmm = s.dmm) rfl (by simp)
@[simp] theorem State.faultN_plan (s : State) : s.faultN.plan = s.plan :=
  State.faultN_of s (fun t => t.plan = s.plan) rfl (by simp)
@[simp] theorem State.faultN_dom (s : State) : s.faultN.dom = s.dom :=
  State.faultN_of s (fun t => t.dom = s.dom) rfl (by simp)
@[simp] theorem State.faultN_boot (s : State) : s.faultN.boot = s.boot :=
  State.faultN_of s (fun t => t.boot = s.boot) rfl (by simp)
@[simp] theorem State.faultN_deliv (s : State) : s.faultN.deliv = s.deliv :=
  State.faultN_of s (fun t => t.deliv = s.deliv) rfl (by simp)
@[simp] theorem State.faultN_host (s : State) : s.faultN.host = s.host :=
  State.faultN_of s (fun t => t.host = s.host) rfl (by simp)
@[simp] theorem State.faultN_lc (s : State) : s.faultN.lc = s.lc :=
  State.faultN_of s (fun t => t.lc = s.lc) rfl (by simp)
@[simp] theorem State.faultN_tap (s : State) : s.faultN.tap = s.tap :=
  State.faultN_of s (fun t => t.tap = s.tap) rfl (by simp)
@[simp] theorem State.faultN_rot (s : State) : s.faultN.rot = s.rot :=
  State.faultN_of s (fun t => t.rot = s.rot) rfl (by simp)
@[simp] theorem State.faultN_saf (s : State) : s.faultN.saf = s.saf :=
  State.faultN_of s (fun t => t.saf = s.saf) rfl (by simp)
@[simp] theorem State.faultN_mem (s : State) : s.faultN.mem = s.mem :=
  State.faultN_of s (fun t => t.mem = s.mem) rfl (by simp)
@[simp] theorem State.faultN_atu (s : State) : s.faultN.atu = s.atu :=
  State.faultN_of s (fun t => t.atu = s.atu) rfl (by simp)
@[simp] theorem State.faultN_dsp (s : State) : s.faultN.dsp = s.dsp :=
  State.faultN_of s (fun t => t.dsp = s.dsp) rfl (by simp)
@[simp] theorem State.faultN_mesh (s : State) : s.faultN.mesh = s.mesh :=
  State.faultN_of s (fun t => t.mesh = s.mesh) rfl (by simp)
@[simp] theorem State.faultN_fab (s : State) : s.faultN.fab = s.fab :=
  State.faultN_of s (fun t => t.fab = s.fab) rfl (by simp)
@[simp] theorem State.faultN_site (s : State) : s.faultN.site = s.site :=
  State.faultN_of s (fun t => t.site = s.site) rfl (by simp)
@[simp] theorem State.faultN_joins (s : State) : s.faultN.joins = s.joins :=
  State.faultN_of s (fun t => t.joins = s.joins) rfl (by simp)
@[simp] theorem State.faultN_nextJoin (s : State) : s.faultN.nextJoin = s.nextJoin :=
  State.faultN_of s (fun t => t.nextJoin = s.nextJoin) rfl (by simp)
@[simp] theorem State.faultN_xwaits (s : State) : s.faultN.xwaits = s.xwaits :=
  State.faultN_of s (fun t => t.xwaits = s.xwaits) rfl (by simp)
@[simp] theorem State.faultN_nextWait (s : State) : s.faultN.nextWait = s.nextWait :=
  State.faultN_of s (fun t => t.nextWait = s.nextWait) rfl (by simp)
@[simp] theorem State.faultN_eth (s : State) : s.faultN.eth = s.eth :=
  State.faultN_of s (fun t => t.eth = s.eth) rfl (by simp)
@[simp] theorem State.faultN_mil (s : State) : s.faultN.mil = s.mil :=
  State.faultN_of s (fun t => t.mil = s.mil) rfl (by simp)
@[simp] theorem State.faultN_taskErrs (s : State) : s.faultN.taskErrs = s.taskErrs :=
  State.faultN_of s (fun t => t.taskErrs = s.taskErrs) rfl (by simp)

/-- A severity is counted, and sets its SAF interrupt. -/
theorem State.sevCount_of (s : State) (v : Severity) (P : State → Prop)
    (h0 : P (s.count pSAF PgSAF.SEV_COUNT0_CORRECTED 1))
    (h1 : P ((s.count pSAF PgSAF.SEV_COUNT0_DEFERRED 1).setInt pSAF 2))
    (h2 : P ((s.count pSAF PgSAF.SEV_COUNT1_CONTAINED 1).setInt pSAF 1))
    (h3 : P ((s.count pSAF PgSAF.SEV_COUNT1_FATAL 1).setInt pSAF 0)) :
    P (s.sevCount v) := by
  cases v
  · exact h0
  · exact h1
  · exact h2
  · exact h3

@[simp] theorem State.sevCount_pending (s : State) (v : Severity) : (s.sevCount v).pending = s.pending :=
  State.sevCount_of s v (fun t => t.pending = s.pending) (by simp) (by simp) (by simp) (by simp)
@[simp] theorem State.sevCount_active (s : State) (v : Severity) : (s.sevCount v).active = s.active :=
  State.sevCount_of s v (fun t => t.active = s.active) (by simp) (by simp) (by simp) (by simp)
@[simp] theorem State.sevCount_locks (s : State) (v : Severity) : (s.sevCount v).locks = s.locks :=
  State.sevCount_of s v (fun t => t.locks = s.locks) (by simp) (by simp) (by simp) (by simp)
@[simp] theorem State.sevCount_freeCtr (s : State) (v : Severity) : (s.sevCount v).freeCtr = s.freeCtr :=
  State.sevCount_of s v (fun t => t.freeCtr = s.freeCtr) (by simp) (by simp) (by simp) (by simp)
@[simp] theorem State.sevCount_clock (s : State) (v : Severity) : (s.sevCount v).clock = s.clock :=
  State.sevCount_of s v (fun t => t.clock = s.clock) (by simp) (by simp) (by simp) (by simp)
@[simp] theorem State.sevCount_dmmCfg (s : State) (v : Severity) : (s.sevCount v).dmmCfg = s.dmmCfg :=
  State.sevCount_of s v (fun t => t.dmmCfg = s.dmmCfg) (by simp) (by simp) (by simp) (by simp)
@[simp] theorem State.sevCount_rateFloor (s : State) (v : Severity) : (s.sevCount v).rateFloor = s.rateFloor :=
  State.sevCount_of s v (fun t => t.rateFloor = s.rateFloor) (by simp) (by simp) (by simp) (by simp)
@[simp] theorem State.sevCount_dmm (s : State) (v : Severity) : (s.sevCount v).dmm = s.dmm :=
  State.sevCount_of s v (fun t => t.dmm = s.dmm) (by simp) (by simp) (by simp) (by simp)
@[simp] theorem State.sevCount_plan (s : State) (v : Severity) : (s.sevCount v).plan = s.plan :=
  State.sevCount_of s v (fun t => t.plan = s.plan) (by simp) (by simp) (by simp) (by simp)
@[simp] theorem State.sevCount_dom (s : State) (v : Severity) : (s.sevCount v).dom = s.dom :=
  State.sevCount_of s v (fun t => t.dom = s.dom) (by simp) (by simp) (by simp) (by simp)
@[simp] theorem State.sevCount_boot (s : State) (v : Severity) : (s.sevCount v).boot = s.boot :=
  State.sevCount_of s v (fun t => t.boot = s.boot) (by simp) (by simp) (by simp) (by simp)
@[simp] theorem State.sevCount_deliv (s : State) (v : Severity) : (s.sevCount v).deliv = s.deliv :=
  State.sevCount_of s v (fun t => t.deliv = s.deliv) (by simp) (by simp) (by simp) (by simp)
@[simp] theorem State.sevCount_lc (s : State) (v : Severity) : (s.sevCount v).lc = s.lc :=
  State.sevCount_of s v (fun t => t.lc = s.lc) (by simp) (by simp) (by simp) (by simp)
@[simp] theorem State.sevCount_tap (s : State) (v : Severity) : (s.sevCount v).tap = s.tap :=
  State.sevCount_of s v (fun t => t.tap = s.tap) (by simp) (by simp) (by simp) (by simp)
@[simp] theorem State.sevCount_rot (s : State) (v : Severity) : (s.sevCount v).rot = s.rot :=
  State.sevCount_of s v (fun t => t.rot = s.rot) (by simp) (by simp) (by simp) (by simp)
@[simp] theorem State.sevCount_saf (s : State) (v : Severity) : (s.sevCount v).saf = s.saf :=
  State.sevCount_of s v (fun t => t.saf = s.saf) (by simp) (by simp) (by simp) (by simp)
@[simp] theorem State.sevCount_mem (s : State) (v : Severity) : (s.sevCount v).mem = s.mem :=
  State.sevCount_of s v (fun t => t.mem = s.mem) (by simp) (by simp) (by simp) (by simp)
@[simp] theorem State.sevCount_atu (s : State) (v : Severity) : (s.sevCount v).atu = s.atu :=
  State.sevCount_of s v (fun t => t.atu = s.atu) (by simp) (by simp) (by simp) (by simp)
@[simp] theorem State.sevCount_dsp (s : State) (v : Severity) : (s.sevCount v).dsp = s.dsp :=
  State.sevCount_of s v (fun t => t.dsp = s.dsp) (by simp) (by simp) (by simp) (by simp)
@[simp] theorem State.sevCount_mesh (s : State) (v : Severity) : (s.sevCount v).mesh = s.mesh :=
  State.sevCount_of s v (fun t => t.mesh = s.mesh) (by simp) (by simp) (by simp) (by simp)
@[simp] theorem State.sevCount_fab (s : State) (v : Severity) : (s.sevCount v).fab = s.fab :=
  State.sevCount_of s v (fun t => t.fab = s.fab) (by simp) (by simp) (by simp) (by simp)
@[simp] theorem State.sevCount_site (s : State) (v : Severity) : (s.sevCount v).site = s.site :=
  State.sevCount_of s v (fun t => t.site = s.site) (by simp) (by simp) (by simp) (by simp)
@[simp] theorem State.sevCount_joins (s : State) (v : Severity) : (s.sevCount v).joins = s.joins :=
  State.sevCount_of s v (fun t => t.joins = s.joins) (by simp) (by simp) (by simp) (by simp)
@[simp] theorem State.sevCount_nextJoin (s : State) (v : Severity) : (s.sevCount v).nextJoin = s.nextJoin :=
  State.sevCount_of s v (fun t => t.nextJoin = s.nextJoin) (by simp) (by simp) (by simp) (by simp)
@[simp] theorem State.sevCount_xwaits (s : State) (v : Severity) : (s.sevCount v).xwaits = s.xwaits :=
  State.sevCount_of s v (fun t => t.xwaits = s.xwaits) (by simp) (by simp) (by simp) (by simp)
@[simp] theorem State.sevCount_nextWait (s : State) (v : Severity) : (s.sevCount v).nextWait = s.nextWait :=
  State.sevCount_of s v (fun t => t.nextWait = s.nextWait) (by simp) (by simp) (by simp) (by simp)
@[simp] theorem State.sevCount_eth (s : State) (v : Severity) : (s.sevCount v).eth = s.eth :=
  State.sevCount_of s v (fun t => t.eth = s.eth) (by simp) (by simp) (by simp) (by simp)
@[simp] theorem State.sevCount_mil (s : State) (v : Severity) : (s.sevCount v).mil = s.mil :=
  State.sevCount_of s v (fun t => t.mil = s.mil) (by simp) (by simp) (by simp) (by simp)
@[simp] theorem State.sevCount_taskErrs (s : State) (v : Severity) : (s.sevCount v).taskErrs = s.taskErrs :=
  State.sevCount_of s v (fun t => t.taskErrs = s.taskErrs) (by simp) (by simp) (by simp) (by simp)

/-- What a ring entry does: nothing, or an entry that waits for its place. -/
theorem State.ringPut_of (s : State) (r : Nat) (e : EvRec) (P : State → Prop)
    (h0 : P s)
    (h1 : ∀ q, P { s with saf := { s.saf with ringQ := q } }) :
    P (s.ringPut r e) := by
  unfold State.ringPut
  split
  · exact h0
  · exact h1 _

@[simp] theorem State.ringPut_pending (s : State) (r : Nat) (e : EvRec) : (s.ringPut r e).pending = s.pending :=
  State.ringPut_of s r e (fun t => t.pending = s.pending) rfl (fun _ => rfl)
@[simp] theorem State.ringPut_regs (s : State) (r : Nat) (e : EvRec) : (s.ringPut r e).regs = s.regs :=
  State.ringPut_of s r e (fun t => t.regs = s.regs) rfl (fun _ => rfl)
@[simp] theorem State.ringPut_active (s : State) (r : Nat) (e : EvRec) : (s.ringPut r e).active = s.active :=
  State.ringPut_of s r e (fun t => t.active = s.active) rfl (fun _ => rfl)
@[simp] theorem State.ringPut_locks (s : State) (r : Nat) (e : EvRec) : (s.ringPut r e).locks = s.locks :=
  State.ringPut_of s r e (fun t => t.locks = s.locks) rfl (fun _ => rfl)
@[simp] theorem State.ringPut_out (s : State) (r : Nat) (e : EvRec) : (s.ringPut r e).out = s.out :=
  State.ringPut_of s r e (fun t => t.out = s.out) rfl (fun _ => rfl)
@[simp] theorem State.ringPut_freeCtr (s : State) (r : Nat) (e : EvRec) : (s.ringPut r e).freeCtr = s.freeCtr :=
  State.ringPut_of s r e (fun t => t.freeCtr = s.freeCtr) rfl (fun _ => rfl)
@[simp] theorem State.ringPut_clock (s : State) (r : Nat) (e : EvRec) : (s.ringPut r e).clock = s.clock :=
  State.ringPut_of s r e (fun t => t.clock = s.clock) rfl (fun _ => rfl)
@[simp] theorem State.ringPut_dmmCfg (s : State) (r : Nat) (e : EvRec) : (s.ringPut r e).dmmCfg = s.dmmCfg :=
  State.ringPut_of s r e (fun t => t.dmmCfg = s.dmmCfg) rfl (fun _ => rfl)
@[simp] theorem State.ringPut_rateFloor (s : State) (r : Nat) (e : EvRec) : (s.ringPut r e).rateFloor = s.rateFloor :=
  State.ringPut_of s r e (fun t => t.rateFloor = s.rateFloor) rfl (fun _ => rfl)
@[simp] theorem State.ringPut_dmm (s : State) (r : Nat) (e : EvRec) : (s.ringPut r e).dmm = s.dmm :=
  State.ringPut_of s r e (fun t => t.dmm = s.dmm) rfl (fun _ => rfl)
@[simp] theorem State.ringPut_plan (s : State) (r : Nat) (e : EvRec) : (s.ringPut r e).plan = s.plan :=
  State.ringPut_of s r e (fun t => t.plan = s.plan) rfl (fun _ => rfl)
@[simp] theorem State.ringPut_dom (s : State) (r : Nat) (e : EvRec) : (s.ringPut r e).dom = s.dom :=
  State.ringPut_of s r e (fun t => t.dom = s.dom) rfl (fun _ => rfl)
@[simp] theorem State.ringPut_boot (s : State) (r : Nat) (e : EvRec) : (s.ringPut r e).boot = s.boot :=
  State.ringPut_of s r e (fun t => t.boot = s.boot) rfl (fun _ => rfl)
@[simp] theorem State.ringPut_deliv (s : State) (r : Nat) (e : EvRec) : (s.ringPut r e).deliv = s.deliv :=
  State.ringPut_of s r e (fun t => t.deliv = s.deliv) rfl (fun _ => rfl)
@[simp] theorem State.ringPut_host (s : State) (r : Nat) (e : EvRec) : (s.ringPut r e).host = s.host :=
  State.ringPut_of s r e (fun t => t.host = s.host) rfl (fun _ => rfl)
@[simp] theorem State.ringPut_lc (s : State) (r : Nat) (e : EvRec) : (s.ringPut r e).lc = s.lc :=
  State.ringPut_of s r e (fun t => t.lc = s.lc) rfl (fun _ => rfl)
@[simp] theorem State.ringPut_tap (s : State) (r : Nat) (e : EvRec) : (s.ringPut r e).tap = s.tap :=
  State.ringPut_of s r e (fun t => t.tap = s.tap) rfl (fun _ => rfl)
@[simp] theorem State.ringPut_rot (s : State) (r : Nat) (e : EvRec) : (s.ringPut r e).rot = s.rot :=
  State.ringPut_of s r e (fun t => t.rot = s.rot) rfl (fun _ => rfl)
@[simp] theorem State.ringPut_mem (s : State) (r : Nat) (e : EvRec) : (s.ringPut r e).mem = s.mem :=
  State.ringPut_of s r e (fun t => t.mem = s.mem) rfl (fun _ => rfl)
@[simp] theorem State.ringPut_atu (s : State) (r : Nat) (e : EvRec) : (s.ringPut r e).atu = s.atu :=
  State.ringPut_of s r e (fun t => t.atu = s.atu) rfl (fun _ => rfl)
@[simp] theorem State.ringPut_dsp (s : State) (r : Nat) (e : EvRec) : (s.ringPut r e).dsp = s.dsp :=
  State.ringPut_of s r e (fun t => t.dsp = s.dsp) rfl (fun _ => rfl)
@[simp] theorem State.ringPut_mesh (s : State) (r : Nat) (e : EvRec) : (s.ringPut r e).mesh = s.mesh :=
  State.ringPut_of s r e (fun t => t.mesh = s.mesh) rfl (fun _ => rfl)
@[simp] theorem State.ringPut_fab (s : State) (r : Nat) (e : EvRec) : (s.ringPut r e).fab = s.fab :=
  State.ringPut_of s r e (fun t => t.fab = s.fab) rfl (fun _ => rfl)
@[simp] theorem State.ringPut_site (s : State) (r : Nat) (e : EvRec) : (s.ringPut r e).site = s.site :=
  State.ringPut_of s r e (fun t => t.site = s.site) rfl (fun _ => rfl)
@[simp] theorem State.ringPut_joins (s : State) (r : Nat) (e : EvRec) : (s.ringPut r e).joins = s.joins :=
  State.ringPut_of s r e (fun t => t.joins = s.joins) rfl (fun _ => rfl)
@[simp] theorem State.ringPut_nextJoin (s : State) (r : Nat) (e : EvRec) : (s.ringPut r e).nextJoin = s.nextJoin :=
  State.ringPut_of s r e (fun t => t.nextJoin = s.nextJoin) rfl (fun _ => rfl)
@[simp] theorem State.ringPut_xwaits (s : State) (r : Nat) (e : EvRec) : (s.ringPut r e).xwaits = s.xwaits :=
  State.ringPut_of s r e (fun t => t.xwaits = s.xwaits) rfl (fun _ => rfl)
@[simp] theorem State.ringPut_nextWait (s : State) (r : Nat) (e : EvRec) : (s.ringPut r e).nextWait = s.nextWait :=
  State.ringPut_of s r e (fun t => t.nextWait = s.nextWait) rfl (fun _ => rfl)
@[simp] theorem State.ringPut_eth (s : State) (r : Nat) (e : EvRec) : (s.ringPut r e).eth = s.eth :=
  State.ringPut_of s r e (fun t => t.eth = s.eth) rfl (fun _ => rfl)
@[simp] theorem State.ringPut_mil (s : State) (r : Nat) (e : EvRec) : (s.ringPut r e).mil = s.mil :=
  State.ringPut_of s r e (fun t => t.mil = s.mil) rfl (fun _ => rfl)
@[simp] theorem State.ringPut_taskErrs (s : State) (r : Nat) (e : EvRec) : (s.ringPut r e).taskErrs = s.taskErrs :=
  State.ringPut_of s r e (fun t => t.taskErrs = s.taskErrs) rfl (fun _ => rfl)

/-- An event enters the management queue, or overflows it. -/
theorem State.evqPut_of (s : State) (e : EvRec) (P : State → Prop)
    (h0 : P { (s.count pMGT PgMGT.EVQ_STATUS_OVERFLOW 1).setInt pMGT 2 with
      saf := { ((s.count pMGT PgMGT.EVQ_STATUS_OVERFLOW 1).setInt pMGT 2).saf with evqLost := true } })
    (h1 : ∀ q n, P (({ s with saf := { s.saf with evq := q, evqSeq := n, evqLost := false } } : State).setInt pMGT 1)) :
    P (s.evqPut e) := by
  unfold State.evqPut
  split
  · exact h0
  · exact h1 _ _

@[simp] theorem State.evqPut_pending (s : State) (e : EvRec) : (s.evqPut e).pending = s.pending :=
  State.evqPut_of s e (fun t => t.pending = s.pending) (by simp) (fun _ _ => by simp)
@[simp] theorem State.evqPut_active (s : State) (e : EvRec) : (s.evqPut e).active = s.active :=
  State.evqPut_of s e (fun t => t.active = s.active) (by simp) (fun _ _ => by simp)
@[simp] theorem State.evqPut_locks (s : State) (e : EvRec) : (s.evqPut e).locks = s.locks :=
  State.evqPut_of s e (fun t => t.locks = s.locks) (by simp) (fun _ _ => by simp)
@[simp] theorem State.evqPut_freeCtr (s : State) (e : EvRec) : (s.evqPut e).freeCtr = s.freeCtr :=
  State.evqPut_of s e (fun t => t.freeCtr = s.freeCtr) (by simp) (fun _ _ => by simp)
@[simp] theorem State.evqPut_clock (s : State) (e : EvRec) : (s.evqPut e).clock = s.clock :=
  State.evqPut_of s e (fun t => t.clock = s.clock) (by simp) (fun _ _ => by simp)
@[simp] theorem State.evqPut_dmmCfg (s : State) (e : EvRec) : (s.evqPut e).dmmCfg = s.dmmCfg :=
  State.evqPut_of s e (fun t => t.dmmCfg = s.dmmCfg) (by simp) (fun _ _ => by simp)
@[simp] theorem State.evqPut_rateFloor (s : State) (e : EvRec) : (s.evqPut e).rateFloor = s.rateFloor :=
  State.evqPut_of s e (fun t => t.rateFloor = s.rateFloor) (by simp) (fun _ _ => by simp)
@[simp] theorem State.evqPut_dmm (s : State) (e : EvRec) : (s.evqPut e).dmm = s.dmm :=
  State.evqPut_of s e (fun t => t.dmm = s.dmm) (by simp) (fun _ _ => by simp)
@[simp] theorem State.evqPut_plan (s : State) (e : EvRec) : (s.evqPut e).plan = s.plan :=
  State.evqPut_of s e (fun t => t.plan = s.plan) (by simp) (fun _ _ => by simp)
@[simp] theorem State.evqPut_dom (s : State) (e : EvRec) : (s.evqPut e).dom = s.dom :=
  State.evqPut_of s e (fun t => t.dom = s.dom) (by simp) (fun _ _ => by simp)
@[simp] theorem State.evqPut_boot (s : State) (e : EvRec) : (s.evqPut e).boot = s.boot :=
  State.evqPut_of s e (fun t => t.boot = s.boot) (by simp) (fun _ _ => by simp)
@[simp] theorem State.evqPut_deliv (s : State) (e : EvRec) : (s.evqPut e).deliv = s.deliv :=
  State.evqPut_of s e (fun t => t.deliv = s.deliv) (by simp) (fun _ _ => by simp)
@[simp] theorem State.evqPut_lc (s : State) (e : EvRec) : (s.evqPut e).lc = s.lc :=
  State.evqPut_of s e (fun t => t.lc = s.lc) (by simp) (fun _ _ => by simp)
@[simp] theorem State.evqPut_tap (s : State) (e : EvRec) : (s.evqPut e).tap = s.tap :=
  State.evqPut_of s e (fun t => t.tap = s.tap) (by simp) (fun _ _ => by simp)
@[simp] theorem State.evqPut_rot (s : State) (e : EvRec) : (s.evqPut e).rot = s.rot :=
  State.evqPut_of s e (fun t => t.rot = s.rot) (by simp) (fun _ _ => by simp)
@[simp] theorem State.evqPut_mem (s : State) (e : EvRec) : (s.evqPut e).mem = s.mem :=
  State.evqPut_of s e (fun t => t.mem = s.mem) (by simp) (fun _ _ => by simp)
@[simp] theorem State.evqPut_atu (s : State) (e : EvRec) : (s.evqPut e).atu = s.atu :=
  State.evqPut_of s e (fun t => t.atu = s.atu) (by simp) (fun _ _ => by simp)
@[simp] theorem State.evqPut_dsp (s : State) (e : EvRec) : (s.evqPut e).dsp = s.dsp :=
  State.evqPut_of s e (fun t => t.dsp = s.dsp) (by simp) (fun _ _ => by simp)
@[simp] theorem State.evqPut_mesh (s : State) (e : EvRec) : (s.evqPut e).mesh = s.mesh :=
  State.evqPut_of s e (fun t => t.mesh = s.mesh) (by simp) (fun _ _ => by simp)
@[simp] theorem State.evqPut_fab (s : State) (e : EvRec) : (s.evqPut e).fab = s.fab :=
  State.evqPut_of s e (fun t => t.fab = s.fab) (by simp) (fun _ _ => by simp)
@[simp] theorem State.evqPut_site (s : State) (e : EvRec) : (s.evqPut e).site = s.site :=
  State.evqPut_of s e (fun t => t.site = s.site) (by simp) (fun _ _ => by simp)
@[simp] theorem State.evqPut_joins (s : State) (e : EvRec) : (s.evqPut e).joins = s.joins :=
  State.evqPut_of s e (fun t => t.joins = s.joins) (by simp) (fun _ _ => by simp)
@[simp] theorem State.evqPut_nextJoin (s : State) (e : EvRec) : (s.evqPut e).nextJoin = s.nextJoin :=
  State.evqPut_of s e (fun t => t.nextJoin = s.nextJoin) (by simp) (fun _ _ => by simp)
@[simp] theorem State.evqPut_xwaits (s : State) (e : EvRec) : (s.evqPut e).xwaits = s.xwaits :=
  State.evqPut_of s e (fun t => t.xwaits = s.xwaits) (by simp) (fun _ _ => by simp)
@[simp] theorem State.evqPut_nextWait (s : State) (e : EvRec) : (s.evqPut e).nextWait = s.nextWait :=
  State.evqPut_of s e (fun t => t.nextWait = s.nextWait) (by simp) (fun _ _ => by simp)
@[simp] theorem State.evqPut_eth (s : State) (e : EvRec) : (s.evqPut e).eth = s.eth :=
  State.evqPut_of s e (fun t => t.eth = s.eth) (by simp) (fun _ _ => by simp)
@[simp] theorem State.evqPut_mil (s : State) (e : EvRec) : (s.evqPut e).mil = s.mil :=
  State.evqPut_of s e (fun t => t.mil = s.mil) (by simp) (fun _ _ => by simp)
@[simp] theorem State.evqPut_taskErrs (s : State) (e : EvRec) : (s.evqPut e).taskErrs = s.taskErrs :=
  State.evqPut_of s e (fun t => t.taskErrs = s.taskErrs) (by simp) (fun _ _ => by simp)

/-- A FATAL event: the first is latched, completions stop, FAULT_N is driven. -/
theorem State.fatalLatch_of (s : State) (e : EvRec) (P : State → Prop)
    (h0 : ∀ f, P (({ s with saf := { s.saf with stopped := true, fatal := f } } : State).faultN))
    (h1 : ∀ a b c f, P (({ (((s.setFld pSAF PgSAF.STATUS_FATAL_ACTIVE 1).setFld pSAF PgSAF.STATUS_FIRST_CLASS a).setFld pSAF PgSAF.STATUS_FIRST_INST b).setFld
      pSAF PgSAF.STATUS_FIRST_CAUSE c with saf := { ((((s.setFld pSAF PgSAF.STATUS_FATAL_ACTIVE 1).setFld pSAF PgSAF.STATUS_FIRST_CLASS a).setFld pSAF
      PgSAF.STATUS_FIRST_INST b).setFld pSAF PgSAF.STATUS_FIRST_CAUSE c).saf with stopped := true, fatal := f } } : State).faultN)) :
    P (s.fatalLatch e) := by
  unfold State.fatalLatch
  dsimp only
  split
  · exact h0 _
  · exact h1 _ _ _ _

@[simp] theorem State.fatalLatch_pending (s : State) (e : EvRec) : (s.fatalLatch e).pending = s.pending :=
  State.fatalLatch_of s e (fun t => t.pending = s.pending) (fun _ => by simp) (fun _ _ _ _ => by simp)
@[simp] theorem State.fatalLatch_active (s : State) (e : EvRec) : (s.fatalLatch e).active = s.active :=
  State.fatalLatch_of s e (fun t => t.active = s.active) (fun _ => by simp) (fun _ _ _ _ => by simp)
@[simp] theorem State.fatalLatch_locks (s : State) (e : EvRec) : (s.fatalLatch e).locks = s.locks :=
  State.fatalLatch_of s e (fun t => t.locks = s.locks) (fun _ => by simp) (fun _ _ _ _ => by simp)
@[simp] theorem State.fatalLatch_freeCtr (s : State) (e : EvRec) : (s.fatalLatch e).freeCtr = s.freeCtr :=
  State.fatalLatch_of s e (fun t => t.freeCtr = s.freeCtr) (fun _ => by simp) (fun _ _ _ _ => by simp)
@[simp] theorem State.fatalLatch_clock (s : State) (e : EvRec) : (s.fatalLatch e).clock = s.clock :=
  State.fatalLatch_of s e (fun t => t.clock = s.clock) (fun _ => by simp) (fun _ _ _ _ => by simp)
@[simp] theorem State.fatalLatch_dmmCfg (s : State) (e : EvRec) : (s.fatalLatch e).dmmCfg = s.dmmCfg :=
  State.fatalLatch_of s e (fun t => t.dmmCfg = s.dmmCfg) (fun _ => by simp) (fun _ _ _ _ => by simp)
@[simp] theorem State.fatalLatch_rateFloor (s : State) (e : EvRec) : (s.fatalLatch e).rateFloor = s.rateFloor :=
  State.fatalLatch_of s e (fun t => t.rateFloor = s.rateFloor) (fun _ => by simp) (fun _ _ _ _ => by simp)
@[simp] theorem State.fatalLatch_dmm (s : State) (e : EvRec) : (s.fatalLatch e).dmm = s.dmm :=
  State.fatalLatch_of s e (fun t => t.dmm = s.dmm) (fun _ => by simp) (fun _ _ _ _ => by simp)
@[simp] theorem State.fatalLatch_plan (s : State) (e : EvRec) : (s.fatalLatch e).plan = s.plan :=
  State.fatalLatch_of s e (fun t => t.plan = s.plan) (fun _ => by simp) (fun _ _ _ _ => by simp)
@[simp] theorem State.fatalLatch_dom (s : State) (e : EvRec) : (s.fatalLatch e).dom = s.dom :=
  State.fatalLatch_of s e (fun t => t.dom = s.dom) (fun _ => by simp) (fun _ _ _ _ => by simp)
@[simp] theorem State.fatalLatch_boot (s : State) (e : EvRec) : (s.fatalLatch e).boot = s.boot :=
  State.fatalLatch_of s e (fun t => t.boot = s.boot) (fun _ => by simp) (fun _ _ _ _ => by simp)
@[simp] theorem State.fatalLatch_deliv (s : State) (e : EvRec) : (s.fatalLatch e).deliv = s.deliv :=
  State.fatalLatch_of s e (fun t => t.deliv = s.deliv) (fun _ => by simp) (fun _ _ _ _ => by simp)
@[simp] theorem State.fatalLatch_host (s : State) (e : EvRec) : (s.fatalLatch e).host = s.host :=
  State.fatalLatch_of s e (fun t => t.host = s.host) (fun _ => by simp) (fun _ _ _ _ => by simp)
@[simp] theorem State.fatalLatch_lc (s : State) (e : EvRec) : (s.fatalLatch e).lc = s.lc :=
  State.fatalLatch_of s e (fun t => t.lc = s.lc) (fun _ => by simp) (fun _ _ _ _ => by simp)
@[simp] theorem State.fatalLatch_tap (s : State) (e : EvRec) : (s.fatalLatch e).tap = s.tap :=
  State.fatalLatch_of s e (fun t => t.tap = s.tap) (fun _ => by simp) (fun _ _ _ _ => by simp)
@[simp] theorem State.fatalLatch_rot (s : State) (e : EvRec) : (s.fatalLatch e).rot = s.rot :=
  State.fatalLatch_of s e (fun t => t.rot = s.rot) (fun _ => by simp) (fun _ _ _ _ => by simp)
@[simp] theorem State.fatalLatch_mem (s : State) (e : EvRec) : (s.fatalLatch e).mem = s.mem :=
  State.fatalLatch_of s e (fun t => t.mem = s.mem) (fun _ => by simp) (fun _ _ _ _ => by simp)
@[simp] theorem State.fatalLatch_atu (s : State) (e : EvRec) : (s.fatalLatch e).atu = s.atu :=
  State.fatalLatch_of s e (fun t => t.atu = s.atu) (fun _ => by simp) (fun _ _ _ _ => by simp)
@[simp] theorem State.fatalLatch_dsp (s : State) (e : EvRec) : (s.fatalLatch e).dsp = s.dsp :=
  State.fatalLatch_of s e (fun t => t.dsp = s.dsp) (fun _ => by simp) (fun _ _ _ _ => by simp)
@[simp] theorem State.fatalLatch_mesh (s : State) (e : EvRec) : (s.fatalLatch e).mesh = s.mesh :=
  State.fatalLatch_of s e (fun t => t.mesh = s.mesh) (fun _ => by simp) (fun _ _ _ _ => by simp)
@[simp] theorem State.fatalLatch_fab (s : State) (e : EvRec) : (s.fatalLatch e).fab = s.fab :=
  State.fatalLatch_of s e (fun t => t.fab = s.fab) (fun _ => by simp) (fun _ _ _ _ => by simp)
@[simp] theorem State.fatalLatch_site (s : State) (e : EvRec) : (s.fatalLatch e).site = s.site :=
  State.fatalLatch_of s e (fun t => t.site = s.site) (fun _ => by simp) (fun _ _ _ _ => by simp)
@[simp] theorem State.fatalLatch_joins (s : State) (e : EvRec) : (s.fatalLatch e).joins = s.joins :=
  State.fatalLatch_of s e (fun t => t.joins = s.joins) (fun _ => by simp) (fun _ _ _ _ => by simp)
@[simp] theorem State.fatalLatch_nextJoin (s : State) (e : EvRec) : (s.fatalLatch e).nextJoin = s.nextJoin :=
  State.fatalLatch_of s e (fun t => t.nextJoin = s.nextJoin) (fun _ => by simp) (fun _ _ _ _ => by simp)
@[simp] theorem State.fatalLatch_xwaits (s : State) (e : EvRec) : (s.fatalLatch e).xwaits = s.xwaits :=
  State.fatalLatch_of s e (fun t => t.xwaits = s.xwaits) (fun _ => by simp) (fun _ _ _ _ => by simp)
@[simp] theorem State.fatalLatch_nextWait (s : State) (e : EvRec) : (s.fatalLatch e).nextWait = s.nextWait :=
  State.fatalLatch_of s e (fun t => t.nextWait = s.nextWait) (fun _ => by simp) (fun _ _ _ _ => by simp)
@[simp] theorem State.fatalLatch_eth (s : State) (e : EvRec) : (s.fatalLatch e).eth = s.eth :=
  State.fatalLatch_of s e (fun t => t.eth = s.eth) (fun _ => by simp) (fun _ _ _ _ => by simp)
@[simp] theorem State.fatalLatch_mil (s : State) (e : EvRec) : (s.fatalLatch e).mil = s.mil :=
  State.fatalLatch_of s e (fun t => t.mil = s.mil) (fun _ => by simp) (fun _ _ _ _ => by simp)
@[simp] theorem State.fatalLatch_taskErrs (s : State) (e : EvRec) : (s.fatalLatch e).taskErrs = s.taskErrs :=
  State.fatalLatch_of s e (fun t => t.taskErrs = s.taskErrs) (fun _ => by simp) (fun _ _ _ _ => by simp)

/-- A report is made of counting, ring entries, the queue, the FATAL latch and FAULT_N: what those keep, it keeps. -/
theorem State.report_of (s : State) (b : Bool) (e : EvRec) (P : State → Prop)
    (h0 : ∀ t : State, (∀ Q : State → Prop, (∀ x v, Q x → Q (x.sevCount v)) → (∀ x r, Q x → Q (x.ringPut r e)) → (∀ x, Q x → Q (x.evqPut e)) → (∀ x, Q x → Q (x.fatalLatch e)) →
      (∀ x : State, Q x → Q x.faultN) → Q s → Q t) → P t) :
    P (s.report b e) := by
  apply h0
  intro Q q1 q2 q3 q4 q5 q0
  unfold State.report
  dsimp only
  have a := q1 s e.sev q0
  have c : Q ((if decide (s.accessClass (pg e.cls e.inst) = 0) && (decide (e.sev ≠ .corrected) || (b && s.flag pSAF PgSAF.FAULT_CFG_RING_CE)) then
      (if e.part < 16 then (s.sevCount e.sev).ringPut e.part e else s.sevCount e.sev).ringPut 16 e else s.sevCount e.sev)) := by
    split
    · apply q2
      split
      · exact q2 _ _ a
      · exact a
    · exact a
  have d := q3 _ c
  split
  · apply q5
    split
    · exact q4 _ d
    · exact d
  · split
    · exact q4 _ d
    · exact d

@[simp] theorem State.report_pending (s : State) (b : Bool) (e : EvRec) : (s.report b e).pending = s.pending :=
  State.report_of s b e (fun t => t.pending = s.pending) (fun t h => h (fun x => x.pending = s.pending) (fun x v h => by simpa using h) (fun x r h => by simpa using h) (fun x h => by simpa using h) (fun x h => by simpa using h) (fun x h => by simpa using h) rfl)
@[simp] theorem State.report_active (s : State) (b : Bool) (e : EvRec) : (s.report b e).active = s.active :=
  State.report_of s b e (fun t => t.active = s.active) (fun t h => h (fun x => x.active = s.active) (fun x v h => by simpa using h) (fun x r h => by simpa using h) (fun x h => by simpa using h) (fun x h => by simpa using h) (fun x h => by simpa using h) rfl)
@[simp] theorem State.report_locks (s : State) (b : Bool) (e : EvRec) : (s.report b e).locks = s.locks :=
  State.report_of s b e (fun t => t.locks = s.locks) (fun t h => h (fun x => x.locks = s.locks) (fun x v h => by simpa using h) (fun x r h => by simpa using h) (fun x h => by simpa using h) (fun x h => by simpa using h) (fun x h => by simpa using h) rfl)
@[simp] theorem State.report_freeCtr (s : State) (b : Bool) (e : EvRec) : (s.report b e).freeCtr = s.freeCtr :=
  State.report_of s b e (fun t => t.freeCtr = s.freeCtr) (fun t h => h (fun x => x.freeCtr = s.freeCtr) (fun x v h => by simpa using h) (fun x r h => by simpa using h) (fun x h => by simpa using h) (fun x h => by simpa using h) (fun x h => by simpa using h) rfl)
@[simp] theorem State.report_clock (s : State) (b : Bool) (e : EvRec) : (s.report b e).clock = s.clock :=
  State.report_of s b e (fun t => t.clock = s.clock) (fun t h => h (fun x => x.clock = s.clock) (fun x v h => by simpa using h) (fun x r h => by simpa using h) (fun x h => by simpa using h) (fun x h => by simpa using h) (fun x h => by simpa using h) rfl)
@[simp] theorem State.report_dmmCfg (s : State) (b : Bool) (e : EvRec) : (s.report b e).dmmCfg = s.dmmCfg :=
  State.report_of s b e (fun t => t.dmmCfg = s.dmmCfg) (fun t h => h (fun x => x.dmmCfg = s.dmmCfg) (fun x v h => by simpa using h) (fun x r h => by simpa using h) (fun x h => by simpa using h) (fun x h => by simpa using h) (fun x h => by simpa using h) rfl)
@[simp] theorem State.report_rateFloor (s : State) (b : Bool) (e : EvRec) : (s.report b e).rateFloor = s.rateFloor :=
  State.report_of s b e (fun t => t.rateFloor = s.rateFloor) (fun t h => h (fun x => x.rateFloor = s.rateFloor) (fun x v h => by simpa using h) (fun x r h => by simpa using h) (fun x h => by simpa using h) (fun x h => by simpa using h) (fun x h => by simpa using h) rfl)
@[simp] theorem State.report_dmm (s : State) (b : Bool) (e : EvRec) : (s.report b e).dmm = s.dmm :=
  State.report_of s b e (fun t => t.dmm = s.dmm) (fun t h => h (fun x => x.dmm = s.dmm) (fun x v h => by simpa using h) (fun x r h => by simpa using h) (fun x h => by simpa using h) (fun x h => by simpa using h) (fun x h => by simpa using h) rfl)
@[simp] theorem State.report_plan (s : State) (b : Bool) (e : EvRec) : (s.report b e).plan = s.plan :=
  State.report_of s b e (fun t => t.plan = s.plan) (fun t h => h (fun x => x.plan = s.plan) (fun x v h => by simpa using h) (fun x r h => by simpa using h) (fun x h => by simpa using h) (fun x h => by simpa using h) (fun x h => by simpa using h) rfl)
@[simp] theorem State.report_dom (s : State) (b : Bool) (e : EvRec) : (s.report b e).dom = s.dom :=
  State.report_of s b e (fun t => t.dom = s.dom) (fun t h => h (fun x => x.dom = s.dom) (fun x v h => by simpa using h) (fun x r h => by simpa using h) (fun x h => by simpa using h) (fun x h => by simpa using h) (fun x h => by simpa using h) rfl)
@[simp] theorem State.report_boot (s : State) (b : Bool) (e : EvRec) : (s.report b e).boot = s.boot :=
  State.report_of s b e (fun t => t.boot = s.boot) (fun t h => h (fun x => x.boot = s.boot) (fun x v h => by simpa using h) (fun x r h => by simpa using h) (fun x h => by simpa using h) (fun x h => by simpa using h) (fun x h => by simpa using h) rfl)
@[simp] theorem State.report_deliv (s : State) (b : Bool) (e : EvRec) : (s.report b e).deliv = s.deliv :=
  State.report_of s b e (fun t => t.deliv = s.deliv) (fun t h => h (fun x => x.deliv = s.deliv) (fun x v h => by simpa using h) (fun x r h => by simpa using h) (fun x h => by simpa using h) (fun x h => by simpa using h) (fun x h => by simpa using h) rfl)
@[simp] theorem State.report_lc (s : State) (b : Bool) (e : EvRec) : (s.report b e).lc = s.lc :=
  State.report_of s b e (fun t => t.lc = s.lc) (fun t h => h (fun x => x.lc = s.lc) (fun x v h => by simpa using h) (fun x r h => by simpa using h) (fun x h => by simpa using h) (fun x h => by simpa using h) (fun x h => by simpa using h) rfl)
@[simp] theorem State.report_tap (s : State) (b : Bool) (e : EvRec) : (s.report b e).tap = s.tap :=
  State.report_of s b e (fun t => t.tap = s.tap) (fun t h => h (fun x => x.tap = s.tap) (fun x v h => by simpa using h) (fun x r h => by simpa using h) (fun x h => by simpa using h) (fun x h => by simpa using h) (fun x h => by simpa using h) rfl)
@[simp] theorem State.report_rot (s : State) (b : Bool) (e : EvRec) : (s.report b e).rot = s.rot :=
  State.report_of s b e (fun t => t.rot = s.rot) (fun t h => h (fun x => x.rot = s.rot) (fun x v h => by simpa using h) (fun x r h => by simpa using h) (fun x h => by simpa using h) (fun x h => by simpa using h) (fun x h => by simpa using h) rfl)
@[simp] theorem State.report_mem (s : State) (b : Bool) (e : EvRec) : (s.report b e).mem = s.mem :=
  State.report_of s b e (fun t => t.mem = s.mem) (fun t h => h (fun x => x.mem = s.mem) (fun x v h => by simpa using h) (fun x r h => by simpa using h) (fun x h => by simpa using h) (fun x h => by simpa using h) (fun x h => by simpa using h) rfl)
@[simp] theorem State.report_atu (s : State) (b : Bool) (e : EvRec) : (s.report b e).atu = s.atu :=
  State.report_of s b e (fun t => t.atu = s.atu) (fun t h => h (fun x => x.atu = s.atu) (fun x v h => by simpa using h) (fun x r h => by simpa using h) (fun x h => by simpa using h) (fun x h => by simpa using h) (fun x h => by simpa using h) rfl)
@[simp] theorem State.report_dsp (s : State) (b : Bool) (e : EvRec) : (s.report b e).dsp = s.dsp :=
  State.report_of s b e (fun t => t.dsp = s.dsp) (fun t h => h (fun x => x.dsp = s.dsp) (fun x v h => by simpa using h) (fun x r h => by simpa using h) (fun x h => by simpa using h) (fun x h => by simpa using h) (fun x h => by simpa using h) rfl)
@[simp] theorem State.report_mesh (s : State) (b : Bool) (e : EvRec) : (s.report b e).mesh = s.mesh :=
  State.report_of s b e (fun t => t.mesh = s.mesh) (fun t h => h (fun x => x.mesh = s.mesh) (fun x v h => by simpa using h) (fun x r h => by simpa using h) (fun x h => by simpa using h) (fun x h => by simpa using h) (fun x h => by simpa using h) rfl)
@[simp] theorem State.report_fab (s : State) (b : Bool) (e : EvRec) : (s.report b e).fab = s.fab :=
  State.report_of s b e (fun t => t.fab = s.fab) (fun t h => h (fun x => x.fab = s.fab) (fun x v h => by simpa using h) (fun x r h => by simpa using h) (fun x h => by simpa using h) (fun x h => by simpa using h) (fun x h => by simpa using h) rfl)
@[simp] theorem State.report_site (s : State) (b : Bool) (e : EvRec) : (s.report b e).site = s.site :=
  State.report_of s b e (fun t => t.site = s.site) (fun t h => h (fun x => x.site = s.site) (fun x v h => by simpa using h) (fun x r h => by simpa using h) (fun x h => by simpa using h) (fun x h => by simpa using h) (fun x h => by simpa using h) rfl)
@[simp] theorem State.report_joins (s : State) (b : Bool) (e : EvRec) : (s.report b e).joins = s.joins :=
  State.report_of s b e (fun t => t.joins = s.joins) (fun t h => h (fun x => x.joins = s.joins) (fun x v h => by simpa using h) (fun x r h => by simpa using h) (fun x h => by simpa using h) (fun x h => by simpa using h) (fun x h => by simpa using h) rfl)
@[simp] theorem State.report_nextJoin (s : State) (b : Bool) (e : EvRec) : (s.report b e).nextJoin = s.nextJoin :=
  State.report_of s b e (fun t => t.nextJoin = s.nextJoin) (fun t h => h (fun x => x.nextJoin = s.nextJoin) (fun x v h => by simpa using h) (fun x r h => by simpa using h) (fun x h => by simpa using h) (fun x h => by simpa using h) (fun x h => by simpa using h) rfl)
@[simp] theorem State.report_xwaits (s : State) (b : Bool) (e : EvRec) : (s.report b e).xwaits = s.xwaits :=
  State.report_of s b e (fun t => t.xwaits = s.xwaits) (fun t h => h (fun x => x.xwaits = s.xwaits) (fun x v h => by simpa using h) (fun x r h => by simpa using h) (fun x h => by simpa using h) (fun x h => by simpa using h) (fun x h => by simpa using h) rfl)
@[simp] theorem State.report_nextWait (s : State) (b : Bool) (e : EvRec) : (s.report b e).nextWait = s.nextWait :=
  State.report_of s b e (fun t => t.nextWait = s.nextWait) (fun t h => h (fun x => x.nextWait = s.nextWait) (fun x v h => by simpa using h) (fun x r h => by simpa using h) (fun x h => by simpa using h) (fun x h => by simpa using h) (fun x h => by simpa using h) rfl)
@[simp] theorem State.report_eth (s : State) (b : Bool) (e : EvRec) : (s.report b e).eth = s.eth :=
  State.report_of s b e (fun t => t.eth = s.eth) (fun t h => h (fun x => x.eth = s.eth) (fun x v h => by simpa using h) (fun x r h => by simpa using h) (fun x h => by simpa using h) (fun x h => by simpa using h) (fun x h => by simpa using h) rfl)
@[simp] theorem State.report_mil (s : State) (b : Bool) (e : EvRec) : (s.report b e).mil = s.mil :=
  State.report_of s b e (fun t => t.mil = s.mil) (fun t h => h (fun x => x.mil = s.mil) (fun x v h => by simpa using h) (fun x r h => by simpa using h) (fun x h => by simpa using h) (fun x h => by simpa using h) (fun x h => by simpa using h) rfl)
@[simp] theorem State.report_taskErrs (s : State) (b : Bool) (e : EvRec) : (s.report b e).taskErrs = s.taskErrs :=
  State.report_of s b e (fun t => t.taskErrs = s.taskErrs) (fun t h => h (fun x => x.taskErrs = s.taskErrs) (fun x v h => by simpa using h) (fun x r h => by simpa using h) (fun x h => by simpa using h) (fun x h => by simpa using h) (fun x h => by simpa using h) rfl)

/-- A transient fault is counted and reported. -/
theorem State.transient_of (s : State) (p u d : Nat) (P : State → Prop)
    (h0 : ∀ e, P ((s.count p PgHDR.ERR_COUNT_TRANSIENT 1).report true e)) :
    P (s.transient p u d) := by
  exact h0 _

@[simp] theorem State.transient_pending (s : State) (p u d : Nat) : (s.transient p u d).pending = s.pending :=
  State.transient_of s p u d (fun t => t.pending = s.pending) (fun _ => by simp)
@[simp] theorem State.transient_active (s : State) (p u d : Nat) : (s.transient p u d).active = s.active :=
  State.transient_of s p u d (fun t => t.active = s.active) (fun _ => by simp)
@[simp] theorem State.transient_locks (s : State) (p u d : Nat) : (s.transient p u d).locks = s.locks :=
  State.transient_of s p u d (fun t => t.locks = s.locks) (fun _ => by simp)
@[simp] theorem State.transient_freeCtr (s : State) (p u d : Nat) : (s.transient p u d).freeCtr = s.freeCtr :=
  State.transient_of s p u d (fun t => t.freeCtr = s.freeCtr) (fun _ => by simp)
@[simp] theorem State.transient_clock (s : State) (p u d : Nat) : (s.transient p u d).clock = s.clock :=
  State.transient_of s p u d (fun t => t.clock = s.clock) (fun _ => by simp)
@[simp] theorem State.transient_dmmCfg (s : State) (p u d : Nat) : (s.transient p u d).dmmCfg = s.dmmCfg :=
  State.transient_of s p u d (fun t => t.dmmCfg = s.dmmCfg) (fun _ => by simp)
@[simp] theorem State.transient_rateFloor (s : State) (p u d : Nat) : (s.transient p u d).rateFloor = s.rateFloor :=
  State.transient_of s p u d (fun t => t.rateFloor = s.rateFloor) (fun _ => by simp)
@[simp] theorem State.transient_dmm (s : State) (p u d : Nat) : (s.transient p u d).dmm = s.dmm :=
  State.transient_of s p u d (fun t => t.dmm = s.dmm) (fun _ => by simp)
@[simp] theorem State.transient_plan (s : State) (p u d : Nat) : (s.transient p u d).plan = s.plan :=
  State.transient_of s p u d (fun t => t.plan = s.plan) (fun _ => by simp)
@[simp] theorem State.transient_dom (s : State) (p u d : Nat) : (s.transient p u d).dom = s.dom :=
  State.transient_of s p u d (fun t => t.dom = s.dom) (fun _ => by simp)
@[simp] theorem State.transient_boot (s : State) (p u d : Nat) : (s.transient p u d).boot = s.boot :=
  State.transient_of s p u d (fun t => t.boot = s.boot) (fun _ => by simp)
@[simp] theorem State.transient_deliv (s : State) (p u d : Nat) : (s.transient p u d).deliv = s.deliv :=
  State.transient_of s p u d (fun t => t.deliv = s.deliv) (fun _ => by simp)
@[simp] theorem State.transient_lc (s : State) (p u d : Nat) : (s.transient p u d).lc = s.lc :=
  State.transient_of s p u d (fun t => t.lc = s.lc) (fun _ => by simp)
@[simp] theorem State.transient_tap (s : State) (p u d : Nat) : (s.transient p u d).tap = s.tap :=
  State.transient_of s p u d (fun t => t.tap = s.tap) (fun _ => by simp)
@[simp] theorem State.transient_rot (s : State) (p u d : Nat) : (s.transient p u d).rot = s.rot :=
  State.transient_of s p u d (fun t => t.rot = s.rot) (fun _ => by simp)
@[simp] theorem State.transient_mem (s : State) (p u d : Nat) : (s.transient p u d).mem = s.mem :=
  State.transient_of s p u d (fun t => t.mem = s.mem) (fun _ => by simp)
@[simp] theorem State.transient_atu (s : State) (p u d : Nat) : (s.transient p u d).atu = s.atu :=
  State.transient_of s p u d (fun t => t.atu = s.atu) (fun _ => by simp)
@[simp] theorem State.transient_dsp (s : State) (p u d : Nat) : (s.transient p u d).dsp = s.dsp :=
  State.transient_of s p u d (fun t => t.dsp = s.dsp) (fun _ => by simp)
@[simp] theorem State.transient_mesh (s : State) (p u d : Nat) : (s.transient p u d).mesh = s.mesh :=
  State.transient_of s p u d (fun t => t.mesh = s.mesh) (fun _ => by simp)
@[simp] theorem State.transient_fab (s : State) (p u d : Nat) : (s.transient p u d).fab = s.fab :=
  State.transient_of s p u d (fun t => t.fab = s.fab) (fun _ => by simp)
@[simp] theorem State.transient_site (s : State) (p u d : Nat) : (s.transient p u d).site = s.site :=
  State.transient_of s p u d (fun t => t.site = s.site) (fun _ => by simp)
@[simp] theorem State.transient_joins (s : State) (p u d : Nat) : (s.transient p u d).joins = s.joins :=
  State.transient_of s p u d (fun t => t.joins = s.joins) (fun _ => by simp)
@[simp] theorem State.transient_nextJoin (s : State) (p u d : Nat) : (s.transient p u d).nextJoin = s.nextJoin :=
  State.transient_of s p u d (fun t => t.nextJoin = s.nextJoin) (fun _ => by simp)
@[simp] theorem State.transient_xwaits (s : State) (p u d : Nat) : (s.transient p u d).xwaits = s.xwaits :=
  State.transient_of s p u d (fun t => t.xwaits = s.xwaits) (fun _ => by simp)
@[simp] theorem State.transient_nextWait (s : State) (p u d : Nat) : (s.transient p u d).nextWait = s.nextWait :=
  State.transient_of s p u d (fun t => t.nextWait = s.nextWait) (fun _ => by simp)
@[simp] theorem State.transient_eth (s : State) (p u d : Nat) : (s.transient p u d).eth = s.eth :=
  State.transient_of s p u d (fun t => t.eth = s.eth) (fun _ => by simp)
@[simp] theorem State.transient_mil (s : State) (p u d : Nat) : (s.transient p u d).mil = s.mil :=
  State.transient_of s p u d (fun t => t.mil = s.mil) (fun _ => by simp)
@[simp] theorem State.transient_taskErrs (s : State) (p u d : Nat) : (s.transient p u d).taskErrs = s.taskErrs :=
  State.transient_of s p u d (fun t => t.taskErrs = s.taskErrs) (fun _ => by simp)

/-- A page takes up work: it goes to BUSY, or stays. -/
theorem State.workStart_of (s : State) (p : Nat) (P : State → Prop)
    (h0 : P s)
    (h1 : ∀ b, P (({ s with tap := { s.tap with step := b } } : State).setState p stBUSY)) :
    P (s.workStart p) := by
  unfold State.workStart
  split
  · exact h1 _
  · exact h0

@[simp] theorem State.workStart_pending (s : State) (p : Nat) : (s.workStart p).pending = s.pending :=
  State.workStart_of s p (fun t => t.pending = s.pending) rfl (fun _ => by simp)
@[simp] theorem State.workStart_active (s : State) (p : Nat) : (s.workStart p).active = s.active :=
  State.workStart_of s p (fun t => t.active = s.active) rfl (fun _ => by simp)
@[simp] theorem State.workStart_locks (s : State) (p : Nat) : (s.workStart p).locks = s.locks :=
  State.workStart_of s p (fun t => t.locks = s.locks) rfl (fun _ => by simp)
@[simp] theorem State.workStart_freeCtr (s : State) (p : Nat) : (s.workStart p).freeCtr = s.freeCtr :=
  State.workStart_of s p (fun t => t.freeCtr = s.freeCtr) rfl (fun _ => by simp)
@[simp] theorem State.workStart_clock (s : State) (p : Nat) : (s.workStart p).clock = s.clock :=
  State.workStart_of s p (fun t => t.clock = s.clock) rfl (fun _ => by simp)
@[simp] theorem State.workStart_dmmCfg (s : State) (p : Nat) : (s.workStart p).dmmCfg = s.dmmCfg :=
  State.workStart_of s p (fun t => t.dmmCfg = s.dmmCfg) rfl (fun _ => by simp)
@[simp] theorem State.workStart_rateFloor (s : State) (p : Nat) : (s.workStart p).rateFloor = s.rateFloor :=
  State.workStart_of s p (fun t => t.rateFloor = s.rateFloor) rfl (fun _ => by simp)
@[simp] theorem State.workStart_dmm (s : State) (p : Nat) : (s.workStart p).dmm = s.dmm :=
  State.workStart_of s p (fun t => t.dmm = s.dmm) rfl (fun _ => by simp)
@[simp] theorem State.workStart_plan (s : State) (p : Nat) : (s.workStart p).plan = s.plan :=
  State.workStart_of s p (fun t => t.plan = s.plan) rfl (fun _ => by simp)
@[simp] theorem State.workStart_dom (s : State) (p : Nat) : (s.workStart p).dom = s.dom :=
  State.workStart_of s p (fun t => t.dom = s.dom) rfl (fun _ => by simp)
@[simp] theorem State.workStart_boot (s : State) (p : Nat) : (s.workStart p).boot = s.boot :=
  State.workStart_of s p (fun t => t.boot = s.boot) rfl (fun _ => by simp)
@[simp] theorem State.workStart_deliv (s : State) (p : Nat) : (s.workStart p).deliv = s.deliv :=
  State.workStart_of s p (fun t => t.deliv = s.deliv) rfl (fun _ => by simp)
@[simp] theorem State.workStart_lc (s : State) (p : Nat) : (s.workStart p).lc = s.lc :=
  State.workStart_of s p (fun t => t.lc = s.lc) rfl (fun _ => by simp)
@[simp] theorem State.workStart_rot (s : State) (p : Nat) : (s.workStart p).rot = s.rot :=
  State.workStart_of s p (fun t => t.rot = s.rot) rfl (fun _ => by simp)
@[simp] theorem State.workStart_saf (s : State) (p : Nat) : (s.workStart p).saf = s.saf :=
  State.workStart_of s p (fun t => t.saf = s.saf) rfl (fun _ => by simp)
@[simp] theorem State.workStart_mem (s : State) (p : Nat) : (s.workStart p).mem = s.mem :=
  State.workStart_of s p (fun t => t.mem = s.mem) rfl (fun _ => by simp)
@[simp] theorem State.workStart_atu (s : State) (p : Nat) : (s.workStart p).atu = s.atu :=
  State.workStart_of s p (fun t => t.atu = s.atu) rfl (fun _ => by simp)
@[simp] theorem State.workStart_dsp (s : State) (p : Nat) : (s.workStart p).dsp = s.dsp :=
  State.workStart_of s p (fun t => t.dsp = s.dsp) rfl (fun _ => by simp)
@[simp] theorem State.workStart_mesh (s : State) (p : Nat) : (s.workStart p).mesh = s.mesh :=
  State.workStart_of s p (fun t => t.mesh = s.mesh) rfl (fun _ => by simp)
@[simp] theorem State.workStart_fab (s : State) (p : Nat) : (s.workStart p).fab = s.fab :=
  State.workStart_of s p (fun t => t.fab = s.fab) rfl (fun _ => by simp)
@[simp] theorem State.workStart_site (s : State) (p : Nat) : (s.workStart p).site = s.site :=
  State.workStart_of s p (fun t => t.site = s.site) rfl (fun _ => by simp)
@[simp] theorem State.workStart_joins (s : State) (p : Nat) : (s.workStart p).joins = s.joins :=
  State.workStart_of s p (fun t => t.joins = s.joins) rfl (fun _ => by simp)
@[simp] theorem State.workStart_nextJoin (s : State) (p : Nat) : (s.workStart p).nextJoin = s.nextJoin :=
  State.workStart_of s p (fun t => t.nextJoin = s.nextJoin) rfl (fun _ => by simp)
@[simp] theorem State.workStart_xwaits (s : State) (p : Nat) : (s.workStart p).xwaits = s.xwaits :=
  State.workStart_of s p (fun t => t.xwaits = s.xwaits) rfl (fun _ => by simp)
@[simp] theorem State.workStart_nextWait (s : State) (p : Nat) : (s.workStart p).nextWait = s.nextWait :=
  State.workStart_of s p (fun t => t.nextWait = s.nextWait) rfl (fun _ => by simp)
@[simp] theorem State.workStart_eth (s : State) (p : Nat) : (s.workStart p).eth = s.eth :=
  State.workStart_of s p (fun t => t.eth = s.eth) rfl (fun _ => by simp)
@[simp] theorem State.workStart_mil (s : State) (p : Nat) : (s.workStart p).mil = s.mil :=
  State.workStart_of s p (fun t => t.mil = s.mil) rfl (fun _ => by simp)
@[simp] theorem State.workStart_taskErrs (s : State) (p : Nat) : (s.workStart p).taskErrs = s.taskErrs :=
  State.workStart_of s p (fun t => t.taskErrs = s.taskErrs) rfl (fun _ => by simp)

/-- A page ends its work. -/
theorem State.workEnd_of (s : State) (p : Nat) (P : State → Prop)
    (h0 : P s)
    (h1 : P (s.setState p stIDLE)) :
    P (s.workEnd p) := by
  unfold State.workEnd
  split
  · exact h1
  · exact h0

@[simp] theorem State.workEnd_pending (s : State) (p : Nat) : (s.workEnd p).pending = s.pending :=
  State.workEnd_of s p (fun t => t.pending = s.pending) rfl (by simp)
@[simp] theorem State.workEnd_active (s : State) (p : Nat) : (s.workEnd p).active = s.active :=
  State.workEnd_of s p (fun t => t.active = s.active) rfl (by simp)
@[simp] theorem State.workEnd_locks (s : State) (p : Nat) : (s.workEnd p).locks = s.locks :=
  State.workEnd_of s p (fun t => t.locks = s.locks) rfl (by simp)
@[simp] theorem State.workEnd_freeCtr (s : State) (p : Nat) : (s.workEnd p).freeCtr = s.freeCtr :=
  State.workEnd_of s p (fun t => t.freeCtr = s.freeCtr) rfl (by simp)
@[simp] theorem State.workEnd_clock (s : State) (p : Nat) : (s.workEnd p).clock = s.clock :=
  State.workEnd_of s p (fun t => t.clock = s.clock) rfl (by simp)
@[simp] theorem State.workEnd_dmmCfg (s : State) (p : Nat) : (s.workEnd p).dmmCfg = s.dmmCfg :=
  State.workEnd_of s p (fun t => t.dmmCfg = s.dmmCfg) rfl (by simp)
@[simp] theorem State.workEnd_rateFloor (s : State) (p : Nat) : (s.workEnd p).rateFloor = s.rateFloor :=
  State.workEnd_of s p (fun t => t.rateFloor = s.rateFloor) rfl (by simp)
@[simp] theorem State.workEnd_dmm (s : State) (p : Nat) : (s.workEnd p).dmm = s.dmm :=
  State.workEnd_of s p (fun t => t.dmm = s.dmm) rfl (by simp)
@[simp] theorem State.workEnd_plan (s : State) (p : Nat) : (s.workEnd p).plan = s.plan :=
  State.workEnd_of s p (fun t => t.plan = s.plan) rfl (by simp)
@[simp] theorem State.workEnd_dom (s : State) (p : Nat) : (s.workEnd p).dom = s.dom :=
  State.workEnd_of s p (fun t => t.dom = s.dom) rfl (by simp)
@[simp] theorem State.workEnd_boot (s : State) (p : Nat) : (s.workEnd p).boot = s.boot :=
  State.workEnd_of s p (fun t => t.boot = s.boot) rfl (by simp)
@[simp] theorem State.workEnd_deliv (s : State) (p : Nat) : (s.workEnd p).deliv = s.deliv :=
  State.workEnd_of s p (fun t => t.deliv = s.deliv) rfl (by simp)
@[simp] theorem State.workEnd_lc (s : State) (p : Nat) : (s.workEnd p).lc = s.lc :=
  State.workEnd_of s p (fun t => t.lc = s.lc) rfl (by simp)
@[simp] theorem State.workEnd_tap (s : State) (p : Nat) : (s.workEnd p).tap = s.tap :=
  State.workEnd_of s p (fun t => t.tap = s.tap) rfl (by simp)
@[simp] theorem State.workEnd_rot (s : State) (p : Nat) : (s.workEnd p).rot = s.rot :=
  State.workEnd_of s p (fun t => t.rot = s.rot) rfl (by simp)
@[simp] theorem State.workEnd_saf (s : State) (p : Nat) : (s.workEnd p).saf = s.saf :=
  State.workEnd_of s p (fun t => t.saf = s.saf) rfl (by simp)
@[simp] theorem State.workEnd_mem (s : State) (p : Nat) : (s.workEnd p).mem = s.mem :=
  State.workEnd_of s p (fun t => t.mem = s.mem) rfl (by simp)
@[simp] theorem State.workEnd_atu (s : State) (p : Nat) : (s.workEnd p).atu = s.atu :=
  State.workEnd_of s p (fun t => t.atu = s.atu) rfl (by simp)
@[simp] theorem State.workEnd_dsp (s : State) (p : Nat) : (s.workEnd p).dsp = s.dsp :=
  State.workEnd_of s p (fun t => t.dsp = s.dsp) rfl (by simp)
@[simp] theorem State.workEnd_mesh (s : State) (p : Nat) : (s.workEnd p).mesh = s.mesh :=
  State.workEnd_of s p (fun t => t.mesh = s.mesh) rfl (by simp)
@[simp] theorem State.workEnd_fab (s : State) (p : Nat) : (s.workEnd p).fab = s.fab :=
  State.workEnd_of s p (fun t => t.fab = s.fab) rfl (by simp)
@[simp] theorem State.workEnd_site (s : State) (p : Nat) : (s.workEnd p).site = s.site :=
  State.workEnd_of s p (fun t => t.site = s.site) rfl (by simp)
@[simp] theorem State.workEnd_joins (s : State) (p : Nat) : (s.workEnd p).joins = s.joins :=
  State.workEnd_of s p (fun t => t.joins = s.joins) rfl (by simp)
@[simp] theorem State.workEnd_nextJoin (s : State) (p : Nat) : (s.workEnd p).nextJoin = s.nextJoin :=
  State.workEnd_of s p (fun t => t.nextJoin = s.nextJoin) rfl (by simp)
@[simp] theorem State.workEnd_xwaits (s : State) (p : Nat) : (s.workEnd p).xwaits = s.xwaits :=
  State.workEnd_of s p (fun t => t.xwaits = s.xwaits) rfl (by simp)
@[simp] theorem State.workEnd_nextWait (s : State) (p : Nat) : (s.workEnd p).nextWait = s.nextWait :=
  State.workEnd_of s p (fun t => t.nextWait = s.nextWait) rfl (by simp)
@[simp] theorem State.workEnd_eth (s : State) (p : Nat) : (s.workEnd p).eth = s.eth :=
  State.workEnd_of s p (fun t => t.eth = s.eth) rfl (by simp)
@[simp] theorem State.workEnd_mil (s : State) (p : Nat) : (s.workEnd p).mil = s.mil :=
  State.workEnd_of s p (fun t => t.mil = s.mil) rfl (by simp)
@[simp] theorem State.workEnd_taskErrs (s : State) (p : Nat) : (s.workEnd p).taskErrs = s.taskErrs :=
  State.workEnd_of s p (fun t => t.taskErrs = s.taskErrs) rfl (by simp)

/-- A page is BUSY or IDLE as its block has work. -/
theorem State.workSet_of (s : State) (p : Nat) (b : Bool) (P : State → Prop)
    (h0 : P (s.workStart p))
    (h1 : P (s.workEnd p)) :
    P (s.workSet p b) := by
  unfold State.workSet
  split
  · exact h0
  · exact h1

@[simp] theorem State.workSet_pending (s : State) (p : Nat) (b : Bool) : (s.workSet p b).pending = s.pending :=
  State.workSet_of s p b (fun t => t.pending = s.pending) (by simp) (by simp)
@[simp] theorem State.workSet_active (s : State) (p : Nat) (b : Bool) : (s.workSet p b).active = s.active :=
  State.workSet_of s p b (fun t => t.active = s.active) (by simp) (by simp)
@[simp] theorem State.workSet_locks (s : State) (p : Nat) (b : Bool) : (s.workSet p b).locks = s.locks :=
  State.workSet_of s p b (fun t => t.locks = s.locks) (by simp) (by simp)
@[simp] theorem State.workSet_freeCtr (s : State) (p : Nat) (b : Bool) : (s.workSet p b).freeCtr = s.freeCtr :=
  State.workSet_of s p b (fun t => t.freeCtr = s.freeCtr) (by simp) (by simp)
@[simp] theorem State.workSet_clock (s : State) (p : Nat) (b : Bool) : (s.workSet p b).clock = s.clock :=
  State.workSet_of s p b (fun t => t.clock = s.clock) (by simp) (by simp)
@[simp] theorem State.workSet_dmmCfg (s : State) (p : Nat) (b : Bool) : (s.workSet p b).dmmCfg = s.dmmCfg :=
  State.workSet_of s p b (fun t => t.dmmCfg = s.dmmCfg) (by simp) (by simp)
@[simp] theorem State.workSet_rateFloor (s : State) (p : Nat) (b : Bool) : (s.workSet p b).rateFloor = s.rateFloor :=
  State.workSet_of s p b (fun t => t.rateFloor = s.rateFloor) (by simp) (by simp)
@[simp] theorem State.workSet_dmm (s : State) (p : Nat) (b : Bool) : (s.workSet p b).dmm = s.dmm :=
  State.workSet_of s p b (fun t => t.dmm = s.dmm) (by simp) (by simp)
@[simp] theorem State.workSet_plan (s : State) (p : Nat) (b : Bool) : (s.workSet p b).plan = s.plan :=
  State.workSet_of s p b (fun t => t.plan = s.plan) (by simp) (by simp)
@[simp] theorem State.workSet_dom (s : State) (p : Nat) (b : Bool) : (s.workSet p b).dom = s.dom :=
  State.workSet_of s p b (fun t => t.dom = s.dom) (by simp) (by simp)
@[simp] theorem State.workSet_boot (s : State) (p : Nat) (b : Bool) : (s.workSet p b).boot = s.boot :=
  State.workSet_of s p b (fun t => t.boot = s.boot) (by simp) (by simp)
@[simp] theorem State.workSet_deliv (s : State) (p : Nat) (b : Bool) : (s.workSet p b).deliv = s.deliv :=
  State.workSet_of s p b (fun t => t.deliv = s.deliv) (by simp) (by simp)
@[simp] theorem State.workSet_lc (s : State) (p : Nat) (b : Bool) : (s.workSet p b).lc = s.lc :=
  State.workSet_of s p b (fun t => t.lc = s.lc) (by simp) (by simp)
@[simp] theorem State.workSet_rot (s : State) (p : Nat) (b : Bool) : (s.workSet p b).rot = s.rot :=
  State.workSet_of s p b (fun t => t.rot = s.rot) (by simp) (by simp)
@[simp] theorem State.workSet_saf (s : State) (p : Nat) (b : Bool) : (s.workSet p b).saf = s.saf :=
  State.workSet_of s p b (fun t => t.saf = s.saf) (by simp) (by simp)
@[simp] theorem State.workSet_mem (s : State) (p : Nat) (b : Bool) : (s.workSet p b).mem = s.mem :=
  State.workSet_of s p b (fun t => t.mem = s.mem) (by simp) (by simp)
@[simp] theorem State.workSet_atu (s : State) (p : Nat) (b : Bool) : (s.workSet p b).atu = s.atu :=
  State.workSet_of s p b (fun t => t.atu = s.atu) (by simp) (by simp)
@[simp] theorem State.workSet_dsp (s : State) (p : Nat) (b : Bool) : (s.workSet p b).dsp = s.dsp :=
  State.workSet_of s p b (fun t => t.dsp = s.dsp) (by simp) (by simp)
@[simp] theorem State.workSet_mesh (s : State) (p : Nat) (b : Bool) : (s.workSet p b).mesh = s.mesh :=
  State.workSet_of s p b (fun t => t.mesh = s.mesh) (by simp) (by simp)
@[simp] theorem State.workSet_fab (s : State) (p : Nat) (b : Bool) : (s.workSet p b).fab = s.fab :=
  State.workSet_of s p b (fun t => t.fab = s.fab) (by simp) (by simp)
@[simp] theorem State.workSet_site (s : State) (p : Nat) (b : Bool) : (s.workSet p b).site = s.site :=
  State.workSet_of s p b (fun t => t.site = s.site) (by simp) (by simp)
@[simp] theorem State.workSet_joins (s : State) (p : Nat) (b : Bool) : (s.workSet p b).joins = s.joins :=
  State.workSet_of s p b (fun t => t.joins = s.joins) (by simp) (by simp)
@[simp] theorem State.workSet_nextJoin (s : State) (p : Nat) (b : Bool) : (s.workSet p b).nextJoin = s.nextJoin :=
  State.workSet_of s p b (fun t => t.nextJoin = s.nextJoin) (by simp) (by simp)
@[simp] theorem State.workSet_xwaits (s : State) (p : Nat) (b : Bool) : (s.workSet p b).xwaits = s.xwaits :=
  State.workSet_of s p b (fun t => t.xwaits = s.xwaits) (by simp) (by simp)
@[simp] theorem State.workSet_nextWait (s : State) (p : Nat) (b : Bool) : (s.workSet p b).nextWait = s.nextWait :=
  State.workSet_of s p b (fun t => t.nextWait = s.nextWait) (by simp) (by simp)
@[simp] theorem State.workSet_eth (s : State) (p : Nat) (b : Bool) : (s.workSet p b).eth = s.eth :=
  State.workSet_of s p b (fun t => t.eth = s.eth) (by simp) (by simp)
@[simp] theorem State.workSet_mil (s : State) (p : Nat) (b : Bool) : (s.workSet p b).mil = s.mil :=
  State.workSet_of s p b (fun t => t.mil = s.mil) (by simp) (by simp)
@[simp] theorem State.workSet_taskErrs (s : State) (p : Nat) (b : Bool) : (s.workSet p b).taskErrs = s.taskErrs :=
  State.workSet_of s p b (fun t => t.taskErrs = s.taskErrs) (by simp) (by simp)

/-- A received TLP is counted. -/
theorem State.rxTlp_of (s : State) (P : State → Prop)
    (h0 : P (({ s with host := { s.host with rxTlp := 0 } } : State).count pHEP PgHEP.PERF0_RX_KTLP 1))
    (h1 : P { s with host := { s.host with rxTlp := s.host.rxTlp + 1 } }) :
    P s.rxTlp := by
  unfold State.rxTlp
  split
  · exact h0
  · exact h1

@[simp] theorem State.rxTlp_pending (s : State) : s.rxTlp.pending = s.pending :=
  State.rxTlp_of s (fun t => t.pending = s.pending) (by simp) rfl
@[simp] theorem State.rxTlp_active (s : State) : s.rxTlp.active = s.active :=
  State.rxTlp_of s (fun t => t.active = s.active) (by simp) rfl
@[simp] theorem State.rxTlp_locks (s : State) : s.rxTlp.locks = s.locks :=
  State.rxTlp_of s (fun t => t.locks = s.locks) (by simp) rfl
@[simp] theorem State.rxTlp_out (s : State) : s.rxTlp.out = s.out :=
  State.rxTlp_of s (fun t => t.out = s.out) (by simp) rfl
@[simp] theorem State.rxTlp_freeCtr (s : State) : s.rxTlp.freeCtr = s.freeCtr :=
  State.rxTlp_of s (fun t => t.freeCtr = s.freeCtr) (by simp) rfl
@[simp] theorem State.rxTlp_clock (s : State) : s.rxTlp.clock = s.clock :=
  State.rxTlp_of s (fun t => t.clock = s.clock) (by simp) rfl
@[simp] theorem State.rxTlp_dmmCfg (s : State) : s.rxTlp.dmmCfg = s.dmmCfg :=
  State.rxTlp_of s (fun t => t.dmmCfg = s.dmmCfg) (by simp) rfl
@[simp] theorem State.rxTlp_rateFloor (s : State) : s.rxTlp.rateFloor = s.rateFloor :=
  State.rxTlp_of s (fun t => t.rateFloor = s.rateFloor) (by simp) rfl
@[simp] theorem State.rxTlp_dmm (s : State) : s.rxTlp.dmm = s.dmm :=
  State.rxTlp_of s (fun t => t.dmm = s.dmm) (by simp) rfl
@[simp] theorem State.rxTlp_dom (s : State) : s.rxTlp.dom = s.dom :=
  State.rxTlp_of s (fun t => t.dom = s.dom) (by simp) rfl
@[simp] theorem State.rxTlp_boot (s : State) : s.rxTlp.boot = s.boot :=
  State.rxTlp_of s (fun t => t.boot = s.boot) (by simp) rfl
@[simp] theorem State.rxTlp_deliv (s : State) : s.rxTlp.deliv = s.deliv :=
  State.rxTlp_of s (fun t => t.deliv = s.deliv) (by simp) rfl
@[simp] theorem State.rxTlp_lc (s : State) : s.rxTlp.lc = s.lc :=
  State.rxTlp_of s (fun t => t.lc = s.lc) (by simp) rfl
@[simp] theorem State.rxTlp_tap (s : State) : s.rxTlp.tap = s.tap :=
  State.rxTlp_of s (fun t => t.tap = s.tap) (by simp) rfl
@[simp] theorem State.rxTlp_rot (s : State) : s.rxTlp.rot = s.rot :=
  State.rxTlp_of s (fun t => t.rot = s.rot) (by simp) rfl
@[simp] theorem State.rxTlp_saf (s : State) : s.rxTlp.saf = s.saf :=
  State.rxTlp_of s (fun t => t.saf = s.saf) (by simp) rfl
@[simp] theorem State.rxTlp_mem (s : State) : s.rxTlp.mem = s.mem :=
  State.rxTlp_of s (fun t => t.mem = s.mem) (by simp) rfl
@[simp] theorem State.rxTlp_atu (s : State) : s.rxTlp.atu = s.atu :=
  State.rxTlp_of s (fun t => t.atu = s.atu) (by simp) rfl
@[simp] theorem State.rxTlp_dsp (s : State) : s.rxTlp.dsp = s.dsp :=
  State.rxTlp_of s (fun t => t.dsp = s.dsp) (by simp) rfl
@[simp] theorem State.rxTlp_mesh (s : State) : s.rxTlp.mesh = s.mesh :=
  State.rxTlp_of s (fun t => t.mesh = s.mesh) (by simp) rfl
@[simp] theorem State.rxTlp_fab (s : State) : s.rxTlp.fab = s.fab :=
  State.rxTlp_of s (fun t => t.fab = s.fab) (by simp) rfl
@[simp] theorem State.rxTlp_site (s : State) : s.rxTlp.site = s.site :=
  State.rxTlp_of s (fun t => t.site = s.site) (by simp) rfl
@[simp] theorem State.rxTlp_joins (s : State) : s.rxTlp.joins = s.joins :=
  State.rxTlp_of s (fun t => t.joins = s.joins) (by simp) rfl
@[simp] theorem State.rxTlp_nextJoin (s : State) : s.rxTlp.nextJoin = s.nextJoin :=
  State.rxTlp_of s (fun t => t.nextJoin = s.nextJoin) (by simp) rfl
@[simp] theorem State.rxTlp_xwaits (s : State) : s.rxTlp.xwaits = s.xwaits :=
  State.rxTlp_of s (fun t => t.xwaits = s.xwaits) (by simp) rfl
@[simp] theorem State.rxTlp_nextWait (s : State) : s.rxTlp.nextWait = s.nextWait :=
  State.rxTlp_of s (fun t => t.nextWait = s.nextWait) (by simp) rfl
@[simp] theorem State.rxTlp_eth (s : State) : s.rxTlp.eth = s.eth :=
  State.rxTlp_of s (fun t => t.eth = s.eth) (by simp) rfl
@[simp] theorem State.rxTlp_mil (s : State) : s.rxTlp.mil = s.mil :=
  State.rxTlp_of s (fun t => t.mil = s.mil) (by simp) rfl
@[simp] theorem State.rxTlp_taskErrs (s : State) : s.rxTlp.taskErrs = s.taskErrs :=
  State.rxTlp_of s (fun t => t.taskErrs = s.taskErrs) (by simp) rfl

/-- The phase of a domain. -/
theorem State.setPhase_of (s : State) (d k : Nat) (P : State → Prop)
    (h0 : P (s.setFld (pg cPWR d) PgPWR.STATUS_PHASE k))
    (h1 : P ((s.setFld (pg cPWR d) PgPWR.STATUS_PHASE k).setFld (pg cPWR 822) PgPWR.STATUS_PHASE k)) :
    P (s.setPhase d k) := by
  unfold State.setPhase
  dsimp only
  split
  · exact h1
  · exact h0

@[simp] theorem State.setPhase_pending (s : State) (d k : Nat) : (s.setPhase d k).pending = s.pending :=
  State.setPhase_of s d k (fun t => t.pending = s.pending) (by simp) (by simp)
@[simp] theorem State.setPhase_active (s : State) (d k : Nat) : (s.setPhase d k).active = s.active :=
  State.setPhase_of s d k (fun t => t.active = s.active) (by simp) (by simp)
@[simp] theorem State.setPhase_locks (s : State) (d k : Nat) : (s.setPhase d k).locks = s.locks :=
  State.setPhase_of s d k (fun t => t.locks = s.locks) (by simp) (by simp)
@[simp] theorem State.setPhase_out (s : State) (d k : Nat) : (s.setPhase d k).out = s.out :=
  State.setPhase_of s d k (fun t => t.out = s.out) (by simp) (by simp)
@[simp] theorem State.setPhase_freeCtr (s : State) (d k : Nat) : (s.setPhase d k).freeCtr = s.freeCtr :=
  State.setPhase_of s d k (fun t => t.freeCtr = s.freeCtr) (by simp) (by simp)
@[simp] theorem State.setPhase_clock (s : State) (d k : Nat) : (s.setPhase d k).clock = s.clock :=
  State.setPhase_of s d k (fun t => t.clock = s.clock) (by simp) (by simp)
@[simp] theorem State.setPhase_dmmCfg (s : State) (d k : Nat) : (s.setPhase d k).dmmCfg = s.dmmCfg :=
  State.setPhase_of s d k (fun t => t.dmmCfg = s.dmmCfg) (by simp) (by simp)
@[simp] theorem State.setPhase_rateFloor (s : State) (d k : Nat) : (s.setPhase d k).rateFloor = s.rateFloor :=
  State.setPhase_of s d k (fun t => t.rateFloor = s.rateFloor) (by simp) (by simp)
@[simp] theorem State.setPhase_dmm (s : State) (d k : Nat) : (s.setPhase d k).dmm = s.dmm :=
  State.setPhase_of s d k (fun t => t.dmm = s.dmm) (by simp) (by simp)
@[simp] theorem State.setPhase_plan (s : State) (d k : Nat) : (s.setPhase d k).plan = s.plan :=
  State.setPhase_of s d k (fun t => t.plan = s.plan) (by simp) (by simp)
@[simp] theorem State.setPhase_dom (s : State) (d k : Nat) : (s.setPhase d k).dom = s.dom :=
  State.setPhase_of s d k (fun t => t.dom = s.dom) (by simp) (by simp)
@[simp] theorem State.setPhase_boot (s : State) (d k : Nat) : (s.setPhase d k).boot = s.boot :=
  State.setPhase_of s d k (fun t => t.boot = s.boot) (by simp) (by simp)
@[simp] theorem State.setPhase_deliv (s : State) (d k : Nat) : (s.setPhase d k).deliv = s.deliv :=
  State.setPhase_of s d k (fun t => t.deliv = s.deliv) (by simp) (by simp)
@[simp] theorem State.setPhase_host (s : State) (d k : Nat) : (s.setPhase d k).host = s.host :=
  State.setPhase_of s d k (fun t => t.host = s.host) (by simp) (by simp)
@[simp] theorem State.setPhase_lc (s : State) (d k : Nat) : (s.setPhase d k).lc = s.lc :=
  State.setPhase_of s d k (fun t => t.lc = s.lc) (by simp) (by simp)
@[simp] theorem State.setPhase_tap (s : State) (d k : Nat) : (s.setPhase d k).tap = s.tap :=
  State.setPhase_of s d k (fun t => t.tap = s.tap) (by simp) (by simp)
@[simp] theorem State.setPhase_rot (s : State) (d k : Nat) : (s.setPhase d k).rot = s.rot :=
  State.setPhase_of s d k (fun t => t.rot = s.rot) (by simp) (by simp)
@[simp] theorem State.setPhase_saf (s : State) (d k : Nat) : (s.setPhase d k).saf = s.saf :=
  State.setPhase_of s d k (fun t => t.saf = s.saf) (by simp) (by simp)
@[simp] theorem State.setPhase_mem (s : State) (d k : Nat) : (s.setPhase d k).mem = s.mem :=
  State.setPhase_of s d k (fun t => t.mem = s.mem) (by simp) (by simp)
@[simp] theorem State.setPhase_atu (s : State) (d k : Nat) : (s.setPhase d k).atu = s.atu :=
  State.setPhase_of s d k (fun t => t.atu = s.atu) (by simp) (by simp)
@[simp] theorem State.setPhase_dsp (s : State) (d k : Nat) : (s.setPhase d k).dsp = s.dsp :=
  State.setPhase_of s d k (fun t => t.dsp = s.dsp) (by simp) (by simp)
@[simp] theorem State.setPhase_mesh (s : State) (d k : Nat) : (s.setPhase d k).mesh = s.mesh :=
  State.setPhase_of s d k (fun t => t.mesh = s.mesh) (by simp) (by simp)
@[simp] theorem State.setPhase_fab (s : State) (d k : Nat) : (s.setPhase d k).fab = s.fab :=
  State.setPhase_of s d k (fun t => t.fab = s.fab) (by simp) (by simp)
@[simp] theorem State.setPhase_site (s : State) (d k : Nat) : (s.setPhase d k).site = s.site :=
  State.setPhase_of s d k (fun t => t.site = s.site) (by simp) (by simp)
@[simp] theorem State.setPhase_joins (s : State) (d k : Nat) : (s.setPhase d k).joins = s.joins :=
  State.setPhase_of s d k (fun t => t.joins = s.joins) (by simp) (by simp)
@[simp] theorem State.setPhase_nextJoin (s : State) (d k : Nat) : (s.setPhase d k).nextJoin = s.nextJoin :=
  State.setPhase_of s d k (fun t => t.nextJoin = s.nextJoin) (by simp) (by simp)
@[simp] theorem State.setPhase_xwaits (s : State) (d k : Nat) : (s.setPhase d k).xwaits = s.xwaits :=
  State.setPhase_of s d k (fun t => t.xwaits = s.xwaits) (by simp) (by simp)
@[simp] theorem State.setPhase_nextWait (s : State) (d k : Nat) : (s.setPhase d k).nextWait = s.nextWait :=
  State.setPhase_of s d k (fun t => t.nextWait = s.nextWait) (by simp) (by simp)
@[simp] theorem State.setPhase_eth (s : State) (d k : Nat) : (s.setPhase d k).eth = s.eth :=
  State.setPhase_of s d k (fun t => t.eth = s.eth) (by simp) (by simp)
@[simp] theorem State.setPhase_mil (s : State) (d k : Nat) : (s.setPhase d k).mil = s.mil :=
  State.setPhase_of s d k (fun t => t.mil = s.mil) (by simp) (by simp)
@[simp] theorem State.setPhase_taskErrs (s : State) (d k : Nat) : (s.setPhase d k).taskErrs = s.taskErrs :=
  State.setPhase_of s d k (fun t => t.taskErrs = s.taskErrs) (by simp) (by simp)

/-- A granule command ends. -/
theorem State.gcmdDone_of (s : State) (t k : Nat) (P : State → Prop)
    (h0 : P (((s.setFld t PgTIR.GCMD_BUSY 0).setFld t PgTIR.GCMD_RESULT k).setInt t 0)) :
    P (s.gcmdDone t k) := by
  exact h0

@[simp] theorem State.gcmdDone_pending (s : State) (t k : Nat) : (s.gcmdDone t k).pending = s.pending :=
  State.gcmdDone_of s t k (fun t => t.pending = s.pending) (by simp)
@[simp] theorem State.gcmdDone_active (s : State) (t k : Nat) : (s.gcmdDone t k).active = s.active :=
  State.gcmdDone_of s t k (fun t => t.active = s.active) (by simp)
@[simp] theorem State.gcmdDone_locks (s : State) (t k : Nat) : (s.gcmdDone t k).locks = s.locks :=
  State.gcmdDone_of s t k (fun t => t.locks = s.locks) (by simp)
@[simp] theorem State.gcmdDone_freeCtr (s : State) (t k : Nat) : (s.gcmdDone t k).freeCtr = s.freeCtr :=
  State.gcmdDone_of s t k (fun t => t.freeCtr = s.freeCtr) (by simp)
@[simp] theorem State.gcmdDone_clock (s : State) (t k : Nat) : (s.gcmdDone t k).clock = s.clock :=
  State.gcmdDone_of s t k (fun t => t.clock = s.clock) (by simp)
@[simp] theorem State.gcmdDone_dmmCfg (s : State) (t k : Nat) : (s.gcmdDone t k).dmmCfg = s.dmmCfg :=
  State.gcmdDone_of s t k (fun t => t.dmmCfg = s.dmmCfg) (by simp)
@[simp] theorem State.gcmdDone_rateFloor (s : State) (t k : Nat) : (s.gcmdDone t k).rateFloor = s.rateFloor :=
  State.gcmdDone_of s t k (fun t => t.rateFloor = s.rateFloor) (by simp)
@[simp] theorem State.gcmdDone_dmm (s : State) (t k : Nat) : (s.gcmdDone t k).dmm = s.dmm :=
  State.gcmdDone_of s t k (fun t => t.dmm = s.dmm) (by simp)
@[simp] theorem State.gcmdDone_plan (s : State) (t k : Nat) : (s.gcmdDone t k).plan = s.plan :=
  State.gcmdDone_of s t k (fun t => t.plan = s.plan) (by simp)
@[simp] theorem State.gcmdDone_dom (s : State) (t k : Nat) : (s.gcmdDone t k).dom = s.dom :=
  State.gcmdDone_of s t k (fun t => t.dom = s.dom) (by simp)
@[simp] theorem State.gcmdDone_boot (s : State) (t k : Nat) : (s.gcmdDone t k).boot = s.boot :=
  State.gcmdDone_of s t k (fun t => t.boot = s.boot) (by simp)
@[simp] theorem State.gcmdDone_deliv (s : State) (t k : Nat) : (s.gcmdDone t k).deliv = s.deliv :=
  State.gcmdDone_of s t k (fun t => t.deliv = s.deliv) (by simp)
@[simp] theorem State.gcmdDone_lc (s : State) (t k : Nat) : (s.gcmdDone t k).lc = s.lc :=
  State.gcmdDone_of s t k (fun t => t.lc = s.lc) (by simp)
@[simp] theorem State.gcmdDone_tap (s : State) (t k : Nat) : (s.gcmdDone t k).tap = s.tap :=
  State.gcmdDone_of s t k (fun t => t.tap = s.tap) (by simp)
@[simp] theorem State.gcmdDone_rot (s : State) (t k : Nat) : (s.gcmdDone t k).rot = s.rot :=
  State.gcmdDone_of s t k (fun t => t.rot = s.rot) (by simp)
@[simp] theorem State.gcmdDone_saf (s : State) (t k : Nat) : (s.gcmdDone t k).saf = s.saf :=
  State.gcmdDone_of s t k (fun t => t.saf = s.saf) (by simp)
@[simp] theorem State.gcmdDone_mem (s : State) (t k : Nat) : (s.gcmdDone t k).mem = s.mem :=
  State.gcmdDone_of s t k (fun t => t.mem = s.mem) (by simp)
@[simp] theorem State.gcmdDone_atu (s : State) (t k : Nat) : (s.gcmdDone t k).atu = s.atu :=
  State.gcmdDone_of s t k (fun t => t.atu = s.atu) (by simp)
@[simp] theorem State.gcmdDone_dsp (s : State) (t k : Nat) : (s.gcmdDone t k).dsp = s.dsp :=
  State.gcmdDone_of s t k (fun t => t.dsp = s.dsp) (by simp)
@[simp] theorem State.gcmdDone_mesh (s : State) (t k : Nat) : (s.gcmdDone t k).mesh = s.mesh :=
  State.gcmdDone_of s t k (fun t => t.mesh = s.mesh) (by simp)
@[simp] theorem State.gcmdDone_fab (s : State) (t k : Nat) : (s.gcmdDone t k).fab = s.fab :=
  State.gcmdDone_of s t k (fun t => t.fab = s.fab) (by simp)
@[simp] theorem State.gcmdDone_site (s : State) (t k : Nat) : (s.gcmdDone t k).site = s.site :=
  State.gcmdDone_of s t k (fun t => t.site = s.site) (by simp)
@[simp] theorem State.gcmdDone_joins (s : State) (t k : Nat) : (s.gcmdDone t k).joins = s.joins :=
  State.gcmdDone_of s t k (fun t => t.joins = s.joins) (by simp)
@[simp] theorem State.gcmdDone_nextJoin (s : State) (t k : Nat) : (s.gcmdDone t k).nextJoin = s.nextJoin :=
  State.gcmdDone_of s t k (fun t => t.nextJoin = s.nextJoin) (by simp)
@[simp] theorem State.gcmdDone_xwaits (s : State) (t k : Nat) : (s.gcmdDone t k).xwaits = s.xwaits :=
  State.gcmdDone_of s t k (fun t => t.xwaits = s.xwaits) (by simp)
@[simp] theorem State.gcmdDone_nextWait (s : State) (t k : Nat) : (s.gcmdDone t k).nextWait = s.nextWait :=
  State.gcmdDone_of s t k (fun t => t.nextWait = s.nextWait) (by simp)
@[simp] theorem State.gcmdDone_eth (s : State) (t k : Nat) : (s.gcmdDone t k).eth = s.eth :=
  State.gcmdDone_of s t k (fun t => t.eth = s.eth) (by simp)
@[simp] theorem State.gcmdDone_mil (s : State) (t k : Nat) : (s.gcmdDone t k).mil = s.mil :=
  State.gcmdDone_of s t k (fun t => t.mil = s.mil) (by simp)
@[simp] theorem State.gcmdDone_taskErrs (s : State) (t k : Nat) : (s.gcmdDone t k).taskErrs = s.taskErrs :=
  State.gcmdDone_of s t k (fun t => t.taskErrs = s.taskErrs) (by simp)

/-- A page is BUSY or IDLE as its block has work. -/
theorem State.busyIf_of (s : State) (p : Nat) (b : Bool) (P : State → Prop)
    (h0 : P s)
    (h1 : P (s.workStart p))
    (h2 : P (s.setState p stIDLE)) :
    P (s.busyIf p b) := by
  unfold State.busyIf
  split
  · exact h1
  · split
    · exact h2
    · exact h0

@[simp] theorem State.busyIf_pending (s : State) (p : Nat) (b : Bool) : (s.busyIf p b).pending = s.pending :=
  State.busyIf_of s p b (fun t => t.pending = s.pending) rfl (by simp) (by simp)
@[simp] theorem State.busyIf_active (s : State) (p : Nat) (b : Bool) : (s.busyIf p b).active = s.active :=
  State.busyIf_of s p b (fun t => t.active = s.active) rfl (by simp) (by simp)
@[simp] theorem State.busyIf_locks (s : State) (p : Nat) (b : Bool) : (s.busyIf p b).locks = s.locks :=
  State.busyIf_of s p b (fun t => t.locks = s.locks) rfl (by simp) (by simp)
@[simp] theorem State.busyIf_freeCtr (s : State) (p : Nat) (b : Bool) : (s.busyIf p b).freeCtr = s.freeCtr :=
  State.busyIf_of s p b (fun t => t.freeCtr = s.freeCtr) rfl (by simp) (by simp)
@[simp] theorem State.busyIf_clock (s : State) (p : Nat) (b : Bool) : (s.busyIf p b).clock = s.clock :=
  State.busyIf_of s p b (fun t => t.clock = s.clock) rfl (by simp) (by simp)
@[simp] theorem State.busyIf_dmmCfg (s : State) (p : Nat) (b : Bool) : (s.busyIf p b).dmmCfg = s.dmmCfg :=
  State.busyIf_of s p b (fun t => t.dmmCfg = s.dmmCfg) rfl (by simp) (by simp)
@[simp] theorem State.busyIf_rateFloor (s : State) (p : Nat) (b : Bool) : (s.busyIf p b).rateFloor = s.rateFloor :=
  State.busyIf_of s p b (fun t => t.rateFloor = s.rateFloor) rfl (by simp) (by simp)
@[simp] theorem State.busyIf_dmm (s : State) (p : Nat) (b : Bool) : (s.busyIf p b).dmm = s.dmm :=
  State.busyIf_of s p b (fun t => t.dmm = s.dmm) rfl (by simp) (by simp)
@[simp] theorem State.busyIf_plan (s : State) (p : Nat) (b : Bool) : (s.busyIf p b).plan = s.plan :=
  State.busyIf_of s p b (fun t => t.plan = s.plan) rfl (by simp) (by simp)
@[simp] theorem State.busyIf_dom (s : State) (p : Nat) (b : Bool) : (s.busyIf p b).dom = s.dom :=
  State.busyIf_of s p b (fun t => t.dom = s.dom) rfl (by simp) (by simp)
@[simp] theorem State.busyIf_boot (s : State) (p : Nat) (b : Bool) : (s.busyIf p b).boot = s.boot :=
  State.busyIf_of s p b (fun t => t.boot = s.boot) rfl (by simp) (by simp)
@[simp] theorem State.busyIf_deliv (s : State) (p : Nat) (b : Bool) : (s.busyIf p b).deliv = s.deliv :=
  State.busyIf_of s p b (fun t => t.deliv = s.deliv) rfl (by simp) (by simp)
@[simp] theorem State.busyIf_lc (s : State) (p : Nat) (b : Bool) : (s.busyIf p b).lc = s.lc :=
  State.busyIf_of s p b (fun t => t.lc = s.lc) rfl (by simp) (by simp)
@[simp] theorem State.busyIf_rot (s : State) (p : Nat) (b : Bool) : (s.busyIf p b).rot = s.rot :=
  State.busyIf_of s p b (fun t => t.rot = s.rot) rfl (by simp) (by simp)
@[simp] theorem State.busyIf_saf (s : State) (p : Nat) (b : Bool) : (s.busyIf p b).saf = s.saf :=
  State.busyIf_of s p b (fun t => t.saf = s.saf) rfl (by simp) (by simp)
@[simp] theorem State.busyIf_mem (s : State) (p : Nat) (b : Bool) : (s.busyIf p b).mem = s.mem :=
  State.busyIf_of s p b (fun t => t.mem = s.mem) rfl (by simp) (by simp)
@[simp] theorem State.busyIf_atu (s : State) (p : Nat) (b : Bool) : (s.busyIf p b).atu = s.atu :=
  State.busyIf_of s p b (fun t => t.atu = s.atu) rfl (by simp) (by simp)
@[simp] theorem State.busyIf_dsp (s : State) (p : Nat) (b : Bool) : (s.busyIf p b).dsp = s.dsp :=
  State.busyIf_of s p b (fun t => t.dsp = s.dsp) rfl (by simp) (by simp)
@[simp] theorem State.busyIf_mesh (s : State) (p : Nat) (b : Bool) : (s.busyIf p b).mesh = s.mesh :=
  State.busyIf_of s p b (fun t => t.mesh = s.mesh) rfl (by simp) (by simp)
@[simp] theorem State.busyIf_fab (s : State) (p : Nat) (b : Bool) : (s.busyIf p b).fab = s.fab :=
  State.busyIf_of s p b (fun t => t.fab = s.fab) rfl (by simp) (by simp)
@[simp] theorem State.busyIf_site (s : State) (p : Nat) (b : Bool) : (s.busyIf p b).site = s.site :=
  State.busyIf_of s p b (fun t => t.site = s.site) rfl (by simp) (by simp)
@[simp] theorem State.busyIf_joins (s : State) (p : Nat) (b : Bool) : (s.busyIf p b).joins = s.joins :=
  State.busyIf_of s p b (fun t => t.joins = s.joins) rfl (by simp) (by simp)
@[simp] theorem State.busyIf_nextJoin (s : State) (p : Nat) (b : Bool) : (s.busyIf p b).nextJoin = s.nextJoin :=
  State.busyIf_of s p b (fun t => t.nextJoin = s.nextJoin) rfl (by simp) (by simp)
@[simp] theorem State.busyIf_xwaits (s : State) (p : Nat) (b : Bool) : (s.busyIf p b).xwaits = s.xwaits :=
  State.busyIf_of s p b (fun t => t.xwaits = s.xwaits) rfl (by simp) (by simp)
@[simp] theorem State.busyIf_nextWait (s : State) (p : Nat) (b : Bool) : (s.busyIf p b).nextWait = s.nextWait :=
  State.busyIf_of s p b (fun t => t.nextWait = s.nextWait) rfl (by simp) (by simp)
@[simp] theorem State.busyIf_eth (s : State) (p : Nat) (b : Bool) : (s.busyIf p b).eth = s.eth :=
  State.busyIf_of s p b (fun t => t.eth = s.eth) rfl (by simp) (by simp)
@[simp] theorem State.busyIf_mil (s : State) (p : Nat) (b : Bool) : (s.busyIf p b).mil = s.mil :=
  State.busyIf_of s p b (fun t => t.mil = s.mil) rfl (by simp) (by simp)
@[simp] theorem State.busyIf_taskErrs (s : State) (p : Nat) (b : Bool) : (s.busyIf p b).taskErrs = s.taskErrs :=
  State.busyIf_of s p b (fun t => t.taskErrs = s.taskErrs) rfl (by simp) (by simp)

/-- Writing an entry of the error log at the head. -/
theorem State.cePut_of (s : State) (c e : Nat) (P : State → Prop)
    (h : ∀ t : State, t = s ∨ t = s.count pSAF (PgSAF.CE_HEAD_OVERFLOW c) 1 → ∀ a v k, P ((t.setWord pSAF a v).setFld pSAF (PgSAF.CE_HEAD_HEAD c) k)) :
    P (s.cePut c e) := by
  unfold State.cePut
  dsimp only
  split
  · exact h _ (.inr rfl) _ _ _
  · exact h _ (.inl rfl) _ _ _

/-- What an entry of the error log does: a repeat is counted, or an entry is written, with its interrupt where it is the location's first. -/
theorem State.ceLog_of (s : State) (c o p y u l : Nat) (P : State → Prop) (h0 : ∀ a v, P (s.setWord pSAF a v))
    (h1 : ∀ e, P (s.cePut c e)) (h2 : ∀ e i, P ((s.cePut c e).setInt pSAF i)) :
    P (s.ceLog c o p y u l).2 := by
  unfold State.ceLog
  split
  · exact h0 _ _
  · dsimp only
    split
    · exact h2 _ _
    · split
      · exact h1 _
      · exact h2 _ _

@[simp] theorem State.cePut_pending (s : State) (c e : Nat) : (s.cePut c e).pending = s.pending :=
  State.cePut_of s c e (fun t => t.pending = s.pending) (fun t h _ _ _ => by rcases h with rfl | rfl <;> simp)
@[simp] theorem State.cePut_active (s : State) (c e : Nat) : (s.cePut c e).active = s.active :=
  State.cePut_of s c e (fun t => t.active = s.active) (fun t h _ _ _ => by rcases h with rfl | rfl <;> simp)
@[simp] theorem State.cePut_locks (s : State) (c e : Nat) : (s.cePut c e).locks = s.locks :=
  State.cePut_of s c e (fun t => t.locks = s.locks) (fun t h _ _ _ => by rcases h with rfl | rfl <;> simp)
@[simp] theorem State.cePut_out (s : State) (c e : Nat) : (s.cePut c e).out = s.out :=
  State.cePut_of s c e (fun t => t.out = s.out) (fun t h _ _ _ => by rcases h with rfl | rfl <;> simp)
@[simp] theorem State.cePut_freeCtr (s : State) (c e : Nat) : (s.cePut c e).freeCtr = s.freeCtr :=
  State.cePut_of s c e (fun t => t.freeCtr = s.freeCtr) (fun t h _ _ _ => by rcases h with rfl | rfl <;> simp)
@[simp] theorem State.cePut_clock (s : State) (c e : Nat) : (s.cePut c e).clock = s.clock :=
  State.cePut_of s c e (fun t => t.clock = s.clock) (fun t h _ _ _ => by rcases h with rfl | rfl <;> simp)
@[simp] theorem State.cePut_dmmCfg (s : State) (c e : Nat) : (s.cePut c e).dmmCfg = s.dmmCfg :=
  State.cePut_of s c e (fun t => t.dmmCfg = s.dmmCfg) (fun t h _ _ _ => by rcases h with rfl | rfl <;> simp)
@[simp] theorem State.cePut_rateFloor (s : State) (c e : Nat) : (s.cePut c e).rateFloor = s.rateFloor :=
  State.cePut_of s c e (fun t => t.rateFloor = s.rateFloor) (fun t h _ _ _ => by rcases h with rfl | rfl <;> simp)
@[simp] theorem State.cePut_dmm (s : State) (c e : Nat) : (s.cePut c e).dmm = s.dmm :=
  State.cePut_of s c e (fun t => t.dmm = s.dmm) (fun t h _ _ _ => by rcases h with rfl | rfl <;> simp)
@[simp] theorem State.cePut_plan (s : State) (c e : Nat) : (s.cePut c e).plan = s.plan :=
  State.cePut_of s c e (fun t => t.plan = s.plan) (fun t h _ _ _ => by rcases h with rfl | rfl <;> simp)
@[simp] theorem State.cePut_dom (s : State) (c e : Nat) : (s.cePut c e).dom = s.dom :=
  State.cePut_of s c e (fun t => t.dom = s.dom) (fun t h _ _ _ => by rcases h with rfl | rfl <;> simp)
@[simp] theorem State.cePut_boot (s : State) (c e : Nat) : (s.cePut c e).boot = s.boot :=
  State.cePut_of s c e (fun t => t.boot = s.boot) (fun t h _ _ _ => by rcases h with rfl | rfl <;> simp)
@[simp] theorem State.cePut_deliv (s : State) (c e : Nat) : (s.cePut c e).deliv = s.deliv :=
  State.cePut_of s c e (fun t => t.deliv = s.deliv) (fun t h _ _ _ => by rcases h with rfl | rfl <;> simp)
@[simp] theorem State.cePut_host (s : State) (c e : Nat) : (s.cePut c e).host = s.host :=
  State.cePut_of s c e (fun t => t.host = s.host) (fun t h _ _ _ => by rcases h with rfl | rfl <;> simp)
@[simp] theorem State.cePut_lc (s : State) (c e : Nat) : (s.cePut c e).lc = s.lc :=
  State.cePut_of s c e (fun t => t.lc = s.lc) (fun t h _ _ _ => by rcases h with rfl | rfl <;> simp)
@[simp] theorem State.cePut_tap (s : State) (c e : Nat) : (s.cePut c e).tap = s.tap :=
  State.cePut_of s c e (fun t => t.tap = s.tap) (fun t h _ _ _ => by rcases h with rfl | rfl <;> simp)
@[simp] theorem State.cePut_rot (s : State) (c e : Nat) : (s.cePut c e).rot = s.rot :=
  State.cePut_of s c e (fun t => t.rot = s.rot) (fun t h _ _ _ => by rcases h with rfl | rfl <;> simp)
@[simp] theorem State.cePut_saf (s : State) (c e : Nat) : (s.cePut c e).saf = s.saf :=
  State.cePut_of s c e (fun t => t.saf = s.saf) (fun t h _ _ _ => by rcases h with rfl | rfl <;> simp)
@[simp] theorem State.cePut_mem (s : State) (c e : Nat) : (s.cePut c e).mem = s.mem :=
  State.cePut_of s c e (fun t => t.mem = s.mem) (fun t h _ _ _ => by rcases h with rfl | rfl <;> simp)
@[simp] theorem State.cePut_atu (s : State) (c e : Nat) : (s.cePut c e).atu = s.atu :=
  State.cePut_of s c e (fun t => t.atu = s.atu) (fun t h _ _ _ => by rcases h with rfl | rfl <;> simp)
@[simp] theorem State.cePut_dsp (s : State) (c e : Nat) : (s.cePut c e).dsp = s.dsp :=
  State.cePut_of s c e (fun t => t.dsp = s.dsp) (fun t h _ _ _ => by rcases h with rfl | rfl <;> simp)
@[simp] theorem State.cePut_mesh (s : State) (c e : Nat) : (s.cePut c e).mesh = s.mesh :=
  State.cePut_of s c e (fun t => t.mesh = s.mesh) (fun t h _ _ _ => by rcases h with rfl | rfl <;> simp)
@[simp] theorem State.cePut_fab (s : State) (c e : Nat) : (s.cePut c e).fab = s.fab :=
  State.cePut_of s c e (fun t => t.fab = s.fab) (fun t h _ _ _ => by rcases h with rfl | rfl <;> simp)
@[simp] theorem State.cePut_site (s : State) (c e : Nat) : (s.cePut c e).site = s.site :=
  State.cePut_of s c e (fun t => t.site = s.site) (fun t h _ _ _ => by rcases h with rfl | rfl <;> simp)
@[simp] theorem State.cePut_joins (s : State) (c e : Nat) : (s.cePut c e).joins = s.joins :=
  State.cePut_of s c e (fun t => t.joins = s.joins) (fun t h _ _ _ => by rcases h with rfl | rfl <;> simp)
@[simp] theorem State.cePut_nextJoin (s : State) (c e : Nat) : (s.cePut c e).nextJoin = s.nextJoin :=
  State.cePut_of s c e (fun t => t.nextJoin = s.nextJoin) (fun t h _ _ _ => by rcases h with rfl | rfl <;> simp)
@[simp] theorem State.cePut_xwaits (s : State) (c e : Nat) : (s.cePut c e).xwaits = s.xwaits :=
  State.cePut_of s c e (fun t => t.xwaits = s.xwaits) (fun t h _ _ _ => by rcases h with rfl | rfl <;> simp)
@[simp] theorem State.cePut_nextWait (s : State) (c e : Nat) : (s.cePut c e).nextWait = s.nextWait :=
  State.cePut_of s c e (fun t => t.nextWait = s.nextWait) (fun t h _ _ _ => by rcases h with rfl | rfl <;> simp)
@[simp] theorem State.cePut_eth (s : State) (c e : Nat) : (s.cePut c e).eth = s.eth :=
  State.cePut_of s c e (fun t => t.eth = s.eth) (fun t h _ _ _ => by rcases h with rfl | rfl <;> simp)
@[simp] theorem State.cePut_mil (s : State) (c e : Nat) : (s.cePut c e).mil = s.mil :=
  State.cePut_of s c e (fun t => t.mil = s.mil) (fun t h _ _ _ => by rcases h with rfl | rfl <;> simp)
@[simp] theorem State.cePut_taskErrs (s : State) (c e : Nat) : (s.cePut c e).taskErrs = s.taskErrs :=
  State.cePut_of s c e (fun t => t.taskErrs = s.taskErrs) (fun t h _ _ _ => by rcases h with rfl | rfl <;> simp)

@[simp] theorem State.ceLog_pending (s : State) (c o p y u l : Nat) : (s.ceLog c o p y u l).2.pending = s.pending :=
  State.ceLog_of s c o p y u l (fun t => t.pending = s.pending) (fun _ _ => by simp) (fun _ => by simp) (fun _ _ => by simp)
@[simp] theorem State.ceLog_active (s : State) (c o p y u l : Nat) : (s.ceLog c o p y u l).2.active = s.active :=
  State.ceLog_of s c o p y u l (fun t => t.active = s.active) (fun _ _ => by simp) (fun _ => by simp) (fun _ _ => by simp)
@[simp] theorem State.ceLog_locks (s : State) (c o p y u l : Nat) : (s.ceLog c o p y u l).2.locks = s.locks :=
  State.ceLog_of s c o p y u l (fun t => t.locks = s.locks) (fun _ _ => by simp) (fun _ => by simp) (fun _ _ => by simp)
@[simp] theorem State.ceLog_freeCtr (s : State) (c o p y u l : Nat) : (s.ceLog c o p y u l).2.freeCtr = s.freeCtr :=
  State.ceLog_of s c o p y u l (fun t => t.freeCtr = s.freeCtr) (fun _ _ => by simp) (fun _ => by simp) (fun _ _ => by simp)
@[simp] theorem State.ceLog_clock (s : State) (c o p y u l : Nat) : (s.ceLog c o p y u l).2.clock = s.clock :=
  State.ceLog_of s c o p y u l (fun t => t.clock = s.clock) (fun _ _ => by simp) (fun _ => by simp) (fun _ _ => by simp)
@[simp] theorem State.ceLog_dmmCfg (s : State) (c o p y u l : Nat) : (s.ceLog c o p y u l).2.dmmCfg = s.dmmCfg :=
  State.ceLog_of s c o p y u l (fun t => t.dmmCfg = s.dmmCfg) (fun _ _ => by simp) (fun _ => by simp) (fun _ _ => by simp)
@[simp] theorem State.ceLog_rateFloor (s : State) (c o p y u l : Nat) : (s.ceLog c o p y u l).2.rateFloor = s.rateFloor :=
  State.ceLog_of s c o p y u l (fun t => t.rateFloor = s.rateFloor) (fun _ _ => by simp) (fun _ => by simp) (fun _ _ => by simp)
@[simp] theorem State.ceLog_dmm (s : State) (c o p y u l : Nat) : (s.ceLog c o p y u l).2.dmm = s.dmm :=
  State.ceLog_of s c o p y u l (fun t => t.dmm = s.dmm) (fun _ _ => by simp) (fun _ => by simp) (fun _ _ => by simp)
@[simp] theorem State.ceLog_plan (s : State) (c o p y u l : Nat) : (s.ceLog c o p y u l).2.plan = s.plan :=
  State.ceLog_of s c o p y u l (fun t => t.plan = s.plan) (fun _ _ => by simp) (fun _ => by simp) (fun _ _ => by simp)
@[simp] theorem State.ceLog_dom (s : State) (c o p y u l : Nat) : (s.ceLog c o p y u l).2.dom = s.dom :=
  State.ceLog_of s c o p y u l (fun t => t.dom = s.dom) (fun _ _ => by simp) (fun _ => by simp) (fun _ _ => by simp)
@[simp] theorem State.ceLog_boot (s : State) (c o p y u l : Nat) : (s.ceLog c o p y u l).2.boot = s.boot :=
  State.ceLog_of s c o p y u l (fun t => t.boot = s.boot) (fun _ _ => by simp) (fun _ => by simp) (fun _ _ => by simp)
@[simp] theorem State.ceLog_deliv (s : State) (c o p y u l : Nat) : (s.ceLog c o p y u l).2.deliv = s.deliv :=
  State.ceLog_of s c o p y u l (fun t => t.deliv = s.deliv) (fun _ _ => by simp) (fun _ => by simp) (fun _ _ => by simp)
@[simp] theorem State.ceLog_lc (s : State) (c o p y u l : Nat) : (s.ceLog c o p y u l).2.lc = s.lc :=
  State.ceLog_of s c o p y u l (fun t => t.lc = s.lc) (fun _ _ => by simp) (fun _ => by simp) (fun _ _ => by simp)
@[simp] theorem State.ceLog_tap (s : State) (c o p y u l : Nat) : (s.ceLog c o p y u l).2.tap = s.tap :=
  State.ceLog_of s c o p y u l (fun t => t.tap = s.tap) (fun _ _ => by simp) (fun _ => by simp) (fun _ _ => by simp)
@[simp] theorem State.ceLog_rot (s : State) (c o p y u l : Nat) : (s.ceLog c o p y u l).2.rot = s.rot :=
  State.ceLog_of s c o p y u l (fun t => t.rot = s.rot) (fun _ _ => by simp) (fun _ => by simp) (fun _ _ => by simp)
@[simp] theorem State.ceLog_saf (s : State) (c o p y u l : Nat) : (s.ceLog c o p y u l).2.saf = s.saf :=
  State.ceLog_of s c o p y u l (fun t => t.saf = s.saf) (fun _ _ => by simp) (fun _ => by simp) (fun _ _ => by simp)
@[simp] theorem State.ceLog_mem (s : State) (c o p y u l : Nat) : (s.ceLog c o p y u l).2.mem = s.mem :=
  State.ceLog_of s c o p y u l (fun t => t.mem = s.mem) (fun _ _ => by simp) (fun _ => by simp) (fun _ _ => by simp)
@[simp] theorem State.ceLog_atu (s : State) (c o p y u l : Nat) : (s.ceLog c o p y u l).2.atu = s.atu :=
  State.ceLog_of s c o p y u l (fun t => t.atu = s.atu) (fun _ _ => by simp) (fun _ => by simp) (fun _ _ => by simp)
@[simp] theorem State.ceLog_dsp (s : State) (c o p y u l : Nat) : (s.ceLog c o p y u l).2.dsp = s.dsp :=
  State.ceLog_of s c o p y u l (fun t => t.dsp = s.dsp) (fun _ _ => by simp) (fun _ => by simp) (fun _ _ => by simp)
@[simp] theorem State.ceLog_mesh (s : State) (c o p y u l : Nat) : (s.ceLog c o p y u l).2.mesh = s.mesh :=
  State.ceLog_of s c o p y u l (fun t => t.mesh = s.mesh) (fun _ _ => by simp) (fun _ => by simp) (fun _ _ => by simp)
@[simp] theorem State.ceLog_fab (s : State) (c o p y u l : Nat) : (s.ceLog c o p y u l).2.fab = s.fab :=
  State.ceLog_of s c o p y u l (fun t => t.fab = s.fab) (fun _ _ => by simp) (fun _ => by simp) (fun _ _ => by simp)
@[simp] theorem State.ceLog_site (s : State) (c o p y u l : Nat) : (s.ceLog c o p y u l).2.site = s.site :=
  State.ceLog_of s c o p y u l (fun t => t.site = s.site) (fun _ _ => by simp) (fun _ => by simp) (fun _ _ => by simp)
@[simp] theorem State.ceLog_joins (s : State) (c o p y u l : Nat) : (s.ceLog c o p y u l).2.joins = s.joins :=
  State.ceLog_of s c o p y u l (fun t => t.joins = s.joins) (fun _ _ => by simp) (fun _ => by simp) (fun _ _ => by simp)
@[simp] theorem State.ceLog_nextJoin (s : State) (c o p y u l : Nat) : (s.ceLog c o p y u l).2.nextJoin = s.nextJoin :=
  State.ceLog_of s c o p y u l (fun t => t.nextJoin = s.nextJoin) (fun _ _ => by simp) (fun _ => by simp) (fun _ _ => by simp)
@[simp] theorem State.ceLog_xwaits (s : State) (c o p y u l : Nat) : (s.ceLog c o p y u l).2.xwaits = s.xwaits :=
  State.ceLog_of s c o p y u l (fun t => t.xwaits = s.xwaits) (fun _ _ => by simp) (fun _ => by simp) (fun _ _ => by simp)
@[simp] theorem State.ceLog_nextWait (s : State) (c o p y u l : Nat) : (s.ceLog c o p y u l).2.nextWait = s.nextWait :=
  State.ceLog_of s c o p y u l (fun t => t.nextWait = s.nextWait) (fun _ _ => by simp) (fun _ => by simp) (fun _ _ => by simp)
@[simp] theorem State.ceLog_eth (s : State) (c o p y u l : Nat) : (s.ceLog c o p y u l).2.eth = s.eth :=
  State.ceLog_of s c o p y u l (fun t => t.eth = s.eth) (fun _ _ => by simp) (fun _ => by simp) (fun _ _ => by simp)
@[simp] theorem State.ceLog_mil (s : State) (c o p y u l : Nat) : (s.ceLog c o p y u l).2.mil = s.mil :=
  State.ceLog_of s c o p y u l (fun t => t.mil = s.mil) (fun _ _ => by simp) (fun _ => by simp) (fun _ _ => by simp)
@[simp] theorem State.ceLog_taskErrs (s : State) (c o p y u l : Nat) : (s.ceLog c o p y u l).2.taskErrs = s.taskErrs :=
  State.ceLog_of s c o p y u l (fun t => t.taskErrs = s.taskErrs) (fun _ _ => by simp) (fun _ => by simp) (fun _ _ => by simp)

end Sys2Proof.Machine
end

