-- ==== Sys2Proof/Laws/Gate.lean ====
section
/-! SUPPORT. Accesses that reach a page act on it. -/
namespace Sys2Proof.Machine

theorem State.unit_congr {s t : State} (h : t.plan = s.plan) (u : UnitId) : t.unit u = s.unit u := by
  simp [State.unit, h]

theorem State.absent_congr {s t : State} (h : t.plan = s.plan) (u : UnitId) : t.absent u = s.absent u := by
  simp [State.absent, State.unit_congr h]

/-- Which pages are absent follows from the floor plan alone. -/
theorem State.pageAbsent_congr {s t : State} (h : t.plan = s.plan) (p : Nat) : t.pageAbsent p = s.pageAbsent p := by
  have e : t.absent = s.absent := funext (State.absent_congr h)
  simp only [State.pageAbsent, State.tolAbsent, e]

@[simp] theorem State.rxTlp_plan (s : State) : s.rxTlp.plan = s.plan := by
  simp only [State.rxTlp]; split <;> simp

/-- A TLP that arrives is counted in PERF0 of the host endpoint and nowhere else in the registers. -/
theorem State.rxTlp_word (s : State) (p off : Nat) (h : regKey (homePage p off) off ≠ regKey pHEP PgHEP.PERF0_RX_KTLP.off) :
    s.rxTlp.word p off = s.word p off := by
  simp only [State.rxTlp]
  split
  · simp only [State.count, State.setFld]
    rw [State.word_setWord_ne]
    · rfl
    · exact h
  · rfl

theorem State.rxTlp_accessClass (s : State) (c i : Nat) : s.rxTlp.accessClass (pg c i) = s.accessClass (pg c i) := by
  simp only [State.accessClass, State.fld]
  rw [State.rxTlp_word]
  intro h
  have : homePage (pg c i) PgHDR.OWNER_ACCESS_CLASS.off = pg c i := by
    simp [homePage, PgHDR.OWNER_ACCESS_CLASS]
  rw [this] at h
  simp [regKey, pg, PgHDR.OWNER_ACCESS_CLASS, PgHEP.PERF0_RX_KTLP, pHEP, cHEP] at h
  omega

/-- An access that reaches its page acts on it. -/
theorem State.gateHdr_of_reaches (s : State) {r : Requester} {c i : Nat} (h : s.reaches r c i = true) (off : Nat) (k : Nat → State → State) :
    s.gateHdr r c i off k = k (pg c i) (s.arrived r) := by
  simp only [State.reaches, Bool.and_eq_true, decide_eq_true_eq, Bool.not_eq_true', Bool.or_eq_true] at h
  obtain ⟨⟨⟨hi, ha⟩, hs⟩, hh⟩ := h
  have hi' : ¬ 2048 ≤ i := by omega
  cases r with
  | host =>
    have hh : s.hostReach = true ∧ s.ideShut = false := by simpa using hh
    simp only [State.gateHdr, State.hostIn, State.arrived, hh.1, hh.2]
    have e := State.pageAbsent_congr (State.rxTlp_plan s) (pg c i)
    simp [hi', e, ha, State.rxTlp_accessClass s c i, hs]
  | mgmt => simp [State.gateHdr, State.arrived, hi', ha, hs]
  | rot => simp [State.gateHdr, State.arrived, hi', ha, hs]
  | hub => simp [State.gateHdr, State.arrived, hi', ha, hs]

theorem State.arrived_pageState (s : State) (r : Requester) (c i : Nat) :
    (s.arrived r).pageState (pg c i) = s.pageState (pg c i) := by
  cases r <;> simp only [State.arrived]
  simp only [State.pageState, State.fld]
  rw [State.rxTlp_word]
  intro h
  have : homePage (pg c i) PgHDR.PAGE_STATE_STATE.off = pg c i := by simp [homePage, PgHDR.PAGE_STATE_STATE]
  rw [this] at h
  simp [regKey, pg, PgHDR.PAGE_STATE_STATE, PgHEP.PERF0_RX_KTLP, pHEP, cHEP] at h
  omega

theorem State.arrived_compDown (s : State) (r : Requester) (p : Nat) : (s.arrived r).compDown p = s.compDown p := by
  cases r <;> simp only [State.arrived]
  have : s.rxTlp.rot = s.rot := by simp only [State.rxTlp]; split <;> simp
  simp only [State.compDown, State.comp, this]

/-- A block register's write that reaches an open page acts on it. -/
theorem State.gateBlk_of_opens (s : State) {r : Requester} {c i : Nat} (h : s.opens r c i = true) (off : Nat) (k : Nat → State → State) :
    s.gateBlk r c i off k = k (pg c i) (s.arrived r) := by
  simp only [State.opens, Bool.and_eq_true, Bool.not_eq_true'] at h
  have e : (s.arrived r).shut (pg c i) = false := by
    simpa only [State.shut, State.arrived_pageState s r c i, State.arrived_compDown] using h.2
  rw [State.gateBlk, State.gateHdr_of_reaches s h.1]
  simp [e]

end Sys2Proof.Machine
end

