-- ==== Sys2Proof/Laws/Memory.lean ====
section
/-! SUPPORT. Every operation on the banks and on HBM keeps the canonical form of the memories (log entry 3): the operations that write one of
the two tables, one lemma each. -/
namespace Sys2Proof.Machine
open Host

variable {α : Type} [DecidableEq α]

theorem NMap.wf_cut {d : α} {m : NMap α} (lo hi : Nat) (h : NMap.wf d m = true) : NMap.wf d (NMap.cut m lo hi) = true := NMap.wf_filter _ h
theorem NMap.wf_slice {d : α} {m : NMap α} (lo hi : Nat) (h : NMap.wf d m = true) : NMap.wf d (NMap.slice m lo hi) = true := NMap.wf_filter _ h

/-- A fold of writes keeps the canonical form. -/
theorem NMap.wf_foldl {β : Type} {d : α} (f : NMap α → β → NMap α) (hf : ∀ m b, NMap.wf d m = true → NMap.wf d (f m b) = true) :
    ∀ (l : List β) (m : NMap α), NMap.wf d m = true → NMap.wf d (l.foldl f m) = true
  | [], _, h => h
  | b :: l, m, h => NMap.wf_foldl f hf l _ (hf m b h)

theorem NMap.wf_copyRange {d : α} {m : NMap α} (lo hi dst : Nat) (h : NMap.wf d m = true) : NMap.wf d (NMap.copyRange m d lo hi dst) = true :=
  NMap.wf_foldl _ (fun _ e hm => NMap.wf_put (e.1 - lo + dst) e.2 hm) _ _ (NMap.wf_cut _ _ h)

theorem Memory.wf_iff {m : MemSt} : Memory.wf m = true ↔ NMap.wf 0 m.banks = true ∧ NMap.wf 0 m.hbm = true := by simp [Memory.wf]

/-- The form is a matter of the two tables alone. -/
theorem Memory.wf_congr {m k : MemSt} (hb : k.banks = m.banks) (hh : k.hbm = m.hbm) : Memory.wf k = Memory.wf m := by simp [Memory.wf, hb, hh]

/-- A fold of operations that keep the form keeps it. -/
theorem Memory.wf_foldl {β : Type} (f : State → β → State) (hf : ∀ s b, Memory.wf s.mem = true → Memory.wf (f s b).mem = true) :
    ∀ (l : List β) (s : State), Memory.wf s.mem = true → Memory.wf (l.foldl f s).mem = true
  | [], _, h => h
  | b :: l, s, h => Memory.wf_foldl f hf l _ (hf s b h)

theorem Memory.wf_reset : Memory.wf State.reset.mem = true := by decide

theorem State.setBankLine_wf {s : State} (n w word : Nat) (bs : List Byte) (p : Nat) (h : Memory.wf s.mem = true) :
    Memory.wf (s.setBankLine n w word bs p).mem = true :=
  Memory.wf_iff.mpr ⟨NMap.wf_putRun _ _ _ (Memory.wf_iff.mp h).1, (Memory.wf_iff.mp h).2⟩

theorem State.zeroWay_wf {s : State} (n w : Nat) (h : Memory.wf s.mem = true) : Memory.wf (s.zeroWay n w).mem = true :=
  Memory.wf_iff.mpr ⟨NMap.wf_cut _ _ (Memory.wf_iff.mp h).1, (Memory.wf_iff.mp h).2⟩

/-- A fold of operations that leave the memories leaves them. -/
theorem State.foldl_mem {β : Type} (f : State → β → State) (hf : ∀ s b, (f s b).mem = s.mem) : ∀ (l : List β) (s : State), (l.foldl f s).mem = s.mem
  | [], _ => rfl
  | b :: l, s => (State.foldl_mem f hf l _).trans (hf s b)

theorem State.zeroStores_wf {s : State} (n : Nat) (h : Memory.wf s.mem = true) : Memory.wf (s.zeroStores n).mem = true :=
  Memory.wf_iff.mpr ⟨NMap.wf_cut _ _ (Memory.wf_iff.mp h).1, (Memory.wf_iff.mp h).2⟩

/-- Zeroing a slice keeps the form where ending its gather reads does. -/
theorem State.zeroSlice_wf {s : State} (n : Nat) (h : Memory.wf (s.gatherDrop n (fun _ => true) tsACCESS).mem = true) :
    Memory.wf (s.zeroSlice n).mem = true := by
  simp only [State.zeroSlice]
  rw [State.foldl_mem (fun s i => s.setWord (pg cSKN n) (0x1B8 + 8 * i) 0) (by simp), State.foldl_mem (fun s i => s.setWord (pg cSKN n) (0x138 + 8 * i) 0) (by simp)]
  exact State.zeroStores_wf n h

/-- What poisoning a sector of HBM does to the memories: its metadata alone. -/
theorem State.poisonHbm_mem (s : State) (k o : Nat) (l : Bool) : ∃ t, (s.poisonHbm k o l).mem = { s.mem with hbmMeta := t } := by
  unfold State.poisonHbm
  dsimp only
  generalize hm : NMap.put s.mem.hbmMeta {} k _ = t
  refine ⟨t, ?_⟩
  split
  · split
    · rw [State.ceLog_mem]
    · rfl
  · split
    · rw [State.report_mem, State.ceLog_mem]
    · rw [State.report_mem]

theorem State.poisonHbm_wf {s : State} (k o : Nat) (h : Memory.wf s.mem = true) : Memory.wf (s.poisonHbm k o).mem = true := by
  obtain ⟨t, e⟩ := State.poisonHbm_mem s k o true
  rw [e]; exact h

theorem State.setHbmSector_wf {s : State} (k : Nat) (bs : List Byte) (p : Bool) (h : Memory.wf s.mem = true) :
    Memory.wf (s.setHbmSector k bs p).mem = true := by
  simp only [State.setHbmSector]
  split
  · split
    · exact h
    · exact State.poisonHbm_wf k 0 h
  · exact Memory.wf_iff.mpr ⟨(Memory.wf_iff.mp h).1, NMap.wf_putRun _ _ _ (Memory.wf_iff.mp h).2⟩

theorem State.fillGranule_wf {s : State} (g : Nat) (cells : List (Nat × Byte)) (poison : List Nat) (h : Memory.wf s.mem = true) :
    Memory.wf (s.fillGranule g cells poison).mem = true := by
  simp only [State.fillGranule]
  refine Memory.wf_foldl _ (fun s k hs => ?_) _ _ (Memory.wf_iff.mpr ⟨?_, ?_⟩)
  · split
    · exact State.poisonHbm_wf _ _ hs
    · exact hs
  · exact (Memory.wf_iff.mp h).1
  · refine NMap.wf_foldl _ (fun m e hm => ?_) _ _ (NMap.wf_cut _ _ (Memory.wf_iff.mp h).2)
    split
    · exact NMap.wf_put _ _ hm
    · exact hm

/-- Lines dropped without a write-back change the tags alone. -/
theorem State.dropLine_false_wf (s : State) (n w k : Nat) : Memory.wf (s.dropLine n w k false).mem = Memory.wf s.mem := by
  simp [State.dropLine, State.setTag, Memory.wf]

theorem State.dropLines_false_wf {s : State} (n : Nat) (f : Nat → LineTag → Bool) (h : Memory.wf s.mem = true) :
    Memory.wf (s.dropLines n false f).mem = true := by
  simp only [State.dropLines]
  refine Memory.wf_foldl _ (fun t x ht => ?_) _ _ h
  cases f x.1 x.2.2
  · exact ht
  · exact (State.dropLine_false_wf t n x.1 x.2.1).trans ht

theorem State.flushLines_false_wf {s : State} (f : Nat → Bool) (h : Memory.wf s.mem = true) : Memory.wf (s.flushLines false f).mem = true := by
  simp only [State.flushLines]
  exact Memory.wf_foldl _ (fun s n hs => State.dropLines_false_wf n _ hs) _ _ h

theorem State.setGranule_wf (s : State) (g v : Nat) : Memory.wf (s.setGranule g v).mem = Memory.wf s.mem := by
  simp [State.setGranule, Memory.wf]

theorem State.zeroCells_wf {s : State} (g : Nat) (h : Memory.wf s.mem = true) : Memory.wf (s.zeroCells g).mem = true :=
  Memory.wf_iff.mpr ⟨(Memory.wf_iff.mp h).1, NMap.wf_cut _ _ (Memory.wf_iff.mp h).2⟩

theorem State.zeroFill_wf {s : State} (a g : Nat) (h : Memory.wf s.mem = true) : Memory.wf (s.zeroFill a g).mem = true := by
  have k : Memory.wf ((s.flushLines false (inGranule g)).zeroCells g).mem = true := State.zeroCells_wf g (State.flushLines_false_wf _ h)
  simp only [State.zeroFill]
  generalize (s.flushLines false (inGranule g)).zeroCells g = t at k ⊢
  split
  · rw [State.setInt_mem, State.setGranule_wf]; exact k
  · rw [State.setGranule_wf]; exact k

theorem State.newNonce_wf {s : State} (h : Memory.wf s.mem = true) : Memory.wf s.newNonce.mem = true := by
  simp only [State.newNonce]
  rw [State.foldl_mem (fun s a => s.setFld (pg cSCR a) PgSCR.REKEY_PENDING 0) (by simp), State.foldl_mem (fun s p => s.setWord pKEY (0x100 + 8 * p) 0) (by simp)]
  exact Memory.wf_iff.mpr ⟨(Memory.wf_iff.mp h).1, rfl⟩

theorem State.dbgWrite_wf {s : State} (r : Requester) (v : Nat) (h : Memory.wf s.mem = true) : Memory.wf (s.dbgWrite r v).mem = true := by
  simp only [State.dbgWrite]
  split
  · rw [State.order_mem]; exact h
  · split
    · exact Memory.wf_iff.mpr ⟨NMap.wf_putRun _ _ _ (Memory.wf_iff.mp h).1, (Memory.wf_iff.mp h).2⟩
    · exact h

end Sys2Proof.Machine
end

