-- ==== Sys2Proof/WellFormed.lean ====
section
/-! DEFINITION. Which commands are well formed: every operand in the range the spec gives it. -/
namespace Sys2Proof

/-- A register page: its class and instance fit the address of a page (02_register_pages.md R42). -/
def okPage (cls inst : Nat) : Bool := decide (cls < 32) && decide (inst < 2048)

/-- An access of 4 or 8 bytes, aligned (R43, R47); others come as INVALID_ACCESS. -/
def okReg (addr size : Nat) : Bool := (decide (size = 4) || decide (size = 8)) && decide (addr % size = 0)

/-- Data fit the size of their write. -/
def okData (size data : Nat) : Bool := decide (data < 2 ^ (8 * size))

/-- A write of a register or of its lower or upper half: 4 or 8 bytes; only a half has an upper one. -/
def okHalf (size : Nat) (high : Bool) (data : Nat) : Bool :=
  ((decide (size = 4)) || (decide (size = 8) && !high)) && okData size data

/-- A requester outside the hub (R73); the hub's own accesses are no commands. -/
def okWho (r : Requester) : Bool := decide (r ≠ .hub)

/-- A task's queue is one of 4,096, its index free-running in 32 bits (06_task_graphs.md R160, R167). -/
def okTask (t : TaskId) : Bool := decide (t.queue < 4096) && decide (t.index < 2 ^ 32)

/-- A unit of the part (01_anatomy.md R14-R22). -/
def okUnit : UnitId → Bool
  | .hank n => decide (n < 400)
  | .spindle n j => decide (n < 400) && decide (j < 64)
  | .slice n => decide (n < 400)
  | .router n => decide (n < 448)
  | .hbmCh a c => decide (a < 8) && decide (c < 32)
  | .hbmAtt a => decide (a < 8)
  | .site s => decide (s < 4)
  | .siteCh s c => decide (s < 4) && decide (c < 64)
  | .lane a i => decide (a < 6) && decide (i < 17)
  | .strand a k => decide (a < 6) && decide (k < 4)
  | .eth e => decide (e < 2)
  | .optAtt a => decide (a < 6)
  | .host => true

/-- The number in an address. -/
def Addr.offset : Addr → Nat
  | .t0 a => a
  | .dpa a => a
  | .hpa a => a
  | .hva _ a => a

/-- An access lies within one 64-byte line, and its class and hint are of those the spec lists (07_skein_memory.md R197; 11_mesh_and_regulation.md R340). -/
def okAccess (a : Access) : Bool :=
  decide (0 < a.len) && decide (a.len ≤ 64) && decide (a.cls < 4) && decide (a.part < 16) &&
  decide (a.addr.offset % 64 + a.len ≤ 64)

/-- Poison marks at most the two sectors of a line (09_memory_integrity.md R278). -/
def okOp : AccOp → Bool
  | .read => true
  | .write d poison => decide (d.length ≤ 64) && decide (poison < 4)
  | .bits _ _ => true
  | .atomic op ty _ operand => decide (op < 16) && decide (ty < 16) && decide (operand.length ≤ 128)

/-- The fields of an ASP message fit their widths (13_chiplet_sites.md R397). -/
def okAsp (m : AspMsg) : Bool :=
  decide (m.op < 256) && decide (m.tc < 4) && decide (m.func < 8) && decide (m.tag < 65536) && decide (m.pasid < 2 ^ 20) && decide (m.ak < 4) &&
  decide (m.addr < 2 ^ 64) && decide (m.arg64 < 2 ^ 64) && decide (m.arg8 < 256) && decide (m.data.length ≤ 256)

/-- SEQ and ACK of a flit have 7 bits; a LINK slot carries seven credit returns (R395, R396). -/
def okAspFlit (f : AspFlit) : Bool :=
  decide (f.seq < 128) && decide (f.ack < 128) && f.msgs.all okAsp && (match f.link with | some l => decide (l.length = 7) | none => true)

/-- The fields of a fabric packet fit their widths (14_fabric_links.md R431). -/
def okPkt (p : FabPkt) : Bool :=
  decide (p.ty < 256) && decide (p.dst < 65536) && decide (p.src < 65536) && decide (p.dpart < 256) && decide (p.spart < 256) && decide (p.job < 65536) &&
  decide (p.offset < 2 ^ 48) && decide (p.arg16 < 65536) && decide (p.arg32 < 2 ^ 32) && decide (p.data.length ≤ 4096)

/-- The fields of a strand frame fit their widths (R426). -/
def okFrame (f : FabFrame) : Bool :=
  decide (f.kind < 4) && decide (f.job < 65536) && decide (f.seq < 4096) && decide (f.ack < 4096) && f.pkts.all okPkt

/-- A flit is at a router and bound for one, on one of three planes (11_mesh_and_regulation.md R332-R334). -/
def okFlit (f : Flit) : Bool := decide (f.here < 448) && decide (f.dest < 448) && decide (f.plane < 3) && decide (f.tol < 491)

/-- A transaction names one of the 491 tollgates (R339). -/
def okTol (t : TolReq) : Bool := decide (t.tol < 491) && decide (t.part < 16) && decide (t.kind < 3) && (match t.siteCls with | some c => decide (c < 4) | none => true)

/-- The fields of a send-ring entry fit their widths (17_network_ports.md R526). -/
def okWqe (w : Wqe) : Bool :=
  decide (w.imm < 2 ^ 32) && decide (w.addr < 2 ^ 64) && decide (w.length < 2 ^ 32) && decide (w.rkey < 2 ^ 32) && decide (w.remoteVa < 2 ^ 64) &&
  decide (w.compareAdd < 2 ^ 64) && decide (w.swap < 2 ^ 64) && decide (w.wrId < 2 ^ 64)

/-- The fields of an inbound RDMA packet fit their widths (R527). -/
def okRdma (r : RdmaReq) : Bool :=
  decide (r.psn < 2 ^ 24) && decide (r.rkey < 2 ^ 32) && decide (r.va < 2 ^ 64) && (match r.entry with | some w => okWqe w | none => true)

/-- A policy gives a minimum SVN for MR 2 to 7 (19_trust_and_tenancy.md R565). -/
def okPolicy (p : OwnerPolicy) : Bool := decide (p.minSvn.length = 6)
def okOwner (o : OwnerRec) : Bool := decide (o.anchor < 2 ^ 384) && okPolicy o.policy

/-- The entries of a job-key blob name the 24 ports' key slots (R567). -/
def okBlob (b : KeyBlob) : Bool := decide (b.job < 65536) && b.entries.all (fun e => decide (e.port < 256) && decide (e.slot < 256))

/-- Lengths, versions and SVNs of an image fit 32 bits (R553). -/
def okImage (i : FwImage) : Bool := decide (i.version < 2 ^ 32) && decide (i.svn < 2 ^ 32) && decide (i.length < 2 ^ 32)

/-- The link trains at speeds of 2.5 to 64 GT/s, numbered from 1, at x16, x8, x4 or x1 (16_host_endpoint.md R490). -/
def okLink (speed width : Nat) : Bool := decide (1 ≤ speed) && decide (speed ≤ 6) && [1, 4, 8, 16].contains width

/-- A hank reads for a bobbin or its pixel chain, one of two vectors by row or column, or a table of its own (04_spindle_array.md R102). -/
def okFill : Fill → Bool
  | .slice b => decide (b < 21)
  | .init => true
  | .resid => true
  | .vec v shape => decide (v < 2) && (decide (shape = 1) || decide (shape = 2))
  | .act => true

/-- Lanes of a pseudo-channel and beats of its burst (09_memory_integrity.md R271). -/
def okHits (hs : List LaneHit) : Bool := hs.all (fun h => decide (h.lane < 40) && decide (h.beats < 256))
def okScrub (e : ScrubErr) : Bool := okHits e.first && okHits e.again && okHits e.replica

/-- The operands of a command lie in the ranges the spec gives them. An operand the spec bounds nowhere is free. -/
def Instr.wf : Instr → Bool
  | .pwrGoodAssert => true
  | .pwrGoodDeassert => true
  | .vddAonLoss => true
  | .vddIo18Loss => true
  | .refclkLoss _ => true
  | .perstAssert => true
  | .perstDeassert => true
  | .stageLaunch stage => decide (stage < 16)
  | .rotBootDone _ => true
  | .otpReadDone _ => true
  | .dieWipeDone _ _ _ => true
  | .siteTrainingDone x _ => decide (x < 4)
  | .hbmTrainingDone a _ _ => decide (a < 8)
  | .opticalTrainingDone a _ _ _ _ => decide (a < 6)
  | .opticalStageDeadline => true
  | .timeStageDeadline => true
  | .hankChunkReceive n chunk _ => decide (n < 400) && decide (chunk < 64)
  | .deliveryRepairRound n got => decide (n < 400) && decide (got < 2 ^ 64)
  | .hankSelfTestDone n _ _ => decide (n < 400)
  | .warmReset r => okWho r
  | .warmDrainDone _ => true
  | .warmRotDone _ => true
  | .hbmRestoreDone a _ => decide (a < 8)
  | .timeRelockDone _ => true
  | .drainLimitExpire part => (match part with | some k => decide (k < 16) | none => true)
  | .partitionReset r p => okWho r && decide (p < 16)
  | .partitionResetDone p => decide (p < 16)
  | .coreRateWindow _ _ _ _ => true
  | .dmmTapAdd cls inst _ => okPage cls inst
  | .dmmTapRemove cls inst _ _ => okPage cls inst
  | .dmmFault cls inst _ => okPage cls inst
  | .dmmResume cls inst _ => okPage cls inst
  | .dmmTransient cls inst => okPage cls inst
  | .dmmCfgWrite r size high data => okHalf size high data && okWho r
  | .registerWrite r addr size data => okReg addr size && okData size data && okWho r
  | .invalidAccess r _ _ _ => okWho r
  | .invisiblePageAccess r _ _ => okWho r
  | .rcFieldRead r addr size => okReg addr size && okWho r
  | .fenceSet r cls inst => okPage cls inst && okWho r
  | .fenceClear r cls inst => okPage cls inst && okWho r
  | .quiesceReqSet r cls inst => okPage cls inst && okWho r
  | .quiesceReqClear r cls inst => okPage cls inst && okWho r
  | .enableSet r cls inst => okPage cls inst && okWho r
  | .enableClear r cls inst => okPage cls inst && okWho r
  | .quiesceComplete cls inst => okPage cls inst
  | .commitRequest r cls inst => okPage cls inst && okWho r
  | .commitApply cls inst => okPage cls inst
  | .wayMapCommit n => decide (n < 400)
  | .blockRst r cls inst => okPage cls inst && okWho r
  | .blockRstComplete cls inst _ => okPage cls inst
  | .intTestWrite r cls inst size high data => okPage cls inst && okHalf size high data && okWho r
  | .ownerWrite r cls inst _ => okPage cls inst && okWho r
  | .paritySweep cls inst _ => okPage cls inst
  | .floorPlanChange u _ _ => okUnit u
  | .tileTake n _ => decide (n < 400)
  | .hankStep n _ _ => decide (n < 400)
  | .checkReplayDone n _ => decide (n < 400)
  | .checkKnownAnswerDone n _ => decide (n < 400)
  | .operandFill n f _ => decide (n < 400) && okFill f
  | .drainDone n => decide (n < 400)
  | .topkMerge n => decide (n < 400)
  | .distaffArrival t => okTask t
  | .distaffWindowExpire _ => true
  | .spFenceWrite r n size high data => okHalf size high data && okWho r && decide (n < 400)
  | .spindleFenceApply n => decide (n < 400)
  | .spindleReturn n => decide (n < 400)
  | .hankWatchdogExpire n => decide (n < 400)
  | .hankSignatureTest n _ => decide (n < 400)
  | .shadowPowerWindow site _ => decide (site < 4)
  | .queueCreate r p q => okWho r && decide (p < 16) && decide (q < 4096)
  | .queueDestroy r p q => okWho r && decide (p < 16) && decide (q < 4096)
  | .queueDestroyComplete q => decide (q < 4096)
  | .queueStop r p q => okWho r && decide (p < 16) && decide (q < 4096)
  | .queueStart r p q => okWho r && decide (p < 16) && decide (q < 4096)
  | .queueQuery r p q => okWho r && decide (p < 16) && decide (q < 4096)
  | .dbTail q tail => decide (q < 4096) && decide (tail < 2 ^ 32)
  | .dbEvent q e => decide (q < 4096) && decide (e < 16384)
  | .taskFetch q _ => decide (q < 4096)
  | .spinDispatch _ => true
  | .moveDispatch => true
  | .siteTaskDispatch => true
  | .xferDispatch => true
  | .collDispatch _ _ => true
  | .waitDispatch => true
  | .signalDispatch => true
  | .itinStart _ => true
  | .itinAdvance => true
  | .itinStop => true
  | .keyAdvance => true
  | .keySwitchDone p => decide (p < 16)
  | .taskDone t status => okTask t && decide (status < 256)
  | .referenceDelivery t _ => okTask t
  | .succBlockRead t _ => okTask t
  | .taskAging t => okTask t
  | .eventRead r p e _ => okWho r && decide (p < 16) && decide (e < 16384)
  | .eventSet r p e => okWho r && decide (p < 16) && decide (e < 16384)
  | .eventForward r p e => okWho r && decide (p < 16) && decide (e < 16384)
  | .fenceComplete t _ => okTask t
  | .homeAccess a op _ => okAccess a && okOp op
  | .skeinMissFill _ => true
  | .atomicAdd a _ _ _ _ => okAccess a
  | .atomicFadd a _ _ _ _ => okAccess a
  | .atomicMin a _ _ _ _ => okAccess a
  | .atomicMax a _ _ _ _ => okAccess a
  | .atomicSwap a _ _ _ _ => okAccess a
  | .atomicCas a _ _ _ _ => okAccess a
  | .atomicXadd a _ _ _ _ => okAccess a
  | .sectorRead a _ => okAccess a
  | .sectorWrite a _ poison _ => okAccess a && decide (poison < 4)
  | .gatherEnable r n slot _ => okWho r && decide (n < 400) && decide (slot < 4)
  | .gatherDescLoaded n slot => decide (n < 400) && decide (slot < 4)
  | .gatherWindowRead a => okAccess a
  | .gatherRowReturn n slot => decide (n < 400) && decide (slot < 4)
  | .wipeDone n => decide (n < 400)
  | .sliceBankTestDone n _ => decide (n < 400)
  | .hbmRequestAdmit _ => true
  | .shareSlotFreed ch => decide (ch < 256)
  | .hbmCommandSlot ch pc _ _ => decide (ch < 256) && decide (pc < 2)
  | .hbmReadReturn _ e0 e1 => okHits e0 && okHits e1
  | .hbmRereadResult _ e0 e1 => okHits e0 && okHits e1
  | .replicaRepair _ e0 e1 => okHits e0 && okHits e1
  | .hbmCalibration ch _ => decide (ch < 256)
  | .hchRetrain r ch => okWho r && decide (ch < 256)
  | .hchRetrainDone ch _ => decide (ch < 256)
  | .hbmRefresh ch _ => decide (ch < 256)
  | .hbmTempRead a _ => decide (a < 8)
  | .alloc r p _ _ _ => okWho r && decide (p < 16)
  | .free r p _ _ _ => okWho r && decide (p < 16)
  | .setGroup r p _ _ _ => okWho r && decide (p < 16)
  | .share r p _ _ _ => okWho r && decide (p < 16)
  | .unshare r p _ _ _ => okWho r && decide (p < 16)
  | .setReplica r p _ _ _ => okWho r && decide (p < 16)
  | .replicaCopyDone p => decide (p < 16)
  | .clearReplica r p _ _ _ => okWho r && decide (p < 16)
  | .attachPool r p _ _ _ => okWho r && decide (p < 16)
  | .detachPool r p _ _ _ => okWho r && decide (p < 16)
  | .granuleQuery r p _ _ _ => okWho r && decide (p < 16)
  | .freeAll r p _ _ _ => okWho r && decide (p < 16)
  | .tierEpoch p range => decide (p < 16) && decide (range < 8)
  | .migrationDone p range _ _ _ => decide (p < 16) && decide (range < 8)
  | .migrationFail p range _ => decide (p < 16) && decide (range < 8)
  | .stageRead slot _ status => decide (slot < 64) && decide (status < 256)
  | .stageIssue slot => decide (slot < 64)
  | .stageDone slot _ status => decide (slot < 64) && decide (status < 256)
  | .scrubVisit a e0 e1 => decide (a < 8) && okScrub e0 && okScrub e1
  | .zeroFillGranule a => decide (a < 8)
  | .ctxBind r slot => okWho r && decide (slot < 4096)
  | .ctxUnbind r slot => okWho r && decide (slot < 4096)
  | .unbindDrained slot => decide (slot < 4096)
  | .ctxQuery r slot => okWho r && decide (slot < 4096)
  | .ctxFind r slot => okWho r && decide (slot < 4096)
  | .translate client _ task part pasid va _ _ parity => decide (client < 87) && (match task with | some t => okTask t | none => true) && decide (part < 16) && decide (pasid < 1048576) && decide (va < 2 ^ 57) && decide (parity < 3)
  | .atsCompletion slot vpn2 _ _ _ _ _ => decide (slot < 4096) && decide (vpn2 < 2 ^ 36)
  | .deviceWalkDone slot vpn2 _ => decide (slot < 4096) && decide (vpn2 < 2 ^ 36)
  | .prgResponse prg _ => decide (prg < 512)
  | .priTimeout _ => true
  | .fqRetry r _ => okWho r
  | .fqFail r _ => okWho r
  | .atsInvalidate tag pasid vpn2 _ => decide (tag < 65536) && (match pasid with | some k => decide (k < 2 ^ 20) | none => true) && decide (vpn2 < 2 ^ 36)
  | .invalidationComplete _ => true
  | .invRange r slot => okWho r && decide (slot < 4096)
  | .invContext r slot => okWho r && decide (slot < 4096)
  | .atsEnableClear => true
  | .priEnableCycle => true
  | .l1Flush r client => okWho r && decide (client < 87)
  | .flitHop f _ _ => okFlit f
  | .tollgatePass t => okTol t
  | .tokenRefill => true
  | .urgencyChange tol percent => decide (tol < 491) && decide (percent < 101)
  | .latencyWindow tol => decide (tol < 491)
  | .transactionResponse tol _ _ => decide (tol < 491)
  | .initiatorTimeout tol _ => decide (tol < 491)
  | .snoopTimeout _ agent => decide (agent < 6)
  | .cxlMemrd _ _ _ _ => true
  | .cxlMemwr _ _ _ _ _ => true
  | .cxlBisnpResponse _ _ _ => true
  | .biconflict _ => true
  | .h2dSnpdata _ => true
  | .h2dSnpinv _ => true
  | .h2dSnpcur _ => true
  | .cxlH2dResponse _ _ _ _ => true
  | .siteStatusChange x status => decide (x < 4) && decide (status < 16)
  | .sidebandSilence x => decide (x < 4)
  | .siteReadyTimeout x => decide (x < 4)
  | .laneMapDigest x digest _ => decide (x < 4) && decide (digest < 2 ^ 32)
  | .channelRetrain r x mask => okWho r && decide (x < 4) && decide (mask < 2 ^ 64)
  | .channelRetrainDone x c _ _ => decide (x < 4) && decide (c < 64)
  | .aspFlitReceive x c f _ => decide (x < 4) && decide (c < 64) && okAspFlit f
  | .aspReplayTimeout x c => decide (x < 4) && decide (c < 64)
  | .aspRdshared x c m => decide (x < 4) && decide (c < 64) && okAsp m
  | .aspRdown x c m => decide (x < 4) && decide (c < 64) && okAsp m
  | .aspUpgrade x c m => decide (x < 4) && decide (c < 64) && okAsp m
  | .aspRdcur x c m => decide (x < 4) && decide (c < 64) && okAsp m
  | .aspWr x c m => decide (x < 4) && decide (c < 64) && okAsp m
  | .aspWrpart x c m => decide (x < 4) && decide (c < 64) && okAsp m
  | .aspSecrd x c m => decide (x < 4) && decide (c < 64) && okAsp m
  | .aspSecwr x c m => decide (x < 4) && decide (c < 64) && okAsp m
  | .aspAtomic x c m => decide (x < 4) && decide (c < 64) && okAsp m
  | .aspXlatereq x c m => decide (x < 4) && decide (c < 64) && okAsp m
  | .aspDoorbell x c m => decide (x < 4) && decide (c < 64) && okAsp m
  | .aspEvent x c m => decide (x < 4) && decide (c < 64) && okAsp m
  | .aspTaskdone x c m => decide (x < 4) && decide (c < 64) && okAsp m
  | .aspIntr x c m => decide (x < 4) && decide (c < 64) && okAsp m
  | .aspCleanevict x c m => decide (x < 4) && decide (c < 64) && okAsp m
  | .aspWrback x c m => decide (x < 4) && decide (c < 64) && okAsp m
  | .aspRspi x c m => decide (x < 4) && decide (c < 64) && okAsp m
  | .aspRsps x c m => decide (x < 4) && decide (c < 64) && okAsp m
  | .aspRspfwds x c m => decide (x < 4) && decide (c < 64) && okAsp m
  | .aspRspfwdi x c m => decide (x < 4) && decide (c < 64) && okAsp m
  | .aspRspfwdcur x c m => decide (x < 4) && decide (c < 64) && okAsp m
  | .aspRspwbissued x c m => decide (x < 4) && decide (c < 64) && okAsp m
  | .aspRspidata x c m => decide (x < 4) && decide (c < 64) && okAsp m
  | .aspCmpack x c m => decide (x < 4) && decide (c < 64) && okAsp m
  | .aspFwd x c m => decide (x < 4) && decide (c < 64) && okAsp m
  | .aspHintaccept x c m => decide (x < 4) && decide (c < 64) && okAsp m
  | .aspHintdecline x c m => decide (x < 4) && decide (c < 64) && okAsp m
  | .aspXlateinvdone x c m => decide (x < 4) && decide (c < 64) && okAsp m
  | .aspCfgcpl x c m => decide (x < 4) && decide (c < 64) && okAsp m
  | .xlateinvTimeout x tag => decide (x < 4) && decide (tag < 65536)
  | .siteTaskTimeout x handle => decide (x < 4) && decide (handle < 65536)
  | .siteCfgRead r x func index => okWho r && decide (x < 4) && decide (func < 8) && decide (index < 512)
  | .siteCfgWrite r x func index => okWho r && decide (x < 4) && decide (func < 8) && decide (index < 512)
  | .cfgAnswerTimeout x => decide (x < 4)
  | .siteTestStart r x => okWho r && decide (x < 4)
  | .siteTestDone x _ => decide (x < 4)
  | .fabricFrameReceive g f _ => decide (g < 24) && okFrame f
  | .frameAckTimeout g => decide (g < 24)
  | .put a p => decide (a < 6) && okPkt p
  | .dack a p => decide (a < 6) && okPkt p
  | .eventPacket a p => decide (a < 6) && okPkt p
  | .sched a p => decide (a < 6) && okPkt p
  | .collPacket a p => decide (a < 6) && okPkt p
  | .mgmtPacket a p => decide (a < 6) && okPkt p
  | .e2eTimeout _ => true
  | .strandRetrainDone g _ _ => decide (g < 24)
  | .laneCeWindow a lane _ _ => decide (a < 6) && decide (lane < 17)
  | .noPeerRetry g _ => decide (g < 24)
  | .fabTestStart r a => okWho r && decide (a < 6)
  | .fabTestDone a failLanes => decide (a < 6) && decide (failLanes < 131072)
  | .fabModeWrite r a _ => okWho r && decide (a < 6)
  | .jobBind r p _ tag => okWho r && decide (p < 16) && decide (tag < 65536)
  | .timeSyncCmd r => okWho r
  | .timeStop r => okWho r
  | .timePing port _ => decide (port < 12)
  | .timePong port _ _ => decide (port < 12)
  | .timeSync port _ _ _ _ _ => decide (port < 12)
  | .timeReady port _ _ _ => decide (port < 12)
  | .timeGo port _ _ _ => decide (port < 12)
  | .timeHold port _ => decide (port < 12)
  | .timeAdopt port => decide (port < 12)
  | .timeStart port _ => decide (port < 12)
  | .syncPeriod => true
  | .parentFail => true
  | .epochReached => true
  | .rootDecision => true
  | .milestoneBoundary => true
  | .spanEnd p _ => decide (p < 16)
  | .stretchLimit => true
  | .recvLost p _ => decide (p < 16)
  | .schedLoad r p => okWho r && decide (p < 16)
  | .schedLoadDone p _ => decide (p < 16)
  | .schedClear r p => okWho r && decide (p < 16)
  | .plySet r ply _ => okWho r && decide (ply < 1024)
  | .plyClear r ply => okWho r && decide (ply < 1024)
  | .plyQuery r ply => okWho r && decide (ply < 1024)
  | .collStepTimeout t => okTask t
  | .imgSend r image _ => okWho r && decide (image < 65536)
  | .imgArm r image => okWho r && decide (image < 65536)
  | .imgAbort r image => okWho r && decide (image < 65536)
  | .imageData port image _ _ _ => decide (port < 12) && decide (image < 65536)
  | .imageReq port image _ => decide (port < 12) && decide (image < 65536)
  | .imageNotHeld port image _ => decide (port < 12) && decide (image < 65536)
  | .imageEnd port image _ => decide (port < 12) && decide (image < 65536)
  | .imageRepairRound => true
  | .configRequest off _ => decide (off < 4096)
  | .bar4Read _ _ _ _ => true
  | .bar4Write _ _ _ _ _ => true
  | .hostAtomicop _ _ _ _ _ => true
  | .hostReadCompletion _ _ _ _ => true
  | .msixUnmask v => decide (v < 2048)
  | .bmeClear => true
  | .bmeSet => true
  | .bmeHoldTimeout _ => true
  | .dstateChange _ => true
  | .pmeTurnOff => true
  | .pmeToAck => true
  | .l1Entry _ => true
  | .linkRecovery speed width _ => okLink speed width
  | .linkDown _ => true
  | .linkUp speed width flit cxl => (flit || (decide (speed < 6) && !cxl)) && okLink speed width
  | .graceExpire => true
  | .keyProg stream set => decide (stream < 256) && decide (set < 2)
  | .kSetGo stream set => decide (stream < 256) && decide (set < 2)
  | .kSetStop stream set => decide (stream < 256) && decide (set < 2)
  | .ideQuery stream => decide (stream < 256)
  | .ethFrameReceive e kind prio _ => decide (e < 2) && decide (kind < 4) && decide (prio < 256)
  | .rdmaWriteIn q r => decide (q < 16384) && okRdma r
  | .rdmaReadIn q r => decide (q < 16384) && okRdma r
  | .rdmaSendIn q r => decide (q < 16384) && okRdma r
  | .rdmaAtomicIn q r => decide (q < 16384) && okRdma r
  | .rdmaAckIn q psn _ => decide (q < 16384) && decide (psn < 2 ^ 24)
  | .rdmaAckTimeout q => decide (q < 16384)
  | .rnrTimer q => decide (q < 16384)
  | .cnpReceive q => decide (q < 16384)
  | .rateRecovery q => decide (q < 16384)
  | .qpCreate r part q _ => okWho r && decide (part < 16) && decide (q < 16384)
  | .qpDestroy r part q => okWho r && decide (part < 16) && decide (q < 16384)
  | .qpQuery r part q => okWho r && decide (part < 16) && decide (q < 16384)
  | .mrRegister r mr key => okWho r && decide (mr < 16384) && decide (key < 256)
  | .mrInvalidate r mr key => okWho r && decide (mr < 16384) && decide (key < 256)
  | .ethDbSq r q index => okWho r && decide (q < 16384) && decide (index < 2 ^ 32)
  | .ethDbRq r q index => okWho r && decide (q < 16384) && decide (index < 2 ^ 32)
  | .ethDbCq r q index => okWho r && decide (q < 16384) && decide (index < 2 ^ 32)
  | .wqeWrite q w _ => decide (q < 16384) && okWqe w
  | .wqeWriteImm q w _ => decide (q < 16384) && okWqe w
  | .wqeSend q w _ => decide (q < 16384) && okWqe w
  | .wqeSendImm q w _ => decide (q < 16384) && okWqe w
  | .wqeRead q w _ => decide (q < 16384) && okWqe w
  | .wqeFetchAdd q w _ => decide (q < 16384) && okWqe w
  | .wqeCmpSwap q w _ => decide (q < 16384) && okWqe w
  | .cqeWrite q _ _ => decide (q < 16384)
  | .ethLinkChange e _ => decide (e < 2)
  | .ethLaneLockLoss e lane => decide (e < 2) && decide (lane < 8)
  | .lcsTargetWrite r target => okWho r && decide (target < 16)
  | .lcTransitionResetDone => true
  | .lcIntentProgrammed _ => true
  | .lcEraseDone _ => true
  | .lcStateProgrammed _ => true
  | .lcDoneProgrammed _ => true
  | .lcRestartDone _ => true
  | .debugReadySet => true
  | .idcode => true
  | .samplePreload _ => true
  | .extest _ => true
  | .lcsAccessRead => true
  | .lcsAccessWrite target => decide (target < 16)
  | .dbgAccess _ _ _ => true
  | .tstAccess _ _ _ => true
  | .scan _ => true
  | .wir1500 _ => true
  | .site1838 site _ => decide (site < 4)
  | .bypass code bit => decide (code < 256) && decide (bit < 2)
  | .dbgHalt r cls inst => okPage cls inst && okWho r
  | .dbgHalted => true
  | .dbgResume r => okWho r
  | .dbgDataRead r => okWho r
  | .dbgDataWrite r _ => okWho r
  | .dbgStep r => okWho r
  | .getVersion _ => true
  | .getCapabilities _ => true
  | .negotiateAlgorithms _ => true
  | .getDigests _ => true
  | .getCertificate _ slot _ => decide (slot < 16)
  | .challenge _ _ => true
  | .getMeasurements _ _ _ _ => true
  | .keyExchange _ _ => true
  | .finish _ _ _ _ => true
  | .endSession _ _ => true
  | .heartbeat _ _ => true
  | .keyUpdate _ _ => true
  | .chunkSend _ _ _ => true
  | .chunkGet _ _ => true
  | .pqSign _ _ => true
  | .sessionTimeout _ => true
  | .regRead _ addr size => okReg addr size
  | .regWrite _ addr size data => okReg addr size && okData size data
  | .setOwner _ o => okOwner o
  | .replaceOwner _ o _ => okOwner o
  | .setPolicy _ p _ => okPolicy p
  | .loadJobKeys _ b => okBlob b
  | .clearJobKeys _ _ => true
  | .fwStage _ _ img => okImage img
  | .fwCancel _ _ => true
  | .mboxKeyLoad r _ b => okWho r && okBlob b
  | .mboxKeyClear r _ _ => okWho r
  | .mboxFwStage r _ _ img _ => okWho r && okImage img
  | .mboxFwCancel r _ _ => okWho r
  | .powerRequest r cls inst _ => okPage cls inst && okWho r
  | .powerQuiesceDone d => decide (d < 824)
  | .powerDrainDone d => decide (d < 824)
  | .powerSaveDone d => decide (d < 824)
  | .powerIsolateDone d => decide (d < 824)
  | .powerSwitchDone d => decide (d < 824)
  | .powerDemand d => decide (d < 824)
  | .powerExitDone d _ => decide (d < 824)
  | .coreSleepRequest r _ => okWho r
  | .mgmtSleepRequest r _ => okWho r
  | .i3cAddressMatch addr => decide (addr < 128)
  | .wakeLvlCrossing _ _ _ => true
  | .wakeTimerExpire => true
  | .lockstepMismatch _ => true
  | .thermalSample sensor _ => decide (sensor < 32)
  | .voltageExcursion _ _ => true
  | .faultRelease r => okWho r
  | .evqPop r => okWho r
  | .ringEnable r ring size high data => okHalf size high data && okWho r && decide (ring < 17)
  | .latentTest _ _ _ => true
  | .tstStartHank r n => okWho r && decide (n < 400)
  | .tstStartSlice r n => okWho r && decide (n < 400)
  | .tstStartLatent r _ => okWho r
  | .tstAbort r => okWho r
  | .lostLockOnLane a lane => decide (a < 6) && decide (lane < 16)
  | .noPeerLock g => decide (g < 24)
  | .appliedPairExpire _ _ => true

end Sys2Proof
end

