-- ==== Sys2Proof/Tests/Slice0.lean ====
section
/-! SUPPORT. Small tests: ill-formed commands are refused by `Instr.wf`; single commands on small states, with results read from the spec; and
for every statement with hypotheses, states and operands that meet them, clause by clause. -/
namespace Sys2Proof.Tests
set_option Elab.async false
open Sys2Proof Sys2Proof.Machine

/-! ### States -/

/-- The state after reset with one page in a given state, ENABLE set. -/
def at_ (s : State) (c i st : Nat) : State := (s.setFld (pg c i) PgHDR.PAGE_STATE_STATE st).setFld (pg c i) PgHDR.PAGE_CTRL_ENABLE 1
def idle (c i : Nat) : State := at_ State.reset c i stIDLE
/-- The state after reset with one field written. -/
def with_ (p : Nat) (f : Fld) (v : Nat) : State := State.reset.setFld p f v
/-- The host link is up and Configuration space answers. -/
def linked : State :=
  { (with_ pHEP PgHEP.LINK_STATUS_DL_UP 1) with host := { State.reset.host with drsSent := true, mse := true, bme := true }
                                                boot := { State.reset.boot with pwrGood := true, perst := false } }
/-- Power is good and the hub ready. -/
def ready : State := { State.reset with boot := { State.reset.boot with pwrGood := true, perst := false, wasReady := true } }
def accOf (a : Addr) (len part : Nat) : Access := ⟨9, 7, part, none, a, len, 0, 0, false, none, false⟩
def acc0 (x len : Nat) : Access := accOf (.t0 x) len 1
/-- Bytes of a descriptor of `n` bytes: the listed ones, zeros elsewhere, and the check of R169 last. -/
def descOf (n : Nat) (xs : List (Nat × Byte)) : List Byte :=
  let b := (List.range (n - 4)).map (fun i => NMap.getD xs 0 i)
  b ++ (List.range 4).map (fun k => BitVec.ofNat 8 (crc32 b / 256 ^ k))
def tk (ty : Nat) (body : List Byte) : TaskSt :=
  { id := ⟨0, 0⟩, part := 1, pasid := 7, ty := ty, prio := 0, ignoreErr := false, pred := 0, refs := [], block := 0, tag := 5, body := body, phase := .ready }
def readyT (t : TaskSt) : State := { State.reset with dsp := { State.reset.dsp with tasks := [t], ready := [t.id] } }
/-- The state a command leaves. -/
def after (c : Instr) (s : State) : State := match exec c s with | .next t => t | _ => s
def heldReq : HostReq := ⟨4, .read, some ⟨0, 0⟩, 0, 64, false, false, [], none, 0⟩
def act : QueueSt := { st := .active, part := 1, pasid := 7, base := 0x1000, log2 := 4, span := 8, head := 2, tail := 3 }
def pktOf (ty : Nat) (ack : Bool) : FabPkt := ⟨ty, false, false, ack, true, 0, 1, 7, 2, 9, 0, 4, 64, 0, 0, 0, []⟩

/-! ### Hypotheses that can be met -/

def m1 : State := with_ (pg cHNK 0) PgHDR.PAGE_STATE_STATE stIDLE
def dmmAt (d : DmmSt) : State := { State.reset with dmm := [(pg cHNK 3, d)] }
theorem witness_RateAndMargins :
    regionPage cHNK 3 = some (pg cHNK 3) ∧ State.reset.pageAbsent (pg cHNK 3) = false ∧ State.reset.pageOn (pg cHNK 3) = true ∧
    0 < State.reset.dmmAct ∧ State.reset.dmmRetreat ≠ 0 ∧ State.reset.dmmWarn < 255 ∧
    (NMap.getD (dmmAt { taps := 3 }).dmm {} (pg cHNK 3)).stopped = false ∧ (NMap.getD (dmmAt { taps := 4 }).dmm {} (pg cHNK 3)).watch = false ∧
    (NMap.getD (dmmAt { taps := 4, stopped := true }).dmm {} (pg cHNK 3)).dead = false ∧ State.reset.dmmAct ≤ 255 ∧
    (NMap.getD (dmmAt { watch := true }).dmm {} (pg cHNK 3)).watch = true ∧
    (idle cGLB 0).opens .mgmt cGLB 0 = true ∧ natBits 3 7 0 < 4 ∧ ¬ (natBits 0x1008 7 0 < 4 ∨ natBits 0x1008 15 8 ≤ natBits 0x1008 7 0 ∨ 64 < natBits 0x1008 15 8) ∧
    State.reset.pageAbsent (pg cSIT 3) = false ∧ State.reset.pageOn (pg cSIT 3) = true ∧ State.reset.fld (pg cSIT 3) PgSIT.THERM_CAP_DW < 595 := by
  decide +kernel
theorem witness_InvalidAccesses :
    goodAccess 2 8 = false ∧ hostArea 2 = false ∧ State.reset.reaches .rot cGLB 0 = true ∧ linked.reaches .host cGLB 0 = true ∧ linked.dlUp = true ∧
    goodAccess (2 ^ 28 - 1) 4 = false := by decide +kernel
theorem witness_HiddenAndShutPages :
    hostArea (cROT * 0x800000) = false ∧ State.reset.pageAbsent (pg cROT 0) = false ∧ sees .mgmt (State.reset.accessClass (pg cKEY 0)) = false ∧
    State.reset.pageAbsent (pg cSIT 4) = true ∧ sees .mgmt (State.reset.accessClass (pg cGLB 0)) = true ∧
    State.reset.reaches .mgmt cTOL 0 = true ∧ State.reset.cmdStart .mgmt cTOL 0 0x100 1 1 true true = none ∧ wakeIsland (pg cTOL 0) 0x100 = false ∧
    State.reset.pageState (pg cTOL 0) = stRESET ∧ (at_ State.reset cTOL 0 stOFF).pageState (pg cTOL 0) = stOFF ∧
    (at_ State.reset cSIT 0 stBUSY).pageState (pg cSIT 0) = stBUSY ∧ (at_ State.reset cSIT 0 stBUSY).compDown (pg cSIT 0) = false ∧
    (at_ State.reset cSIT 0 stBUSY).reaches .mgmt cSIT 0 = true ∧ (at_ State.reset cSIT 0 stBUSY).cmdStart .mgmt cSIT 0 0x100 1 1 true true = none ∧
    State.reset.quietReg (pg cSIT 0) 0x100 = false ∧ notThere (pg cSIT 0) 0x100 = false ∧
    (fieldsAt (pg cSIT 0) 0x100).any (fun f => decide (f.cls = .quiesce) && decide (f.acc = .rw)) = true ∧
    spans (pg cSIT 3) 0x138 = true ∧ 0x138 < 0x100 + 8 * blkLen (pg cSIT 3) ∧ State.reset.reaches .mgmt cSIT 3 = true ∧
    State.reset.cmdStart .mgmt cSIT 3 0x138 1 1 true true = none := by decide +kernel
theorem witness_ReservedOffsets : (0x70 ≤ 0x70 ∧ 0x70 ≤ 0xF8) ∧ State.reset.reaches .mgmt cGLB 0 = true ∧ hostArea (cGLB * 0x800000 + 0x70) = false ∧
    0x100 + 8 * blkLen (pg cGLB 0) ≤ 0xFF8 ∧ hostArea (cGLB * 0x800000 + 0xFF8) = false := by decide +kernel
/-- The conditions of RegisterReadsAndWrites on a 64-bit write of a block register by management, on the page of instance 0, IDLE. -/
def writeMeets (c off data : Nat) : Bool :=
  let s := idle c 0
  let p := pg c 0
  let a := s.arrived .mgmt
  let v := data % 2 ^ 64
  let w := clearOnes p off v (a.mergeReg p off v)
  s.opens .mgmt c 0 && !hostArea (c * 0x800000 + off) && !notThere p off && (s.cmdStart .mgmt c 0 off v (s.mergeReg p off v) true true).isNone &&
    (fieldsAt p off).any (fun f => decide (f.acc = .rw)) && (!(fieldsAt p off).any (fun f => decide (f.cls = .quiesce)) || a.quietReg p off) &&
    (!(fieldsAt p off).any (fun f => decide (f.cls = .staged)) || !a.flag p PgHDR.PAGE_STATE_COMMIT_BUSY) &&
    !a.regBad p off ((fieldsAt p off).foldl (fun w f => if f.acc = .wo then natSetBits w f.hi f.lo (natBits v f.hi f.lo) else w) w) &&
    (a.regOp .mgmt p off v w v true).isNone
theorem witness_RegisterReadsAndWrites :
    State.reset.reaches .rot 30 0 = true ∧ State.reset.reaches .mgmt cHNK 399 = true ∧ hostArea (cHNK * 0x800000 + 399 * 0x1000) = false ∧
    (idle cGLB 0).opens .mgmt cGLB 0 = true ∧ (at_ linked cGLB 0 stIDLE).opens .host cGLB 0 = true ∧ (at_ linked cGLB 0 stIDLE).dlUp = true ∧
    (at_ linked cGLB 0 stIDLE).postedBefore (at_ linked cGLB 0 stIDLE).nextJoin = false ∧ writeMeets cHBM 0x108 5 = true ∧
    (writeMeets cSKN 0x100 5 = true ∧ (fieldsAt (pg cSKN 0) 0x100).any (fun f => decide (f.cls = .staged)) = true) ∧
    (writeMeets cSIT 0x100 5 = true ∧ (fieldsAt (pg cSIT 0) 0x100).any (fun f => decide (f.cls = .quiesce)) = true) := by decide +kernel
theorem witness_PageControl :
    State.reset.reaches .mgmt cHNK 399 = true ∧ hasCap (pg cHNK 399) capQuiesce = true ∧ hasCap (pg cGLB 0) capQuiesce = false ∧
    hasCap (pg cGLB 0) capFence = false ∧ hasCap (pg cHNK 0) capFence = true ∧ pageUnit (pg cHNK 0) = some (.hank 0) ∧
    (idle cHNK 0).fenceBreaks (.hank 0) = false ∧ hasCap (pg cSKN 3) capQuiesce = true ∧ (idle cSKN 3).pageState (pg cSKN 3) = stIDLE ∧
    State.reset.pageState (pg cHNK 0) = stRESET ∧ pageUnit (pg cTOL 3) = none ∧ (at_ State.reset cTOL 3 stFENCED).pageState (pg cTOL 3) = stFENCED ∧
    pageUnit (pg cHCH 3) = some (.hbmCh 0 3) ∧ hasCap (pg cHCH 3) capFence = false ∧ State.reset.live (.hbmCh 0 3) = true ∧
    ((at_ State.reset cHNK 0 stFENCED).setUnit (.hank 0) { boot := .good, live := .fenced }).pageState (pg cHNK 0) = stFENCED ∧
    (((at_ State.reset cHNK 0 stFENCED).setUnit (.hank 0) { boot := .good, live := .fenced }).unit (.hank 0)).live = .fenced ∧ (idle cHNK 0).pageState (pg cHNK 0) = stIDLE ∧
    (at_ State.reset cHNK 0 stFAULTED).pageState (pg cHNK 0) = stFAULTED ∧ (at_ State.reset cHNK 0 stFENCED).pageState (pg cHNK 0) = stFENCED ∧
    (at_ State.reset cTIR 0 stQUIESCING).pageState (pg cTIR 0) = stQUIESCING ∧ (at_ State.reset cTIR 0 stQUIESCING).pageWork (pg cTIR 0) = false := by decide +kernel

theorem witness_CommitsAndPageEvents :
    (idle cSKN 1).reaches .mgmt cSKN 1 = true ∧ hasCap (pg cSKN 1) capStaged = true ∧ (idle cSKN 1).pageState (pg cSKN 1) ≠ stOFF ∧
    (idle cSKN 1).flag (pg cSKN 1) PgHDR.PAGE_STATE_COMMIT_BUSY = false ∧ hasCap (pg cMIL 0) capStaged = true ∧ State.reset.reaches .mgmt cMIL 0 = true ∧
    0 < classCount cDSP ∧ 0 < classCount cHEP ∧ (with_ (pg cDSP 0) PgHDR.PAGE_STATE_COMMIT_BUSY 1).pageAbsent (pg cDSP 0) = false ∧
    (with_ (pg cDSP 0) PgHDR.PAGE_STATE_COMMIT_BUSY 1).flag (pg cDSP 0) PgHDR.PAGE_STATE_COMMIT_BUSY = true ∧ winsBad State.reset = false ∧
    (with_ (pg cSKN 399) PgHDR.PAGE_STATE_COMMIT_BUSY 1).flag (pg cSKN 399) PgHDR.PAGE_STATE_COMMIT_BUSY = true ∧
    (with_ (pg cSKN 399) PgHDR.PAGE_STATE_COMMIT_BUSY 1).openTxns 399 = 0 ∧ (with_ (pg cSKN 399) PgHDR.PAGE_STATE_COMMIT_BUSY 1).wayCommitBad 399 = false ∧
    State.reset.reaches .mgmt cHEP 0 = true ∧ hasCap (pg cHEP 0) capInt = true ∧ State.reset.pageAbsent (pg cSIT 3) = false ∧
    State.reset.live (.site 3) = true ∧ State.reset.absent (.spindle 399 63) = false ∧ (State.reset.unit (.spindle 399 63)).live ≠ .faulted := by decide +kernel
theorem witness_PageResets :
    pgCls (pg cHNK 0) ≠ cFAB ∧ State.reset.reaches .mgmt cSKN 0 = true ∧ hasCap (pg cSKN 0) capRst = true ∧ State.reset.pageState (pg cSKN 0) ≠ stOFF ∧
    State.reset.flag (pg cSKN 0) PgHDR.RST_CTRL_BLOCK_RST = false ∧ (with_ (pg cSKN 0) PgHDR.RST_CTRL_BLOCK_RST 1).flag (pg cSKN 0) PgHDR.RST_CTRL_BLOCK_RST = true ∧
    (with_ (pg cSKN 0) PgHDR.RST_CTRL_BLOCK_RST 1).pageState (pg cSKN 0) = stRESET ∧ (with_ (pg cSKN 0) PgHDR.RST_CTRL_BLOCK_RST 1).pageOn (pg cSKN 0) = true ∧
    hasCap (pg cHNK 399) capRst = true ∧ hasCap (pg cSIT 3) capRst = true ∧ hasCap (pg cFAB 5) capRst = true ∧ hasCap (pg cTOL 0) capRst = false ∧
    State.reset.reaches .mgmt cTOL 0 = true ∧ State.reset.reaches .mgmt cHNK 399 = true ∧ State.reset.reaches .mgmt cSIT 3 = true ∧
    State.reset.reaches .mgmt cFAB 5 = true ∧ (at_ State.reset cSKN 0 stOFF).pageState (pg cSKN 0) = stOFF ∧
    (with_ (pg cTOL 3) PgHDR.RST_CTRL_BLOCK_RST 1).flag (pg cTOL 3) PgHDR.RST_CTRL_BLOCK_RST = true ∧ pageUnit (pg cTOL 3) = none ∧
    pageUnit (pg cFAB 5) = some (.optAtt 5) ∧ State.reset.live (.optAtt 5) = true ∧ pageTol (pg cFAB 5) = some 475 ∧ State.reset.mesh.outs = [] ∧
    (with_ (pg cFAB 5) PgHDR.RST_CTRL_BLOCK_RST 1).pageState (pg cFAB 5) = stRESET ∧ (with_ (pg cFAB 5) PgHDR.RST_CTRL_BLOCK_RST 1).pageOn (pg cFAB 5) = true ∧
    pageUnit (pg cSIT 2) = some (.site 2) ∧ State.reset.live (.site 2) = true ∧ State.reset.flag (pg cSIT 2) PgHDR.PAGE_CTRL_FENCE = false := by decide +kernel
theorem witness_OwnerClasses :
    (idle cHNK 0).pageAbsent (pg cHNK 0) = false ∧ (idle cHNK 0).quiet (pg cHNK 0) = true ∧ (natBits 0x0F01 12 8 < 16 ∨ natBits 0x0F01 12 8 = 31) ∧
    natBits 0x1F00 12 8 = 31 ∧ (idle cHNK 0).accessClass (pg cHNK 0) ≤ 1 ∧ classAccess cHNK = 0 ∧ natBits 0x0F01 1 0 ≤ 1 ∧
    natBits 0x0F02 1 0 ≠ (idle cHNK 0).accessClass (pg cHNK 0) ∧ natBits 0x0F02 1 0 = 2 := by decide +kernel
def down : State := { State.reset with boot := { State.reset.boot with pwrGood := true, perst := false } }
theorem witness_HostLink :
    linked.dlUp = true ∧ linked.d3hot = false ∧ (linked.setFld pHEP PgHEP.LINK_STATUS_DSTATE 3).d3hot = true ∧ down.dlUp = false ∧ down.domOn 820 = true ∧
    down.lc.stage = 0 ∧ down.live .host = true ∧ linkOk 6 16 = true ∧ linkOk 1 1 = true ∧ linkOk 6 2 = false ∧ ({ linked with host := { linked.host with turnOff := true } } : State).host.reads = [] ∧
    ({ linked with host := { linked.host with l1En := true } } : State).host.l1En = true ∧ linked.fld pHEP PgHEP.LINK_STATUS_PM ≠ 3 ∧
    ({ down with host := { down.host with grace := true } } : State).host.grace = true := by decide +kernel
def holding : State := { State.reset with host := { State.reset.host with held := [heldReq], reads := [] } }
theorem witness_BusMaster :
    linked.dlUp = true ∧ State.reset.host.bme = false ∧ holding.host.held.find? (fun x => x.id = 4) = some heldReq ∧ heldReq.kind ≠ .pageReq ∧
    holding.mayLeave 64 = false ∧ heldReq.back = none ∧ holding.task? ⟨0, 0⟩ = none ∧ NMap.getD holding.taskErrs 0 (taskKey ⟨0, 0⟩) = 0 ∧
    ({ linked with host := { linked.host with reads := [heldReq] } } : State).host.reads.find? (fun x => x.id = 4) = some heldReq ∧
    ({ heldReq with kind := .flush } : HostReq).kind = .flush := by decide +kernel
def winOn : State := linked.setActWord pHEP 0x400 (BitVec.ofNat 64 (2 ^ 63 + 2 ^ 62 + 2 ^ 18))
theorem witness_HostRequests :
    linked.dlUp = true ∧ linked.host.drsSent = true ∧ ({ linked with host := { linked.host with drsSent := false } } : State).host.drsSent = false ∧
    linked.rxTlp.cfgRead 0x004 = some 6 ∧ linked.hostReach = true ∧ linked.ideShut = false ∧ linked.rot.owner = none ∧
    0 < 2 ^ (30 + linked.host.bar4Log) ∧ linked.rxTlp.winOf 0 = none ∧ winOn.hostReach = true ∧ winOn.rxTlp.winOf 0x1FFFFF = some 0 ∧
    (winOn.rxTlp.winParts 0 0 8 true (fun _ _ => .read)).isSome = true ∧ winOn.rxTlp.actFlag pHEP (PgHEP.WIN_MAP_WRITE 0) = true ∧
    (winOn.rxTlp.winParts 0 0 4 false (fun o n => .write (([1, 2, 3, 4] : List Byte).drop o |>.take n) 0)).isSome = true ∧ winOn.rxTlp.winAddr 0 64 = some (.t0 64) := by decide +kernel
def doeUp : State := { State.reset with rot := { State.reset.rot with sessions := [{ id := 1, tr := .doe, mutAuth := false, up := true }] } }
theorem witness_IdeAndClocks :
    doeUp.rot.sessions.any (fun x => x.up && x.tr = Transport.doe) = true ∧
    1 ∈ (NMap.getD ({ doeUp with rot := { doeUp.rot with ide := [(1, { prog := [1] })] } } : State).rot.ide {} 1).prog ∧ linked.dlUp = true := by decide +kernel
theorem witness_Supplies : State.reset.boot.pwrGood = false ∧ ready.boot.pwrGood = true := by decide +kernel
def running (k : Nat) : State := { down with boot := { down.boot with running := [k], hbmPend := [7] } }
theorem witness_StartStages :
    (running 2).boot.running.contains 1 = false ∧ (running 1).boot.running.contains 1 = true ∧ (running 2).boot.running.contains 2 = true ∧
    (running 3).boot.running.contains 3 = true ∧ (4 ∈ [4, 5, 7, 11, 12] ∧ (running 4).boot.running.contains 4 = true) ∧
    (running 12).boot.running.contains 12 = true ∧ (running 10).boot.running.contains 10 = true ∧ (running 5).boot.hbmPend.contains 7 = true ∧
    (running 11).boot.running.contains 11 = true ∧ natBit 0xFFFFFFFF 31 = true := by decide +kernel
def training : State := (with_ (pg cSIT 3) PgSIT.LINK_STATE slTRAINING)
def siteOn : State :=
  ({ State.reset with site := [(1, { peer := 2, cfg := [⟨.software, 0, 4, false⟩], chans := [(63, { cr := [0, 0, 16, 32, 48, 6, 2] })] })] } : State).setFld
    (pg cSIT 1) PgSIT.LINK_STATE slUP
def opticsOn : State := (List.range 4).foldl (fun s k => s.setStrandState (20 + k) ssTRAINING) State.reset
theorem witness_UnitTraining :
    training.absent (.site 3) = false ∧ training.siteLink 3 = slTRAINING ∧ (with_ (pg cSIT 0) PgSIT.LINK_STATE slRETRAINING).siteLink 0 = slRETRAINING ∧
    siteOn.chanUp 1 63 = true ∧ (siteOn.siteSt 1).cfg ≠ [] ∧ opticsOn.live (.optAtt 5) = true ∧
    (∀ k ∈ List.range 4, opticsOn.live (.strand 5 k) = true ∧ opticsOn.strandState (20 + k) = ssTRAINING) := by decide +kernel
def hankImage : FwImage := ⟨0, 1, 1, 200000, true, true⟩
def delivering (d : DelivSt) : State := { State.reset with deliv := [(399, d)], rot := { State.reset.rot with comps := [(5, { running := hankImage })] } }
theorem witness_HankDelivery :
    (delivering {}).delivery 399 = some {} ∧ ((delivering {}).comp 5).down = false ∧ 48 < (delivering {}).imageChunks ∧
    ({ } : DelivSt).chunks ≠ (delivering {}).wholeImage ∧ ({ round := 1 } : DelivSt).round < 2 ∧ ({ round := 2 } : DelivSt).round = 2 ∧
    (0 ||| (1 &&& (delivering {}).wholeImage)) ≠ (delivering {}).wholeImage ∧
    (delivering { chunks := 2 ^ 49 - 1 }).wholeImage = 2 ^ 49 - 1 ∧ ({ full := false } : DelivSt).full = false ∧ ({ } : DelivSt).full = true ∧
    3 ≤ ({ round := 3 } : DelivSt).round := by decide +kernel
theorem witness_ResetLevels :
    (at_ (running 9) cMGT 0 stIDLE).opens .mgmt cMGT 0 = true ∧ (running 9).boot.running ≠ [] ∧ (at_ ready cMGT 0 stIDLE).opens .mgmt cMGT 0 = true ∧
    ready.boot.running = [] ∧ ready.boot.wasReady = true ∧ ready.rot.halted = false ∧ ready.lc.stage = 0 ∧ (running 9).boot.running.contains 9 = true ∧
    ready.boot.running.contains 9 = false ∧ ({ ready with boot := { ready.boot with partReset := [15] } } : State).boot.partReset.contains 15 = true ∧
    ready.boot.partReset.contains 15 = false ∧ (idle cPRT 15).opens .mgmt cPRT 15 = true ∧
    ((idle cPRT 15).setFld (pg cPRT 15) PgPRT.CTRL_RESET 1).flag (pg cPRT 15) PgPRT.CTRL_RESET = true ∧
    (idle cPRT 15).flag (pg cPRT 15) PgPRT.CTRL_RESET = false := by decide +kernel
theorem witness_PowerEntries :
    ready.phase 0 = 0 ∧ (ready.domSt 0).st = 0 ∧ ((idle cHNK 0).setReq 0 1).domReq 0 = 1 ∧
    ((idle cHNK 0).setReq 0 1).entryBad 0 1 = none ∧ ((idle cSKN 0).setReq 400 1).entryBad 400 1 = some (4, pg cSKN 0) ∧ ((idle cSKN 0).setReq 400 1).domReq 400 = 1 ∧ (idle cHNK 0).reaches .mgmt cHNK 0 = true ∧ hasCap (pg cHNK 0) capPwr = true ∧
    pageDom (pg cHNK 0) = some 0 ∧ (pageDom (pg cSIT 3)).isSome = true ∧ hasCap (pg cSIT 3) capPwr = true ∧ (ready.setPhase 0 7).phase 0 ≠ 0 ∧
    State.reset.reaches .rot cMGT 0 = true ∧ (0 < 1 % 4 ∧ 1 % 4 < 3) ∧ (0 < 2 % 4 ∧ 2 % 4 < 3) ∧
    (ready.setPhase 823 1).phase 823 = 1 ∧ (ready.setPhase 821 5).phase 821 = 5 ∧ (ready.setPhase 0 3).phase 0 = 3 := by decide +kernel
theorem witness_PowerWakes :
    ready.domAbsent 0 = false ∧ ready.domAbsent 819 = false ∧ (ready.setPhase 0 3).phase 0 ≠ 0 ∧ (4 ≤ (ready.setPhase 819 5).phase 819 ∧ (ready.setPhase 819 5).phase 819 ≠ 6) ∧ 1 ≤ (ready.setPhase 0 3).phase 0 ∧
    privileged 0 ((ready.setPhase 0 3).domSt 0).target = false ∧ (ready.setPhase 0 3).flag (pg cPWR 0) PgPWR.CFG_DEMAND_WAKE = true ∧
    (ready.setPhase 0 6).phase 0 = 6 ∧ (ready.setPhase 821 6).phase 821 = 6 ∧ (ready.setPhase 823 6).phase 823 = 6 ∧
    (ready.setPhase 823 6).mgmtDown = true ∧ ready.boot.aonOk = true ∧ ready.boot.io18Ok = true ∧ 0 = ready.fld pMGT PgMGT.I3C_CFG_STATIC_ADDR ∧
    (({ ready with dom := [(823, { st := 1 })] } : State).setFld pMGT PgMGT.WAKE_CFG_EN_LVL 1).flag pMGT PgMGT.WAKE_CFG_EN_LVL = true ∧
    (({ ready with dom := [(823, { st := 1 })] } : State).domSt 823).st = 1 ∧
    (({ ready with boot := { ready.boot with wakeTimer := true } } : State).setFld pMGT PgMGT.WAKE_CFG_EN_TIMER 1).flag pMGT PgMGT.WAKE_CFG_EN_TIMER = true := by
  decide +kernel
theorem witness_PerstAndRegisters :
    ready.boot.pwrGood = true ∧ ready.rot.halted = false ∧ ready.boot.perst = false ∧ (running 3).boot.running ≠ [] ∧ (running 3).boot.pwrGood = true ∧
    ready.boot.running = [] ∧ ready.boot.wasReady = true ∧ ready.lc.stage = 0 ∧
    ({ ready with boot := { ready.boot with perst := true } } : State).boot.ended = [] ∧
    (ready.setFld pMGT PgMGT.WAKE_CFG_EN_PERST 0).flag pMGT PgMGT.WAKE_CFG_EN_PERST = false := by decide +kernel
theorem witness_DetectorEvents :
    (idle cHNK 399).ctlRuns 399 = true ∧ NMap.find? ready.saf.ctlReset 399 = none ∧
    NMap.find? ({ ready with saf := { ready.saf with ctlReset := [(399, 0)] } } : State).saf.ctlReset 399 = some 0 ∧ ready.clock - 0 < tickSec ∧
    ready.saf.mgmtHeld = false ∧ ready.saf.mgmtMismatch = none ∧ ({ ready with saf := { ready.saf with mgmtMismatch := some 0 } } : State).saf.mgmtMismatch = some 0 ∧
    ready.boot.pwrGood = true ∧ NMap.find? ready.saf.temps 31 = none := by decide +kernel

def anyEv : EvRec := ⟨.corrected, 1, 0, false, 0, 0, 0, 0, 0, 0⟩
def fullQ : State := { State.reset with saf := { State.reset.saf with evq := List.replicate 256 ⟨0, false, anyEv⟩ } }
def safOn : State := idle cSAF 0
def bound : State := { safOn with atu := { safOn.atu with ctx := [(3, some ⟨7, 2, false, false, 0⟩)] } }
def ringWord : Nat := 2 ^ 63 + 6 * 2 ^ 51 + 7
/-- Ring 16 of 64 entries, full, with an event that waits for it. -/
def ringFull16 : State :=
  let s := ((safOn.setFld pSAF (PgSAF.RING_CFG_EN 16) 1).setFld pSAF (PgSAF.RING_CFG_LOG2_SIZE 16) 6).setFld pSAF (PgSAF.RING_HEAD_HEAD 16) 64
  { s with saf := { s.saf with ringQ := [(16, safOn.ev .contained 0 0 pSAF 0 0 0)] } }
theorem witness_FaultReporting :
    State.reset.saf.evq.length < 256 ∧ 256 ≤ fullQ.saf.evq.length ∧ (idle cMGT 0).opens .mgmt cMGT 0 = true ∧ safOn.opens .mgmt cSAF 0 = true ∧
    (safOn.setFld pSAF PgSAF.STATUS_FATAL_ACTIVE 1).flag pSAF PgSAF.STATUS_FATAL_ACTIVE = true ∧
    (safOn.setFld pSAF PgSAF.STATUS_FATAL_ACTIVE 1).opens .mgmt cSAF 0 = true ∧ (safOn.setFld pSAF PgSAF.STATUS_FAULT_N 1).flag pSAF PgSAF.STATUS_FAULT_N = true ∧
    (safOn.setFld pSAF PgSAF.STATUS_FAULT_N 1).flag pSAF PgSAF.STATUS_FATAL_ACTIVE = false ∧ (safOn.setFld pSAF PgSAF.STATUS_FAULT_N 1).opens .mgmt cSAF 0 = true ∧
    (safOn.setFld pSAF (PgSAF.RING_CFG_EN 16) 1).flag pSAF (PgSAF.RING_CFG_EN 16) = true ∧ bound.opens .mgmt cSAF 0 = true ∧
    natBit (bound.mergeReg pSAF (0x208 + 0x20 * 2) (ringWord % 2 ^ 64)) 63 = true ∧ natBits (bound.mergeReg pSAF (0x208 + 0x20 * 2) ringWord) 55 51 = 6 ∧
    bound.ringCtx 2 (natBits (bound.mergeReg pSAF (0x208 + 0x20 * 2) ringWord) 19 0) = true ∧ bound.flag pSAF (PgSAF.RING_CFG_EN 2) = false ∧
    bound.ringCtx 16 7 = true ∧ ringFull16.ringNext 16 = some (safOn.ev .contained 0 0 pSAF 0 0 0) ∧ ringFull16.flag pSAF (PgSAF.RING_CFG_EN 16) = true ∧
    ringFull16.xwaits.any (fun w => w.use_ = .ring 16) = false ∧ ringFull16.ringFull 16 = true := by decide +kernel
def tstOn : State := idle cTST 0
def tstSlice : State := { tstOn.setFld (pg cSKN 5) PgHDR.PAGE_STATE_STATE stIDLE with saf := { tstOn.saf with tst := some ⟨1, 5⟩ } }
theorem witness_InServiceTests :
    tstOn.opens .mgmt cTST 0 = true ∧ (tstOn.setFld pTST PgTST.CMD_BUSY 1).flag pTST PgTST.CMD_BUSY = true ∧ (tstOn.setFld pTST PgTST.CMD_BUSY 1).opens .mgmt cTST 0 = true ∧
    tstOn.flag pTST PgTST.CMD_BUSY = false ∧ tstOn.pageAbsent (pg cHNK 399) = false ∧
    (tstOn.setFld (pg cHNK 399) PgHDR.PAGE_STATE_STATE stIDLE).pageState (pg cHNK 399) = stIDLE ∧
    (tstOn.setFld (pg cHNK 399) PgHDR.PAGE_STATE_STATE stIDLE).opens .mgmt cTST 0 = true ∧
    (tstSlice.pageState (pg cSKN 5) ≠ stOFF ∧ tstSlice.pageState (pg cSKN 5) ≠ stRESET) ∧ tstSlice.flag (pg cSKN 5) PgSKN.STATUS_TEST_BUSY = false ∧ tstSlice.flag (pg cSKN 5) PgHDR.PAGE_STATE_COMMIT_BUSY = false ∧
    (∀ w, w < 16 → tstSlice.wayUse 5 w = 0) ∧ tstSlice.opens .mgmt cTST 0 = true ∧ tstSlice.saf.tst = some ⟨1, 5⟩ ∧
    ({ tstSlice with plan := { tstSlice.plan with units := [(unitKey (.slice 5), { live := .inTest })] } } : State).live (.slice 5) = false ∧
    tstOn.saf.tst = none ∧ tstOn.hasDetector (.hbmDecoder 7) = true := by decide +kernel
/-- Slice 2: way 3 is scratchpad of partition 1, way 4 cache of partition 1, whose home list is slice 2 alone. -/
def sliced : State :=
  let s := ((idle cSKN 2).setActWord (pg cSKN 2) 0x108 (BitVec.ofNat 64 (2 * 2 ^ 6 + 1 * 2 ^ 8))).setActWord (pg cSKN 2) 0x100 (BitVec.ofNat 64 (1 * 2 ^ 12 + 1 * 2 ^ 16))
  { s with mem := { s.mem with homes := [(4, [2])], granules := [(5, 2 ^ 31 + 2 ^ 27)], layout := [⟨0, [0], 16⟩] }, plan := { s.plan with stackGib := 32, popHbm := 1 } }
theorem witness_ScratchpadAccesses :
    accWf (acc0 (2 * 0x40000 + 64) 8) = true ∧ sliced.locate (acc0 (2 * 0x40000 + 64) 8) true = .scratch 2 3 1 ∧ sliced.sliceHolds 2 = false ∧
    sliced.commitHolds 2 1 = false ∧ (acc0 (2 * 0x40000 + 64) 8).conflict = false ∧ (sliced.bankLine 2 3 1).2 = 0 ∧
    sliced.aperture 2 1 (((2 * 0x40000 + 64) % 0x40000) / 64) = none ∧ (64 + 24) % 32 + 8 ≤ 32 ∧
    State.reset.locate (acc0 0 4) false = .refuse ∧
    ({ sliced with plan := { sliced.plan with units := [(unitKey (.slice 2), { live := .faulted })] } } : State).locate (acc0 (2 * 0x40000) 4) false = .lost 2 1 ∧
    sliced.locate (accOf (.dpa (5 * 0x200000 + 128)) 8 1) true = .home 2 ((5 * 0x200000 + 128) / 64) 1 false none ∧
    accWf (accOf (.dpa (5 * 0x200000 + 128)) 8 1) = true ∧
    atomOk 0 0 true 0 [1, 0, 0, 0] = true ∧ atomOk 0 0 true 2 [1, 0, 0, 0] = false := by decide +kernel
/-- A gather descriptor of 4 rows of 64 bytes in a table of 100, and its bytes. -/
def gd : GatherDesc := ⟨0, 0, 100, 4, 64, 64, 0⟩
def gdBytes (rowBytes : Byte) : List Byte := descOf 64 [(0x10, 100), (0x14, 4), (0x18, 64), (0x1C, rowBytes)]
/-- Slot 1 of slice 3, of partition 0, enabled. -/
def gatherOn (g : GatherSt) : State := { (idle cSKN 3).setFld (pg cSKN 3) (PgSKN.GATHER_ENABLE 1) 1 with mem := { State.reset.mem with gather := [(13, g)] } }
def gload (raw : Option (Nat × List Byte × Nat)) : GatherSt := { loads := [{ id := 0, part := 0, raw := raw }], next := 1 }
/-- A read of `len` bytes at an offset of the window of slot 1 of slice 3. -/
def gacc (x len : Nat) : Access := accOf (.t0 (0x100000000 + 3 * 0x4000000 + 0x1000000 + x)) len 0
def gread : GatherRead := { id := 0, acc := gacc 64 64, off := 64, part := 0, desc := gd, idx := some 1 }
theorem witness_GatherAndSlices :
    (idle cSKN 3).opens .mgmt cSKN 3 = true ∧ (let d := 2 ^ 52 + 64; natBits d 55 52 = 1 ∧ natBits d 5 0 = 0 ∧
      (idle cSKN 3).regInside 1 64 64 = true ∧ (idle cSKN 3).regWindow 1 64 = some (.t0 64)) ∧ natBits 1 5 0 ≠ 0 ∧
    (idle cSKN 3).regInside 1 0x06400000 64 = false ∧ (gatherOn (gload none)).gatherSt 3 1 = gload none ∧
    (gload none).loads.find? (fun l => l.raw.isSome) = none ∧ (gload (some (0, gdBytes 64, 0))).loads.find? (fun l => l.raw.isSome) = some
      { id := 0, part := 0, raw := some (0, gdBytes 64, 0) } ∧ gatherOk (gdBytes 64) = true ∧ gatherDecode (gdBytes 64) = gd ∧
    gatherOk (gdBytes 48) = false := by decide +kernel
theorem witness_GatherAndSlices_reads :
    (gatherOn {}).locate (gacc 64 64) false = .window 3 1 64 ∧ (gatherOn {}).locate (gacc 0 256) false = .window 3 1 0 ∧
    (gatherOn {}).sliceHolds 3 = false ∧ ((gatherOn {}).setFld (pg cSKN 3) PgHDR.PAGE_CTRL_QUIESCE_REQ 1).sliceHolds 3 = true ∧
    ((gatherOn { faulted := true }).gatherSt 3 1).faulted = true ∧ (idle cSKN 3).flag (pg cSKN 3) (PgSKN.GATHER_ENABLE 1) = false ∧
    (gatherOn {}).fld (pg cSKN 3) (PgSKN.GATHER_PART 1) = 0 ∧ (gacc 0 32).part ≠ 1 ∧
    (gatherOn (gload none)).flag (pg cSKN 3) (PgSKN.GATHER_ENABLE 1) = true ∧ ((gatherOn (gload none)).gatherSt 3 1).loading = true ∧
    ((gatherOn (gload none)).gatherSt 3 1).desc = none ∧ ((gatherOn { desc := some gd }).gatherSt 3 1).desc = some gd ∧ 40 % 32 ≠ 0 ∧
    32 / gd.rowBytes ≠ (32 + 64 - 1) / gd.rowBytes ∧ 64 / gd.rowBytes = (64 + 64 - 1) / gd.rowBytes ∧ gd.count * gd.rowBytes ≤ 256 ∧
    192 < gd.count * gd.rowBytes := by decide +kernel
def txn4 : Txn := { id := 4, slice := 0, line := 0, part := 0, req := none }
def withTxn : State := { State.reset with mem := { State.reset.mem with txns := [txn4] } }
theorem witness_GatherAndSlices_answers :
    gread.status = 0 ∧ gread.idx = some 1 ∧ gd.tableRows ≤ 100 ∧ 1 < gd.tableRows ∧
    ({ gread with got := [(0, [], 0), (1, [], 3)] } : GatherRead).got.length = gread.acc.len / 32 ∧
    ((gatherOn { open_ := [gread], arrived := [(0, none, 0, [1], 0), (0, some 1, 0, [], 0)] }).gatherSt 3 1).arrived = [(0, none, 0, [1], 0), (0, some 1, 0, [], 0)] ∧
    gread ∈ ((gatherOn { open_ := [gread] }).gatherSt 3 1).open_ ∧ ({ gread with id := 1 } : GatherRead).id ≠ gread.id := by decide +kernel
theorem witness_GatherAndSlices_ends :
   
    ((idle cSKN 3).setFld (pg cSKN 3) PgSKN.STATUS_WIPE_BUSY 1).flag (pg cSKN 3) PgSKN.STATUS_WIPE_BUSY = true ∧
    (idle cSKN 3).flag (pg cSKN 3) PgSKN.STATUS_WIPE_BUSY = false ∧ ((idle cSKN 3).setFld (pg cSKN 3) PgSKN.STATUS_TEST_BUSY 1).flag (pg cSKN 3) PgSKN.STATUS_TEST_BUSY = true ∧
    ((State.reset.unit (.slice 3)).live ≠ .faulted) ∧ State.reset.saf.tst = none ∧ 1 % 2 ^ 16 ≠ 0 ∧
    withTxn.txn? 4 = some txn4 := by decide +kernel

def rq (pl : ReqPlace) : HbmReq := { id := 3, ch := 5, line := 9, secs := 3, narrow := false, wr := none, part := 1, cls := 0, level := 0, txn := none, place := pl }
def rqW : HbmReq := { rq .waiting with wr := some (List.replicate 64 1, 0) }
def chan5 (rs : List HbmReq) : State := { (idle cHCH 5) with mem := { State.reset.mem with reqs := rs } }
theorem witness_HbmRequestsAndCare_requests :
    (chan5 [rqW]).req? 3 = some rqW ∧ (chan5 [rqW]).olderWaits rqW = false ∧ rqW.wr ≠ none ∧ (chan5 [rqW]).wbufOcc 5 < 64 ∧
    (chan5 [rqW]).wbufPart 5 1 < (chan5 [rqW]).fld (pg cTOL (496 + 1)) PgTSH.HBM_SHARE_WRBUF_CAP ∧ 64 ≤ (chan5 (List.replicate 64 { rqW with id := 8, place := .wbuf } ++ [rqW])).wbufOcc 5 ∧
    (chan5 [rqW]).mem.reqs.find? (fun r => r.ch = 5 && r.place = .waiting) = some rqW ∧ (chan5 [rq .issued]).req? 3 = some (rq .issued) ∧ (rq .issued).secs = 3 ∧
    (chan5 [rq .reread]).req? 3 = some (rq .reread) ∧ (chan5 [rq .repair]).req? 3 = some (rq .repair) ∧ (chan5 [rq .waiting]).req? 3 = some (rq .waiting) ∧ natBit (rq .issued).secs 0 = true ∧
    (decodeSector [⟨4, 0xFF⟩, ⟨5, 1⟩]).1 = .corrected 2 ∧ (decodeSector [⟨0, 1⟩, ⟨39, 0x80⟩]).1 = .bad := by
  decide +kernel
def chUp : State := { (idle cHCH 5) with plan := { State.reset.plan with popHbm := 1, stackGib := 32 }, mem := { State.reset.mem with layout := [⟨0, [5], 16⟩] } }
theorem witness_HbmRequestsAndCare_requests_channels :
    chUp.chLive 5 = true ∧ ({ chUp with plan := { chUp.plan with units := [(unitKey (.hbmCh 0 5), { live := .faulted })] } } : State).chLive 5 = false ∧
    chUp.flag (pg cHCH 5) PgHCH.CTRL_RETRAIN = false ∧ chUp.mem.calFail.contains 5 = false ∧ ({ chUp with mem := { chUp.mem with calFail := [5] } } : State).mem.calFail.contains 5 = true ∧
    chUp.opens .mgmt cHCH 5 = true ∧ (chUp.setFld (pg cHCH 5) PgHCH.CTRL_RETRAIN 1).flag (pg cHCH 5) PgHCH.CTRL_RETRAIN = true ∧ chUp.mem.retrainFail.contains 5 = false ∧
    chUp.live (.hbmAtt 7) = true ∧ chUp.fld (pg cHBM 7) PgHBM.THERM_TEMP_C ≤ chUp.fld (pg cHBM 7) PgHBM.THERM_HOT_C ∧ chUp.fld (pg cHBM 7) PgHBM.THERM_HOT_C < 127 := by decide +kernel
def tirOn (gs : NMap Nat) : State := { (idle cTIR 1) with mem := { State.reset.mem with layout := [⟨0, [0], 16⟩, ⟨1, [32], 16⟩], granules := gs } }
def own1 : Nat := 2 ^ 31 + 2 ^ 27
theorem witness_GranuleCommands :
    (tirOn []).opens .mgmt cTIR 1 = true ∧ ((tirOn []).setFld (pg cTIR 1) PgTIR.GCMD_BUSY 1).flag (pg cTIR 1) PgTIR.GCMD_BUSY = true ∧
    (tirOn []).flag (pg cTIR 1) PgTIR.GCMD_BUSY = false ∧ (tirOn []).badRange 32 1 = true ∧ (tirOn []).badRange 31 1 = false ∧
    (∀ g ∈ granRun 30 2, gValid ((tirOn []).granule g) = false ∧ gZeroing ((tirOn [(30, 0), (31, 0)]).granule g) = false) ∧
    (tirOn [(3, own1)]).notOwner 1 3 1 = false ∧ (tirOn [(3, own1)]).rangeOn 1 0 = false ∧ gRepl own1 = 0 ∧ gPool own1 = false ∧
    (tirOn [(3, own1)]).inMigration 3 = false ∧ (∀ g ∈ granRun 3 1, gValid ((tirOn [(3, own1)]).granule g) = true) ∧
    (tirOn [(2, own1), (3, own1)]).badRange 3 1 = false ∧ (tirOn [(2, own1), (3, own1)]).granuleAtt 2 ≠ (tirOn [(2, own1), (3, own1)]).granuleAtt 3 := by decide +kernel
def own1At (f v : Nat) : Nat := own1 + v * 2 ^ f
theorem witness_GranuleCommands_quotas :
    ((tirOn [(30, 0), (31, 0)]).setFld (pg cPRT 1) PgPRT.TIER_QUOTA_T2_LIMIT 2).t2Used 1 + 2 ≤
      ((tirOn [(30, 0), (31, 0)]).setFld (pg cPRT 1) PgPRT.TIER_QUOTA_T2_LIMIT 2).fld (pg cPRT 1) PgPRT.TIER_QUOTA_T2_LIMIT ∧
    ((tirOn []).setFld (pg cTIR 1) PgTIR.GCMD_BUSY 0).opens .mgmt cTIR 1 = true ∧
    ({ tirOn [] with mem := { (tirOn []).mem with copying := [(1, 4, 5, 1)] } } : State).mem.copying.find? (fun c => c.1 = 1) = some (1, 4, 5, 1) := by decide +kernel
def mig1 : Migration := ⟨1, 2, 9, true, 4, false, false⟩
/-- The migration the other way, its backing page translated; an access of its source is under way with `line`. -/
def migDown : Migration := { mig1 with up := false }
def migOn (line : Nat) : State :=
  { State.reset with atu := { State.reset.atu with tiles := [⟨⟨86, migDown.key, none, 1, 0, true, true⟩, 3, some ⟨3, false, 0, 0x4000, true, true, false, false⟩⟩] }
                     mem := { State.reset.mem with migs := [migDown], txns := [{ id := 4, slice := 0, line := line, part := 1, req := none }] } }
theorem witness_TierMoves :
    ((idle cTIR 1).setActWord (pg cTIR 1) (0x120 + 0x20 * 2) (BitVec.ofNat 64 (2 ^ 63))).rangeOn 1 2 = true ∧
    ({ idle cTIR 1 with mem := { State.reset.mem with migs := [mig1] } } : State).mem.migs.find? (fun m => m.is 1 2 9) = some mig1 ∧
    (migOn 0).mem.migs.find? (fun m => m.is 1 2 9) = some migDown ∧ (migOn 0).migReady migDown = true ∧ (migOn 0).migBusy migDown = false ∧
    (migOn (4 * 32768)).migBusy migDown = true ∧ State.reset.migReady mig1 = false ∧
    ((readyT (tk 9 [])).pick 9 (fun t => !(readyT (tk 9 [])).mem.keyTasks.any (fun k => k.1 = t.part))).map Prod.fst = some (tk 9 []) ∧
    ((readyT (tk 9 [])).setFld pKEY (PgKEY.MEMKEY_PENDING 1) 1).flag pKEY (PgKEY.MEMKEY_PENDING 1) = true ∧
    (readyT (tk 9 [])).flag pKEY (PgKEY.MEMKEY_PENDING 1) = false ∧ (readyT (tk 9 [])).flag pKEY (PgKEY.MEMKEY_EXHAUSTED 1) = false ∧
    ({ State.reset with mem := { State.reset.mem with keyTasks := [(15, ⟨0, 0⟩)] } } : State).mem.keyTasks.find? (fun k => k.1 = 15) = some (15, ⟨0, 0⟩) := by decide +kernel
def stg (tr arg : Nat) : ItnStage := ⟨64, 0, 64, 0, 0, tr, arg, true⟩
def slotAt (st : Nat) (t : ItnSt) : State :=
  { (State.reset.setFld (pg cITN 63) PgITN.STATE_STATE st) with mem := { State.reset.mem with itn := [(63, t)] } }
def itnBody (op : Nat) : List Byte := [63, BitVec.ofNat 8 op]
def hdr : List Byte :=
  let b := [1, 0, 2, 0] ++ List.replicate 24 (0 : Byte)
  b ++ (List.range 4).map (fun k => BitVec.ofNat 8 (crc32 b / 256 ^ k))
theorem witness_Itineraries :
    ((readyT (tk 8 (itnBody 0))).pick 8 (fun _ => true)).map Prod.fst = some (tk 8 (itnBody 0)) ∧ leNat ((itnBody 2).drop 1 |>.take 1) = 2 ∧ leNat ((itnBody 1).take 1) = 63 ∧
    (readyT (tk 8 (itnBody 0))).itnPart 63 ≠ 1 ∧ ((readyT (tk 8 (itnBody 0))).setFld (pg cITN 63) PgHDR.OWNER_PARTITION 1).itnPart 63 = 1 ∧
    hdr.length = 32 ∧ checkOk hdr = true ∧ headerOk hdr 1 = true ∧ (slotAt inRUNNING {}).itnState 63 = inRUNNING ∧ ((slotAt inRUNNING {}).itnSlot 63).next = none ∧
    ((slotAt inRUNNING {}).stageAt 63 (stg 0 0) 0) = (stg 0 0, 0) ∧ (stg 0 0).checkOk = true ∧ stageOk (stg 0 0) = true ∧ stageOk (stg 7 0) = false ∧
    ({ stg 0 0 with checkOk := false } : ItnStage).checkOk = false ∧ (readyT (tk 8 (itnBody 0))).itnState 63 ≠ inRUNNING ∧
    ((at_ (slotAt inRUNNING {}) cITN 63 stIDLE).setFld (pg cITN 63) PgHDR.OWNER_PARTITION 1).itnState 63 = inRUNNING ∧ ((slotAt inRUNNING { next := some (stg 1 5) }).itnSlot 63).next = some (stg 1 5) := by decide +kernel
/-- A stage between windows; a promotion; the copy of a stage in flight. -/
def winStage : ItnStage := ⟨2 ^ 62, 2 ^ 62 + 4096, 64, 0, 1, 0, 0, true⟩
def stg2 : ItnStage := ⟨0, 0, 64, 0, 2, 0, 0, true⟩
def stageCopy (ended : Bool) : CopyRun :=
  { id := 0, for_ := .stage 63 4, part := 31, pasid := 0, client := 84, tol := 478, cls := 1, src := winStage.src, dst := winStage.dst, rowBytes := 64, rows := 1,
    srcStride := 0, dstStride := 0, hint := 0, fill := false, ended := ended }
def stagedCopy (ended : Bool) : State :=
  { slotAt inRUNNING { flight := [(4, winStage)] } with dsp := { State.reset.dsp with copies := [stageCopy ended] } }
theorem witness_Itineraries_stages :
    (slotAt inRUNNING { next := some (stg 1 5) }).triggered 63 (stg 1 5) = false ∧ (slotAt inRUNNING { next := some (stg 1 5), tags := [5] }).triggered 63 (stg 1 5) = true ∧
    0 < ((slotAt inRUNNING { next := some (stg 0 0) }).setFld (pg cITN 63) PgITN.CFG_MAX_INFLIGHT 4).fld (pg cITN 63) PgITN.CFG_MAX_INFLIGHT ∧
    0 ≤ ((slotAt inRUNNING { next := some (stg 0 0) }).itnSlot 63).flight.length ∧ (winStage.target ≠ 2 ∧ regionsOf winStage.src winStage.length +
      regionsOf winStage.dst winStage.length ≤ 64 ∧ winStage.src / 2 ^ 62 ≠ 0 ∧ winStage.dst / 2 ^ 62 ≠ 0) ∧ (slotAt inRUNNING { next := some winStage }).triggered 63 winStage = true ∧
    (stagedCopy false).dsp.copies.find? (fun c => c.for_ = .stage 63 4) = some (stageCopy false) ∧ (stageCopy false).ended = false ∧
    (stagedCopy true).dsp.copies.find? (fun c => c.for_ = .stage 63 4) = some (stageCopy true) ∧ (stageCopy true).ended = true ∧ (stageCopy true).busy = false ∧
    (stagedCopy true).mem.itn = [(63, { flight := [(4, winStage)] })] ∧ (stg2.target = 2 ∧ (slotAt inRUNNING { flight := [(4, stg2)] }).stageWaits 31 stg2 = false) ∧
    regionsOf 64 64 ≤ 64 ∧ regionsOf 0 64 ≤ 64 ∧ ((slotAt inRUNNING { flight := [(4, stg 0 0)] }).itnSlot 63).flight.find? (fun f => f.1 = 4) = some (4, stg 0 0) ∧
    (slotAt inRUNNING { flight := [(4, stg 0 0)] }).stageWaits 31 (stg 0 0) = false := by decide +kernel

def atuOn (c : NMap (Option CtxRec)) : State := { idle cATU 0 with atu := { State.reset.atu with ctx := c } }
def ctxH : CtxRec := ⟨7, 2, false, false, 0⟩
def ctxD : CtxRec := ⟨7, 2, true, false, 0⟩
def xr (dev : Bool) : XReq := { slot := 3, vpn2 := 5, device := dev, nw := false, wants := [] }
def fe : FqEnt := { idx := 4, slot := 3, vpn2 := 5, device := true, r := true, w := false, reason := 1, waiters := [], prg := some 2, reported := true }
theorem witness_Contexts :
    (atuOn []).opens .mgmt cATU 0 = true ∧ ((atuOn []).setFld pATU PgATU.CTX_CMD_BUSY 1).flag pATU PgATU.CTX_CMD_BUSY = true ∧
    ((atuOn []).setFld pATU PgATU.CTX_CMD_BUSY 1).opens .mgmt cATU 0 = true ∧ (atuOn []).flag pATU PgATU.CTX_CMD_BUSY = false ∧
    (atuOn [(3, some ctxH)]).ctx 3 = some ctxH ∧ (atuOn [(3, some ctxH)]).ctxOf 7 = some 3 ∧ (atuOn []).ctx 3 = none ∧
    ((atuOn []).setFld (pg cPRT 0) PgPRT.ATU_QUOTA_CTX_LIMIT 0).fld (pg cPRT 0) PgPRT.ATU_QUOTA_CTX_LIMIT ≤ (atuOn []).ctxCount 0 ∧
    (atuOn []).ctxCount 0 < ((atuOn []).setFld (pg cPRT 0) PgPRT.ATU_QUOTA_CTX_LIMIT 1).fld (pg cPRT 0) PgPRT.ATU_QUOTA_CTX_LIMIT ∧
    (atuOn []).flag pATU PgATU.CTX_ARG1_KIND = false ∧ (atuOn []).fld pATU PgATU.CTX_ARG0_ROOT = 0 ∧ (atuOn [(3, some ctxH)]).ctxInUse 3 ctxH = false ∧
    ({ atuOn [(3, some ctxH)] with atu := { (atuOn [(3, some ctxH)]).atu with fq := [fe] } } : State).ctxInUse 3 ctxH = true ∧
    ({ atuOn [] with atu := { (atuOn []).atu with draining := some 4095 } } : State).atu.draining = some 4095 := by decide +kernel
def atsOn (a : AtuSt) : State := { linked with host := { linked.host with atsEn := true }, atu := { a with ctx := [(3, some ctxH)] } }
def tl : Tlb := ⟨3, false, 5, 0x4000, true, true, false, false⟩
def w5 : XWant := ⟨86, 1, none, 2, 5 * 2 ^ 21, true, false⟩
theorem witness_Translations :
    (atuOn []).ctxOf 7 = none ∧ (atsOn {}).ctxOf 7 = some 3 ∧ (atsOn {}).ctx 3 = some ctxH ∧ (atsOn {}).host.atsEn = true ∧ (atuOn []).host.atsEn = false ∧
    (NMap.getD (atsOn { l1 := [(86, [tl])] }).atu.l1 [] 86).find? (fun t => t.covers 3 (w5.va / 2 ^ 21) && t.permits w5) = some tl ∧
    NMap.getD (atsOn {}).atu.l1 [] 86 = [] ∧ (atsOn {}).l2Find 3 5 = none ∧ (atsOn {}).hostOpen = true := by decide +kernel
theorem witness_Translations_answers :
    (atsOn { xreqs := [xr false] }).xreq? 3 5 false = some (xr false) ∧ (atsOn { xreqs := [xr true] }).xreq? 3 5 true = some (xr true) ∧
    (atsOn {}).xreq? 3 5 false = none ∧ NMap.getD (atsOn {}).atu.prg none 2 = none ∧
    (atsOn { fq := [fe] }).atu.fq.find? (fun e => e.idx = 4 && (e.prg ≠ none || e.reported)) = some fe ∧
    (atsOn { fq := [fe] }).atu.fq.find? (fun e => e.idx = 4 && e.reported) = some fe := by decide +kernel
/-- An invalidation whose access is still being gathered. -/
def invLate : State := { atsOn { invs := [9], invReads := [(some 9, [], [5])] } with joins := [{ id := 5, kind := .staged, left := 1 }] }
theorem witness_Translations_invalidations :
    32 ≤ (atsOn { invs := List.range 32 }).atu.invs.length ∧ (atsOn {}).atu.invs.length < 32 ∧ (atsOn { invs := [9] }).atu.invs.contains 9 = true ∧
    (atsOn { invs := [9] }).sitesOwe (some 9) = false ∧ (atsOn { invs := [9] }).invOpen (some 9) = false ∧ invLate.invOpen (some 9) = true ∧
    ({ State.reset with site := [(1, { invs := [(0, some 9, 0)] })] } : State).invOpen (some 9) = false ∧
    ({ State.reset with site := [(1, { invs := [(0, some 9, 0)] })] } : State).sitesOwe (some 9) = true ∧ (idle cATU 86).opens .mgmt cATU 86 = true ∧
    (atuOn [(3, some ctxD)]).atu.invCmd = false ∧ (atuOn [(3, some ctxD)]).ctx (3 % 4096) = some ctxD ∧ ctxD.device = true ∧ (atuOn [(3, some ctxD)]).fld pATU PgATU.INV_ARG_COUNT = 0 ∧
    ((atuOn [(3, some ctxD)]).setFld pATU PgATU.INV_ARG_COUNT 262144).fld pATU PgATU.INV_ARG_COUNT = 262144 ∧ (atuOn [(3, some ctxD)]).opens .mgmt cATU 0 = true ∧
    ({ atuOn [] with atu := { (atuOn []).atu with invCmd := true } } : State).atu.invCmd = true ∧ (atsOn {}).atu.fq = [] := by decide +kernel
/-- A host link with CXL, and decoder 2 bound to partition 1 at the first granule of its window. -/
def cxlUp (gs : NMap Nat) : State :=
  let s := (linked.setFld pHEP PgHEP.LINK_STATUS_CXL 1).setActWord pHEP (0x680 + 8 * 2) (BitVec.ofNat 64 (2 ^ 63 + 1 * 2 ^ 57))
  let s := (s.setFld (pg cPRT 1) PgPRT.T2_WIN_T2_LEN 8).setFld (pg cPRT 1) PgPRT.T2_WIN_T2_BASE 0
  { s with host := { s.host with hdm := [(2, { on := true, base := 0x10000000, size := 0x10000000 })] }
           mem := { s.mem with granules := gs, homes := [(4, [2])], layout := [⟨0, [0], 16⟩] } }
def owned0 : NMap Nat := [(0, 2 ^ 31 + 2 ^ 27)]
/-- A table walk whose root entry, in a granule of partition 1, is as zero-fill leaves it. -/
def walkS : State := { cxlUp owned0 with atu := { State.reset.atu with xreqs := [xr true], ctx := [(3, some { ctxD with part := 1 })] } }
theorem witness_Translations_walks : walkS.xreq? 3 5 true = some (xr true) ∧ walkS.ctx (xr true).slot = some { ctxD with part := 1 } ∧
    walkS.walkEntry 1 (0 + 8 * (5 / 512 ^ 2 % 512)) none = some 0 ∧ natBit 0 0 = false := by decide +kernel
theorem witness_HostCoherence :
    (cxlUp []).cxlOn = true ∧ 0x10000040 % 64 = 0 ∧ (cxlUp []).hdmAddr 0x40 = none ∧ (cxlUp owned0).hdmAddr 0x10000040 = some (1, .dpa 0x40) ∧
    (cxlUp owned0).locate (hdmAccess 5 1 (.dpa 0x40)) false ≠ .refuse ∧ (cxlUp owned0).locate (hdmAccess 5 1 (.dpa 0x40)) true = .home 2 1 1 false none ∧
    (cxlUp owned0).filterOf 2 1 = none ∧ (cxlUp owned0).mem.txns = [] ∧ ((cxlUp owned0).setFilter 2 1 (some ⟨1, 1, .o 4, 16⟩)).filterOf 2 1 = some ⟨1, 1, .o 4, 16⟩ ∧
    (cxlUp []).t3Holders (t3Key 77) = [] ∧ ((cxlUp []).setFilter 399 (t3Key 77) (some ⟨t3Key 77, 1, .s, 1⟩)).t3Holders (t3Key 77) = [399] := by decide +kernel
def snooping : Txn := { id := 4, slice := 2, line := 1, part := 1, req := none, snoops := [⟨4, .inv, false⟩] }
def filling : Txn := { id := 4, slice := 2, line := t3Key 77, part := 1, req := some { acc := accOf (.hpa (77 * 64)) 8 1, op := .read }, phase := .fill }
def withTxns (ts : List Txn) : State := { State.reset with mem := { State.reset.mem with txns := ts } }
theorem witness_HostCoherence_txns :
    (withTxns [snooping]).mem.txns.any (fun t => t.line = 1 && t.snoops.any (fun w => w.agent = 4)) = true ∧
    ((withTxns [filling]).mem.txns.find? (fun t => t.line = t3Key 77 && t.phase = .fill && t.gotMask = 0)).isSome = true ∧
    (filling.req.map (fun r => r.coh)) = some .plain ∧
    ((withTxns [snooping]).mem.txns.find? (fun t => t.line = 1 && t.phase = .snoop && t.snoops.any (fun w => w.agent = 4))).isSome = true := by decide +kernel
def scrOn (gs : NMap Nat) : State :=
  { idle cSCR 7 with mem := { State.reset.mem with granules := gs, layout := [⟨7, [7 * 32 + 31], 4⟩] } }
theorem witness_HbmRequestsAndCare_care :
    (scrOn []).accepts (pg cSCR 7) = true ∧ State.reset.accepts (pg cSCR 7) = false ∧ State.reset.live (.hbmAtt 7) = true ∧
    (scrOn []).live (.hbmAtt 7) = true ∧ ((scrOn []).setFld (pg cSCR 7) PgSCR.CFG_ZERO_GBPS 0).fld (pg cSCR 7) PgSCR.CFG_ZERO_GBPS = 0 ∧
    (scrOn []).fld (pg cSCR 7) PgSCR.CFG_ZERO_GBPS ≠ 0 ∧ (scrOn []).nextZero 7 ((scrOn []).attGranules 7) 0 = some 0 ∧
    ((scrOn []).setFld (pg cSCR 7) PgSCR.CFG_RATE_MIBPS 0).fld (pg cSCR 7) PgSCR.CFG_RATE_MIBPS = 0 ∧ (scrOn []).fld (pg cSCR 7) PgSCR.CFG_RATE_MIBPS ≠ 0 ∧
    (scrOn []).granuleOf 7 ((scrOn []).fld (pg cSCR 7) PgSCR.STATUS_POS) = some 0 ∧ (scrOn []).flag (pg cHCH 255) PgHCH.CTRL_RETRAIN = false ∧ ({} : ScrubErr).first = [] := by decide +kernel
def flit (here dest : Nat) : Flit := ⟨3, here, dest, 0, false, 7, 9⟩
/-- Of the routers next to 358 and 359 only these two are live, which keeps the search small. -/
def pair359 : State := [357, 338, 378, 339, 379].foldl (fun s n => s.setUnit (.router n) { boot := .good, live := .faulted }) State.reset
def tr5 : TolReq := ⟨490, 5, none, 1, 0, none, 64, 0, false⟩
def outs5 : State := { State.reset with mesh := { State.reset.mesh with outs := [⟨490, 5, none, false, 0⟩] } }
theorem witness_MeshAndTollgates :
    State.reset.mesh.flits.find? (fun g => g.id = 3) = none ∧ State.reset.flitPassed (flit 447 399) = false ∧ outs5.flitPassed { flit 447 399 with tol := 490, txn := 5 } = true ∧ State.reset.live (.router 447) = true ∧ State.reset.stopped (pg cMSH 447) = false ∧
    State.reset.nextHop 447 399 = some 359 ∧ pair359.mesh.flits = [] ∧ pair359.live (.router 358) = true ∧ pair359.nextHop 358 359 = some 359 ∧ (at_ (at_ State.reset cHNK 359 stIDLE) cSKN 359 stIDLE).absorbs 359 = false ∧
    State.reset.mesh.retry.contains (7 * 2 ^ 32 + 9) = false := by decide +kernel
def deadRouter : State := { State.reset with plan := { State.reset.plan with units := [(unitKey (.router 0), { live := .faulted })] } }
theorem witness_MeshAndTollgates_ways :
    (flit 0 399).here < 448 ∧ State.reset.mesh.waiting = [] ∧ 5 < joinBase ∧ deadRouter.live (.router 0) = false ∧ deadRouter.nextHop 1 0 = none ∧
    State.reset.unregulated 490 (State.reset.tolClass tr5) = true ∧ ((State.reset.setFld (pg cTOL 490) (PgTOL.BUCKET_RATE 0) 5).unregulated 490 0) = false ∧
    (468 ≤ 476 ∧ 476 ≤ 476) ∧ State.reset.fld (pg cTOL 476) PgTOL.URG_CFG_T3 ≤ 100 ∧ 0 < State.reset.fld (pg cTOL 468) PgTOL.URG_CFG_T1 ∧
    State.reset.fld (pg cTOL 490) PgTOL.LAT_CFG_TARGET_NS = 0 ∧ State.reset.mesh.late.contains (490, 5) = false := by decide +kernel
def lateTol : State := { State.reset.setFld (pg cTOL 490) PgTOL.LAT_CFG_TARGET_NS 100 with mesh := { State.reset.mesh with lat := [(490, 95)] } }
theorem witness_MeshAndTollgates_latency :
    0 < lateTol.fld (pg cTOL 490) PgTOL.LAT_CFG_TARGET_NS ∧ 90 * lateTol.fld (pg cTOL 490) PgTOL.LAT_CFG_TARGET_NS ≤ 100 * min (2 ^ 24 - 1) (NMap.getD lateTol.mesh.lat 0 490) ∧
    outs5.outTxn? 490 5 = some ⟨490, 5, none, false, 0⟩ ∧ outs5.outTxn? 490 4 = none ∧ outs5.host.held.any (fun q => q.back = some (490, 5)) = false := by decide +kernel

def lcsOn : State := idle cLCS 0
def lcAt (l : LcSt) : State := { State.reset with lc := l }
theorem witness_LifeCycleTargets_writes :
    lcsOn.opens .mgmt cLCS 0 = true ∧ lcsOn.flag pLCS PgLCS.STATUS_BUSY = false ∧ lcsOn.lcResult .mgmt (9 % 16) ≠ 0 ∧ lcsOn.lcResult .mgmt (lcFIELD_DEBUG % 16) = 0 ∧
    lcsOn.lc.completes lcFIELD_DEBUG = false ∧ (lcsOn.setFld pLCS PgLCS.STATUS_BUSY 1).flag pLCS PgLCS.STATUS_BUSY = true ∧
    (lcsOn.setFld pLCS PgLCS.STATUS_BUSY 1).opens .mgmt cLCS 0 = true := by decide +kernel
theorem witness_LcProgramming :
    (lcAt { stage := 2, src := 3, target := 15, slot := 4 }).lc.stage = 2 ∧ NMap.getD (lcAt { stage := 2, src := 3, target := 15, slot := 4 }).lc.slots 0 4 = 0 ∧
    (lcAt { stage := 3 }).lc.stage = 3 ∧ (lcAt { stage := 4 }).lc.stage = 4 ∧ (lcAt { stage := 5 }).lc.stage = 5 := by decide +kernel
theorem witness_LifeCycleTargets_resets :
    (lcAt { stage := 1, slot := 3 }).lc.stage = 1 ∧ slotValid (NMap.getD (lcAt { stage := 1, slot := 3 }).lc.slots 0 3) = false ∧
    slotValid (NMap.getD (lcAt { stage := 1, slots := [(0, 0x40000000FFEF0010)] }).lc.slots 0 0) = true ∧ natBit 0x40000000FFEF0010 62 = true ∧
    (({ lcAt { stage := 6 } with lc := { (lcAt { stage := 6 }).lc with stage := 0 } } : State).rotStart [⟨2, ⟨1, 1, 1, 64, false, true⟩, ⟨1, 1, 1, 64, false, true⟩⟩]).rot.halted = true ∧
    (({ lcAt { stage := 6 } with lc := { (lcAt { stage := 6 }).lc with stage := 0 } } : State).rotStart
      [⟨2, ⟨1, 1, 1, 64, true, true⟩, ⟨0, 0, 0, 0, true, true⟩⟩, ⟨3, ⟨1, 1, 1, 64, true, true⟩, ⟨0, 0, 0, 0, true, true⟩⟩]).rot.halted = false := by decide +kernel
theorem witness_LifeCycleTargets_resets_scrapped :
    ((lcAt { stateWord := 0xFF00000000FFFFFF }).rotStart []).lc.state = lcSCRAPPED ∧ ((lcAt { stateWord := 0xFF00000000FFFFFF }).rotStart []).rot.halted = true := by
  decide +kernel
def dbgOn : State := (idle cDBG 0).setFld pDBG PgHDR.OWNER_ACCESS_CLASS 1
def dbgHeld (cls : Nat) : State := ((dbgOn.setFld pDBG PgDBG.CTRL_HALT 1).setFld pDBG PgDBG.CTRL_HALTED 1).setFld pDBG PgDBG.CTRL_CLASS cls
def fieldDebug : State := { State.reset with lc := { State.reset.lc with state := lcFIELD_DEBUG }, boot := { State.reset.boot with wasReady := true } }
theorem witness_DebugPage :
    fieldDebug.lc.state = lcFIELD_DEBUG ∧ fieldDebug.lc.incomplete = false ∧ fieldDebug.hubReady = true ∧ (∀ a ∈ List.range 8, fieldDebug.zeroingCount a = 0) ∧
    dbgOn.opens .mgmt cDBG 0 = true ∧ dbgOn.flag pDBG PgDBG.CTRL_HALT = false ∧ (dbgHeld cSKN).flag pDBG PgDBG.CTRL_HALTED = true ∧ (dbgHeld cSKN).dbgBank = some 0 ∧
    (dbgHeld cHNK).dbgBank = none ∧ (dbgHeld cSKN).opens .rot cDBG 0 = true ∧ ((dbgHeld cSKN).setFld pDBG PgDBG.CTRL_HALTED 0).flag pDBG PgDBG.CTRL_HALT = true ∧
    ((dbgHeld cSKN).setFld pDBG PgDBG.CTRL_HALTED 0).tap.step = false ∧ ((dbgHeld cSKN).setFld pDBG PgDBG.CTRL_HALTED 0).pageWork ((dbgHeld cSKN).dbgTarget) = false := by
  decide +kernel
def blank : State := { State.reset with lc := { State.reset.lc with state := lcBLANK } }
theorem witness_TestPort_instructions :
    blank.boot.io18Ok = true ∧ blank.tapLive .idcode = true ∧ blank.tapLive .sample = true ∧ blank.tapLive .extest = true ∧ blank.tapLive .scan = true ∧
    blank.tapLive .wir = true ∧ blank.tapLive (.site 3) = true ∧ tapOp (0xFF % 256) = .bypass ∧ State.reset.tapLive (tapOp 0x30) = false := by decide +kernel
theorem witness_TestPort_accesses :
    lcsOn.shut pLCS = false ∧ ({ lcsOn with lc := { lcsOn.lc with state := lcTEST } } : State).tapTarget (2 % 16) = true ∧ lcsOn.tapTarget (2 % 16) = false ∧
    blank.tapLive .dbgAccess = true ∧ blank.tapLive .tstAccess = true := by decide +kernel
/-- The ROT has booted, with an owner that admits every transport, and a session of each kind. -/
def rotUp : State :=
  { ((linked.setFld pMGT PgMGT.NET_CFG_ENABLE 1)) with
    rot := { State.reset.rot with booted := true, owner := some ⟨1, ⟨[0, 0, 0, 0, 0, 0], true, true, false⟩⟩
                                  sessions := [⟨1, .i3c, true, true, false, 0, some 5⟩, ⟨2, .i3c, false, false, false, 0, none⟩, ⟨3, .sgmii, true, false, true, 0, none⟩]
                                  conns := [(0, ⟨3, 0, 8⟩), (1, ⟨3, 0, 8⟩), (2, ⟨3, 0, 8⟩), (3, ⟨3, 0, 8⟩)] } }
theorem witness_SpdmRequests :
    (∀ t ∈ [Transport.i3c, .sgmii, .doe, .fabric], rotUp.served t = true ∧ rotUp.trAdmits t = true ∧ 3 ≤ (rotUp.conn t).phase ∧ 0 < (rotUp.conn t).chunkOut) ∧
    rotUp.hasIdentity = true := by decide +kernel
def activating : State :=
  { rotUp with boot := { rotUp.boot with running := [10] }
               rot := { rotUp.rot with comps := [(7, { slotB := { st := 2 } })] } }
theorem witness_MeasurementsAndSessions_report :
    rotUp.session 1 = some ⟨1, .i3c, true, true, false, 0, some 5⟩ ∧ rotUp.activationOn = false ∧ rotUp.measBlocks 9 ≠ [] ∧ activating.activationOn = true := by
  decide +kernel
theorem witness_MeasurementsAndSessions_sessions :
    rotUp.sessionRoom .i3c = true ∧ rotUp.session 2 = some ⟨2, .i3c, false, false, false, 0, none⟩ ∧ rotUp.session 3 = some ⟨3, .sgmii, true, false, true, 0, none⟩ ∧
    rotUp.sessionRoom .sgmii = true := by decide +kernel
theorem witness_OwnersAndJobKeys_owners :
    ({ rotUp with rot := { rotUp.rot with owner := none } } : State).rot.owner = none ∧ rotUp.rot.owner.isSome = true := by decide +kernel
def blob (v : Nat) : KeyBlob := ⟨v, 4, true, true, [⟨11, 15, false, 8⟩]⟩
theorem witness_OwnersAndJobKeys_keys : rotUp.blobResult (blob 2) ≠ 0 ∧ rotUp.blobResult (blob 1) = 0 ∧ (11, 15) ∈ [(11, 15)] ∧ (0, 15) ∉ [((11 : Nat), (15 : Nat))] := by decide +kernel
theorem witness_FirmwareAndMailbox_staged :
    rotUp.stageResult 7 ⟨1, 1, 1, 64, false, true⟩ true ≠ 0 ∧ rotUp.stageResult 7 ⟨1, 1, 1, 64, true, true⟩ true = 0 ∧ (rotUp.comp 7).slotIn 1 = some false ∧
    ({ activating with boot := rotUp.boot } : State).activationOn = false ∧ (({ activating with boot := rotUp.boot } : State).comp 7).slotA.st = 1 ∧
    (({ activating with boot := rotUp.boot } : State).comp 7).slotB.st = 2 := by decide +kernel
def rotPage : State := (idle cROT 0).setFld pROT PgHDR.OWNER_ACCESS_CLASS 1
theorem witness_FirmwareAndMailbox_mailbox :
    rotPage.shut pROT = false ∧ rotPage.flag pROT PgROT.MBOX_CMD_BUSY = false ∧ rotPage.accessClass pROT = 1 ∧ 0xB0 ≤ 3584 ∧
    ((rotPage.setFld pROT PgROT.MBOX_CMD_LEN 0xB0).mboxBlob 0xB0 ⟨0, 0, false, true, []⟩).isSome = true ∧
    (rotPage.setFld pROT PgROT.MBOX_CMD_LEN 0xB1).mboxBlob 0xB1 ⟨0, 0, false, true, []⟩ = none := by decide +kernel

/-- A pattern descriptor of one tile: E4M3 operands, FP32 result, M rows, N columns, K = 16. -/
def patB (m n out : Nat) : List Byte :=
  descOf 256 [(0, 1), (4, BitVec.ofNat 8 out), (0x10, BitVec.ofNat 8 m), (0x14, BitVec.ofNat 8 n), (0x18, 16), (0x31, 1), (0x41, 2), (0x50, 16), (0x54, 16), (0x58, 64)]
def pd1 (st m out : Nat) : PdRead := ⟨⟨0, 0⟩, st, patB m 16 out⟩
/-- A SPIN of partition 1 is ready; hank set 0 of the partition is hanks 0 and 399, both owned and idle. -/
def spinReady : State :=
  let s := readyT (tk 1 (List.replicate 16 0))
  let s := (s.setFld (pg cHNK 0) PgHDR.OWNER_PARTITION 1).setFld (pg cHNK 399) PgHDR.OWNER_PARTITION 1
  (s.setActWord (pg cDSP 1) 0x200 1).setActWord (pg cDSP 1) (0x200 + 8 * 6) (BitVec.ofNat 64 (2 ^ 15))
theorem witness_SpinsAndTiles :
    (spinReady.pick 1 (spinReady.spinCan [pd1 0 16 10])).map Prod.fst = some (tk 1 (List.replicate 16 0)) ∧ spinReady.patCheck 1 (patB 16 16 10) = 0 ∧
    spinReady.patCheck 1 (patB 0 16 10) = 0x43 ∧ (pd1 3 1 10).status ≠ 0 ∧ (spinReady.hankSet 1 0 (patOf (patB 16 16 10))) = ([0, 399], 0) ∧
    (patOf (patB 16 16 10)).eligible = false ∧ (patOf (descOf 256 [(0, 1), (4, 10), (9, 2), (0x10, 16), (0x14, 1), (0x18, 16)])).eligible = true := by decide +kernel
def thinB : List Byte := descOf 256 [(0, 1), (4, 10), (9, 2), (0x10, 16), (0x14, 1), (0x18, 16), (0x31, 1), (0x41, 2), (0x50, 16), (0x54, 16), (0x58, 64)]
/-- A thin SPIN on its way to its distaff; then in an open batch. -/
def thinSent : State := after (.spinDispatch [⟨⟨0, 0⟩, 0, thinB⟩]) ((spinReady.setFld (pg cHNK 0) PgHNK.DST_CFG_WINDOW 5).setFld (pg cHNK 0) PgHNK.DST_CFG_FILL 16)
def thinOpen : State := after (.distaffArrival ⟨0, 0⟩) thinSent
theorem witness_SpinsAndTiles_distaff :
    (thinSent.dsp.arriving.find? (fun a => a.task = ⟨0, 0⟩)).isSome = true ∧ thinSent.dsp.batches = [] ∧
    (thinSent.dsp.arriving.find? (fun a => a.task = ⟨0, 0⟩)).any (fun a => decide (
        0 < thinSent.dstFld (thinSent.lead a.hanks) PgHNK.DST_CFG_WINDOW ∧ a.desc.n < thinSent.dstFld (thinSent.lead a.hanks) PgHNK.DST_CFG_FILL ∧
        0 < thinSent.dstFld (thinSent.lead a.hanks) PgHNK.DST_CFG_MAX_OPEN)) = true ∧
    thinOpen.dsp.batches.length = 1 ∧ thinOpen.clock = 0 ∧ (thinOpen.dsp.batches.all (fun b => b.tick = 0 && b.reqs.length = 1 &&
      10 * thinOpen.dstFld (thinOpen.lead b.hanks) PgHNK.DST_CFG_WINDOW = 50)) = true := by
  decide +kernel
/-- The SPIN placed, hank 399 ready for a tile; then with the tile taken. -/
def placed : State := at_ (after (.spinDispatch [pd1 0 16 10]) spinReady) cHNK 399 stIDLE
def tiled : State := after (.tileTake 399 0) placed
theorem witness_SpinsAndTiles_tiles :
    (placed.hank 399).run = none ∧ (placed.hank 399).check = 0 ∧ (placed.hank 399).unfence = [] ∧ placed.live (.hank 399) = true ∧ placed.accepts (pg cHNK 399) = true ∧
    passes (placed.spindles 399) ≤ 1 ∧ (placed.hank 399).drains.any (fun d => decide (d.set = (placed.hank 399).nextSet)) = false ∧
    (nextOffer (placed.hank 399).lastSet (placed.offers 399)).isSome = true ∧ (tiled.hank 399).run.isSome = true ∧
    (idle cHNK 399).opens .mgmt cHNK 399 = true ∧ State.reset.spindles 399 = 2 ^ 64 - 1 ∧ 16 < popCount 64 (0xFFFFFFFF00000000 % 2 ^ 64) ∧
    ((State.reset.setHank 399 { fence := [5] }).hank 399).fence ≠ [] ∧ ((State.reset.setHank 399 { unfence := [5] }).hank 399).unfence ≠ [] ∧ (State.reset.hank 399).run = none ∧
    (patOf (patB 16 16 10)).weightSide ≠ (patOf thinB).weightSide := by decide +kernel
/-- A tile of two steps (K = 64) on hank 399. -/
def longRun : TileRun := { spin := 1, unit := 0, mt := 0, seg := 0, nt := 0 }
def longDesc : PatDesc := { patOf [] with aFmt := 0, bFmt := 0, outFmt := 10, m := 16, n := 16, k := 64, bBase := 256, cBase := 512, aStride := 64, bStride := 64, cStride := 64 }
def longAt (h : HankSt) : State :=
  { idle cHNK 399 with dsp := { State.reset.dsp with
      spins := [{ id := 1, part := 1, hset := 0, members := [{ task := ⟨0, 0⟩, desc := longDesc, col0 := 0 }], desc := longDesc, hanks := [0, 399] }]
      hanks := [(399, { h with run := some longRun })] } }
def longFull : HankSt :=
  { bobs := (List.range 8).map (fun k => (k, [⟨[List.replicate 16 0x38, List.replicate 16 0x38], []⟩])) ++
      (List.range 4).map (fun k => (16 + k, [⟨List.replicate 4 (List.replicate 16 0x38), []⟩])) }
/-- Hank 399 with room for two steps and one held, its rows in way 3 of its own slice, a scratchpad way of partition 1. -/
def ownRows : PatDesc := { longDesc with aBase := 399 * 0x40000 }
def ownAt (h : HankSt) : State :=
  let s := longAt h
  let s := (s.setActWord (pg cSKN 399) 0x108 (BitVec.ofNat 64 (2 * 2 ^ 6 + 1 * 2 ^ 8))).setActWord (pg cSKN 399) 0x100 (BitVec.ofNat 64 (1 * 2 ^ 12 + 1 * 2 ^ 16))
  { s.setFld (pg cBOB 399) PgBOB.CFG_LOOKAHEAD 2 with
      dsp := { s.dsp with spins := [{ id := 1, part := 1, hset := 0, members := [{ task := ⟨0, 0⟩, desc := ownRows, col0 := 0 }], desc := ownRows, hanks := [0, 399] }] } }
def oneHeld : HankSt := { bobs := [(0, [⟨[], []⟩])] }
def fill0 : FillRun := { id := 0, hank := 399, spin := 1, fill := some (.slice 0), at_ := 0, mt := 0, unit := 0, pieces := [], goesTo := [399] }
theorem witness_HankSteps_fills :
    (ownAt oneHeld).live (.hank 399) = true ∧ (ownAt oneHeld).stopped (pg cHNK 399) = false ∧ ((ownAt oneHeld).hank 399).run = some longRun ∧
    (((ownAt oneHeld).spin? 1).map (fun r => r.desc)) = some ownRows ∧ (ownAt oneHeld).heldSteps 399 0 = 1 ∧
    (ownAt oneHeld).fld (pg cBOB 399) PgBOB.CFG_LOOKAHEAD = 2 ∧ (ownRows.bobsNeeded ((ownAt oneHeld).spindles 399) longRun).contains 0 = true ∧
    longRun.step + 1 < ownRows.steps ∧ (ownAt oneHeld).filling 399 (.slice 0) = false ∧
    ((ownAt oneHeld).spin? 1).any (fun r => match (ownAt oneHeld).fillFor 399 r longRun (.slice 0) with
      | some f => (ownAt oneHeld).fillLocal r f | none => false) = true ∧ longRun.spin = fill0.spin ∧ fill0.fill = some (.slice 0) := by decide +kernel
theorem witness_HankSteps_run :
    ((longAt {}).hank 399).run = some longRun ∧ (((longAt {}).spin? 1).map (fun r => r.desc)) = some longDesc ∧
    (longDesc.bobsNeeded ((longAt {}).spindles 399) longRun).contains 0 = true ∧ (NMap.getD ((longAt {}).hank 399).bobs [] 0).length = 0 ∧
    0 < (longAt {}).fld (pg cBOB 399) PgBOB.CFG_LOOKAHEAD ∧ 0 + longRun.step < longDesc.steps ∧ (longAt {}).mayStep 399 ((longAt {}).hank 399) longRun = true ∧
    longDesc.ready ((longAt {}).spindles 399) ((longAt {}).hank 399) longRun = false := by decide +kernel
theorem witness_HankSteps_step :
    ((longAt longFull).hank 399).run = some longRun ∧ (longAt longFull).mayStep 399 ((longAt longFull).hank 399) longRun = true ∧
    longDesc.ready ((longAt longFull).spindles 399) ((longAt longFull).hank 399) longRun = true ∧ longRun.step + 1 < longDesc.steps ∧
    natBit ((longAt longFull).spindles 399) (((longAt longFull).hank 399).steps % 64) = true ∧ (longAt longFull).checkOk 399 = true ∧ longDesc.startReady ((longAt longFull).hank 399) longRun = true ∧
    ({ longDesc with flags := 2 ^ 12 } : PatDesc).startReady ((longAt {}).hank 399) longRun = false ∧ ((longAt longFull).hank 399).bobFail = false ∧
    ((longAt { longFull with bobFail := true }).hank 399).bobFail = true := by decide +kernel
theorem witness_HankSteps_checks :
    ((tiled.setHank 399 { tiled.hank 399 with check := 1 }).hank 399).check = 1 ∧ ((tiled.setHank 399 { tiled.hank 399 with check := 2 }).hank 399).check = 2 ∧
    (tiled.hank 399).check ≠ 1 ∧ ({ longRun with step := 5 } : TileRun).step % 1024 ≠ 0 ∧ longRun.step % 1024 = 0 ∧ longRun.edge = true ∧ ((longAt {}).setFld (pg cBOB 399) PgBOB.CFG_LOOKAHEAD 0).fld (pg cBOB 399) PgBOB.CFG_LOOKAHEAD ≤ 0 := by decide +kernel
def drain0 : Drain := ⟨0, 0, 0, 0, [], [], 0⟩
def merging : State :=
  { placed with dsp := { placed.dsp with spins := placed.dsp.spins.map (fun r => { r with merges := [(399, 0, 0)] }) } }
theorem witness_HankSteps_drains :
    ((placed.setHank 399 { drains := [drain0] }).hank 399).drains = [drain0] ∧ (placed.spin? (placed.dsp.nextSpin - 1)).isSome = true ∧ drain0.ends < 2 ∧
    (merging.dsp.spins.findSome? (fun r => (r.merges.find? (fun m => m.1 = 399)).map (fun m => (r, m)))).isSome = true ∧ merging.dsp.fills = [] ∧
    merging.stopped (pg cHNK 399) = false ∧ (∃ x ∈ [(([] : List Byte), true)], x.2 = true) := by decide +kernel

def qOn (x : QueueSt) : State :=
  let s := ((idle cDSP 1).setFld (pg cPRT 1) PgPRT.DSP_QUOTA_QUEUE_BASE 16).setFld (pg cPRT 1) PgPRT.DSP_QUOTA_QUEUE_COUNT 2
  let s := ((s.setFld (pg cPRT 1) PgPRT.DSP_EVT_EVT_BASE 64).setFld (pg cPRT 1) PgPRT.DSP_EVT_EVT_COUNT 64).setFld (pg cPRT 1) PgPRT.DSP_QUOTA_TASKS 100
  { s with dsp := { s.dsp with queues := [(17, x)] }, atu := { s.atu with ctx := [(3, some ⟨7, 1, false, false, 0⟩)] } }
def qArgs : State := ((qOn {}).setWord (pg cDSP 1) 0x110 (BitVec.ofNat 64 0x1000)).setFld (pg cDSP 1) PgDSP.QARG1_PASID 7 |>.setFld (pg cDSP 1) PgDSP.QARG1_LOG2_SIZE 4 |>.setFld
  (pg cDSP 1) PgDSP.QARG1_SPAN 1
theorem witness_QueuesAndEvents :
    (qOn {}).opens .mgmt cDSP 1 = true ∧ ((qOn {}).setFld (pg cDSP 1) PgDSP.QCMD_BUSY 1).flag (pg cDSP 1) PgDSP.QCMD_BUSY = true ∧ (qOn {}).queueIn 1 15 = false ∧
    (qOn {}).queueIn 1 17 = true ∧ ((qOn {}).queue 17).st = .absent ∧ ((qOn act).queue 17).st = .active ∧ qArgs.opens .mgmt cDSP 1 = true ∧
    qArgs.ownsPasid 1 (qArgs.fld (pg cDSP 1) PgDSP.QARG1_PASID) = true ∧ qArgs.fld (pg cDSP 1) PgDSP.QARG1_LOG2_SIZE = 4 ∧ qArgs.fld (pg cDSP 1) PgDSP.QARG1_SPAN = 1 ∧
    qArgs.fld (pg cDSP 1) PgDSP.QARG0_RING_BASE = 0x1000 ∧ qArgs.reserved 1 + 1 ≤ qArgs.fld (pg cPRT 1) PgPRT.DSP_QUOTA_TASKS ∧ qArgs.fld (pg cDSP 1) PgDSP.QARG1_SITE_MASK = 0 ∧
    ((qOn { act with st := .stoppedErr }).queue 17).st = .stoppedErr ∧ ((qOn { act with destroying := true }).queue 17).destroying = true ∧
    (qOn { act with destroying := true }).liveIn 17 = 0 ∧ (qOn {}).eventIn 1 127 = true ∧ (qOn {}).eventIn 1 128 = false := by decide +kernel
def qHost (x : QueueSt) : State := { linked with dsp := { linked.dsp with queues := [(17, x)] } }
/-- A posted write of the host is on its way to its home. -/
def writingHost : State := { qHost act with joins := [{ id := 1, kind := .host 64 0 true, left := 1 }], nextJoin := 2 }
theorem witness_QueuesAndEvents_doorbells :
    (qHost act).postedBefore (qHost act).nextJoin = false ∧ writingHost.postedBefore writingHost.nextJoin = true ∧ writingHost.hostReach = true ∧ writingHost.ideShut = false ∧ (qHost act).hostReach = true ∧ (qHost act).ideShut = false ∧ ((qHost act).queue 17).st ≠ .absent ∧
    ((qHost act).queue 17).destroying = false ∧ 18 % 2 ^ 32 ≠ ((qHost act).queue 17).tail ∧
    (18 % 2 ^ 32 + 2 ^ 32 - ((qHost act).queue 17).head) % 2 ^ 32 ≤ 2 ^ ((qHost act).queue 17).log2 ∧
    (18 % 2 ^ 32 + 2 ^ 32 - ((qHost act).queue 17).tail) % 2 ^ 32 < 2 ^ 31 ∧ 2 ^ ((qHost act).queue 17).log2 < (19 + 2 ^ 32 - ((qHost act).queue 17).head) % 2 ^ 32 ∧
    (2 : Nat) ^ 14 ≤ ((qOn {}).setFld (pg cDSP 1) PgDSP.EVT_DATA_COUNT 0x4000).fld (pg cDSP 1) PgDSP.EVT_DATA_COUNT ∧
    ({ qOn { act with destroying := true } with dsp := { (qOn { act with destroying := true }).dsp with tasks := [{ tk 2 [] with id := ⟨17, 4⟩ }] } } : State).liveIn 17 ≠ 0 := by
  decide +kernel
/-- A WAIT task descriptor of event 64 with one predecessor. -/
def taskB (pred ty : Nat) : List Byte := descOf 128 [(0, BitVec.ofNat 8 ty), (4, BitVec.ofNat 8 pred), (0x30, 64)]
theorem witness_TaskLife_fetch :
    (qOn act).saf.stopped = false ∧ ((qOn act).queue 17).head ≠ ((qOn act).queue 17).tail ∧ (qOn act).roomFor 17 = true ∧ (taskB 1 6).length = 128 ∧
    (qOn act).readObj 1 (0x1000 + 2 % 2 ^ 4 * 128) 128 none = none ∧ (qOn act).readObj 1 (0x1000 + 2 % 2 ^ 4 * 128) 128 (some (taskB 1 6)) = some (taskB 1 6) ∧
    checkOk (List.replicate 128 1) = false ∧ checkOk (taskB 1 6) = true ∧ (qOn act).formatOk 1 8 (taskB 1 6) = true ∧ (qOn act).formatOk 1 8 (taskB 1 0) = false ∧
    fieldAt (taskB 1 6) 0 1 ≠ 2 ∧ fieldAt (taskB 1 6) 4 2 ≠ 0 ∧ (qOn act).task? ⟨17, 2⟩ = none ∧ ((qOn { act with tail := 2 }).queue 17).head = ((qOn { act with tail := 2 }).queue 17).tail := by
  decide +kernel
def dmaOn (t : TaskSt) : State := (at_ (readyT t) cDMA 63 stIDLE).setFld (pg cDMA 63) PgHDR.OWNER_PARTITION 1
theorem witness_TaskLife_dispatch :
    ((dmaOn (tk 2 [])).pick 2 (fun t => (List.range 64).any (fun d => (dmaOn (tk 2 [])).dmaFree t.part d))).map Prod.fst = some (tk 2 []) ∧
    (List.range 64).find? (fun d => (dmaOn (tk 2 [])).dmaFree 1 d) = some 63 ∧ ((readyT (tk 6 [])).pick 6 (fun _ => true)).map Prod.fst = some (tk 6 []) ∧
    ((readyT (tk 7 [0])).pick 7 (fun _ => ((readyT (tk 7 [0])).dsp.tasks.filter (fun t => t.ty = 7 && t.phase = .dispatched)).length < 16)).map Prod.fst = some (tk 7 [0]) ∧
    (tk 7 [0]).scope = 0 ∧ ((readyT (tk 3 [0, 0])).pick 3 (fun t => !(readyT (tk 3 [0, 0])).funcBound 0 0 t.part)).map Prod.fst = some (tk 3 [0, 0]) ∧
    (readyT (tk 3 [0, 0])).funcBound 0 0 1 = false := by decide +kernel
def phased (ty : Nat) (ph : TaskPhase) (rs : List Nat) : TaskSt := { tk ty [] with phase := ph, refs := rs }
def flush0 : HostReq := { heldReq with kind := .flush, task := some ⟨0, 0⟩ }
theorem witness_TaskLife_ends :
    (readyT (phased 2 .dispatched [])).task? ⟨0, 0⟩ = some (phased 2 .dispatched []) ∧ ((readyT (phased 2 .dispatched [])).queue 0).destroying = false ∧
    (readyT (phased 2 .dispatched [])).taskQuiet ⟨0, 0⟩ = true ∧
    ({ readyT (phased 2 .dispatched []) with host := { State.reset.host with reads := [flush0] } } : State).taskQuiet ⟨0, 0⟩ = false ∧
    (readyT (phased 2 .dispatched [])).mayEnd (phased 2 .dispatched []) = true ∧
    ({ readyT (phased 2 .dispatched []) with host := { State.reset.host with reads := [flush0] } } : State).mayEnd (phased 2 .dispatched []) = false ∧
    1 % 256 ≠ 0 ∧ (readyT (phased 7 .dispatched [])).joins.any (fun j => decide (j.kind = JoinKind.record ⟨0, 0⟩)) = false ∧ (phased 7 .dispatched []).sent = false ∧
    0 < ((readyT (tk 2 [])).setFld (pg cDSP 1) PgDSP.CFG_AGE_US 4).fld (pg cDSP 1) PgDSP.CFG_AGE_US ∧ (phased 2 .walking [0]).refs = 0 :: [] ∧ (2 * 2 ^ 30 + 5) / 2 ^ 30 = 2 ∧
    ({ phased 2 .walking [] with block := 64 } : TaskSt).block ≠ 2 ^ 64 ∧ (readyT (phased 7 .dispatched [])).fenceDone (phased 7 .dispatched []) = true ∧
    ({ readyT (phased 7 .dispatched []) with host := { State.reset.host with reads := [flush0] } } : State).fenceDone (phased 7 .dispatched []) = false := by decide +kernel

def strandAt (g st : Nat) (x : StrandSt) : State := { State.reset.setStrandState g st with fab := { State.reset.fab with strands := [(g, x)] } }
def fr0 : FabFrame := ⟨0, false, false, false, false, false, 0, 5, 0, 0, [], none⟩
def jobbed : State :=
  let s := ((State.reset.setFld (pg cPRT 1) PgPRT.JOB_VALID 1).setFld (pg cPRT 1) PgPRT.JOB_TAG 9).setFld (pg cPRT 1) PgPRT.DSP_EVT_EVT_BASE 64
  s.setFld (pg cPRT 1) PgPRT.DSP_EVT_EVT_COUNT 64
def e2e0 : E2eOut := { id := 3, pkt := { pktOf 1 true with dst := 7, dpart := 2 } }
def sent0 : State := { jobbed with fab := { jobbed.fab with e2e := [e2e0] } }
theorem witness_FabricLinks_frames :
    State.reset.strandState 23 = ssDOWN ∧ (strandAt 23 ssUP {}).strandState 23 = ssUP ∧ (∀ f ∈ [fr0], f.seq ≠ 4) ∧
    ((strandAt 23 ssUP {}).strand 23).unacked = [] ∧ ((strandAt 23 ssUP { unacked := [fr0] }).strand 23).unacked ≠ [] ∧ (strandAt 23 ssUP { unacked := [fr0] }).strandUp 23 = true ∧
    (strandAt 23 ssRETRAINING {}).strandState 23 = ssRETRAINING ∧ (strandAt 23 ssTRAINING {}).strandState 23 = ssTRAINING ∧
    (strandAt 23 ssNO_PEER {}).strandState 23 = ssNO_PEER ∧ 0 ≤ State.reset.fld (pg cFAB 5) PgFAB.SPARE_CFG_CE_LIMIT ∧
    (strandAt 23 ssUP {}).fab.lockLost.contains (5 * 17 + 15) = false ∧ (strandAt 23 ssUP {}).strandState (4 * 5 + 15 / 4) = ssUP := by decide +kernel
theorem witness_FabricLinks_packets :
    State.reset.jobMatches (pktOf 1 false) = false ∧ jobbed.jobMatches (pktOf 1 true) = true ∧ (pktOf 1 true).ackReq = true ∧
    ({ jobbed with fab := { jobbed.fab with applied := [(7 * 16 + 2, 4, 0)] } } : State).appliedStatus (pktOf 1 true) = some 0 ∧ jobbed.eventIn 1 (pktOf 3 true).arg16 = true ∧
    (jobbed.pktParts (pktOf 1 false)).isSome = true ∧ (pktOf 7 false).ty = 7 ∧
    sent0.fab.e2e.find? (fun e => e.pkt.e2e = (pktOf 2 false).e2e && e.pkt.dst = (pktOf 2 false).src && e.pkt.dpart = (pktOf 2 false).spart) = some e2e0 ∧
    e2e0.task = none ∧ State.reset.fab.e2e = [] ∧ sent0.fab.e2e.find? (fun e => e.id = 3) = some e2e0 ∧
    (sent0.setFld (pg cFAB 0) PgFAB.E2E_RETRIES 0).fld (pg cFAB 0) PgFAB.E2E_RETRIES ≤ e2e0.tries ∧
    e2e0.tries < (sent0.setFld (pg cFAB 0) PgFAB.E2E_RETRIES 1).fld (pg cFAB 0) PgFAB.E2E_RETRIES := by decide +kernel
def fabOn : State := idle cFAB 5
def ownedHub : State := { (List.range 6).foldl (fun s a => s.setFld (pg cFAB a) PgFAB.CFG_MODE 1) (idle cPRT 1) with rot := { State.reset.rot with owner := some ⟨1, ⟨[], true, true, false⟩⟩ } }
theorem witness_FabricLinks_modes :
    fabOn.opens .mgmt cFAB 5 = true ∧ fabOn.quiet (pg cFAB 5) = true ∧ (fabOn.setFld (pg cFAB 5) PgFAB.TEST_START 1).flag (pg cFAB 5) PgFAB.TEST_START = true ∧
    fabOn.flag (pg cFAB 5) PgFAB.TEST_START = false ∧ (fabOn.setFld (pg cFAB 5) PgFAB.TEST_START 1).fab.testWait.contains 5 = false ∧ fabOn.fabModeBad true = false ∧
    jobbed.fabModeBad false = true ∧ (idle cPRT 1).opens .mgmt cPRT 1 = true ∧ (idle cPRT 1).quiet (pg cPRT 1) = true ∧ (idle cPRT 1).jobBad true 9 = true ∧
    ownedHub.jobBad true 9 = false ∧ ownedHub.opens .mgmt cPRT 1 = true ∧ ownedHub.quiet (pg cPRT 1) = true := by decide +kernel
/-- Site 1 is up, its function 2 bound to partition 3; channel 63 carries messages. -/
def siteUp1 (t : SiteSt) : State :=
  let s := ({ idle cSIT 1 with site := [(1, t)] } : State).setFld (pg cSIT 1) PgSIT.LINK_STATE slUP
  let s := s.setFld (pg cSIT 1) PgSIT.FUNCS_PRESENT 4
  (s.setActWord (pg cSIT 1) (PgSIT.FUNC_ENABLE 2).off (BitVec.ofNat 64 (2 ^ (PgSIT.FUNC_ENABLE 2).lo + 3 * 2 ^ (PgSIT.FUNC_PART 2).lo)))
def ch63 : AspChan := { cr := [0, 0, 16, 32, 48, 6, 2] }
def st1 : SiteSt := { peer := 2, hub := 2, chans := [(63, ch63)], dropped := false }
def msg (op ak addr : Nat) : AspMsg := { op := op, func := 2, tag := 5, ak := ak, addr := addr, len := 4, arg8 := 0 }
theorem witness_SiteLinks_status :
    (State.reset.absent (.site 3) = false) ∧ ((siteUp1 { st1 with peer := 1 }).siteSt 1).peer ≠ 2 ∧ ((siteUp1 st1).siteSt 1).peer = 2 ∧ (siteUp1 st1).siteLink 1 = slUP ∧
    ((siteUp1 { st1 with dropped := true }).siteSt 1).dropped = true ∧ (siteUp1 st1).opens .mgmt cSIT 1 = true ∧ natBit (2 ^ 63) 63 = true ∧ (siteUp1 st1).chanIn 1 63 = true ∧
    ((siteUp1 { st1 with chans := [(63, { ch63 with retraining := true })] }).chan 1 63).retraining = true ∧ (siteUp1 st1).chanUp 1 63 = true ∧
    ((siteUp1 st1).chan 1 63).badSeq ≠ some ((siteUp1 st1).chan 1 63).rxSeq ∧
    ((siteUp1 { st1 with chans := [(63, { ch63 with badSeq := some 0 })] }).chan 1 63).badSeq = some 0 ∧
    ((siteUp1 { st1 with chans := [(63, { ch63 with unacked := [{ seq := 3 }] })] }).chan 1 63).unacked ≠ [] := by decide +kernel
def siteTask7 : SiteTask := { handle := 7, task := ⟨0, 0⟩, part := 3, func := 2 }
theorem witness_SiteLinks_requests :
    ((siteUp1 { st1 with invs := [(9, some 4, 63)] }).siteSt 1).invs.find? (fun i => i.1 = 9) = some (9, some 4, 63) ∧
    ((siteUp1 st1).setFld (pg cSIT 1) PgSIT.TASK_CFG_TASK_TIMEOUT_MS 1).fld (pg cSIT 1) PgSIT.TASK_CFG_TASK_TIMEOUT_MS ≠ 0 ∧
    ((siteUp1 { st1 with tasks := [siteTask7] }).siteSt 1).tasks.find? (fun t => t.handle = 7 && !t.late) = some siteTask7 ∧
    ((siteUp1 st1).setFld (pg cSIT 1) PgSIT.CFG_CMD_BUSY 1).flag (pg cSIT 1) PgSIT.CFG_CMD_BUSY = true ∧ (siteUp1 st1).flag (pg cSIT 1) PgSIT.CFG_CMD_BUSY = false ∧
    natBit ((siteUp1 st1).siteFuncs 1) (3 % 8) = false ∧ natBit ((siteUp1 st1).siteFuncs 1) (2 % 8) = true ∧
    ((siteUp1 st1).setFld (pg cSIT 1) PgHDR.PAGE_CTRL_QUIESCE_REQ 1).flag (pg cSIT 1) PgHDR.PAGE_CTRL_QUIESCE_REQ = true ∧
    (siteUp1 st1).pageState (pg cSIT 1) = stIDLE ∧ (siteUp1 st1).flag (pg cSIT 1) PgSIT.TEST_START = false ∧
    ((siteUp1 st1).setFld (pg cSIT 1) PgSIT.TEST_START 1).flag (pg cSIT 1) PgSIT.TEST_START = true := by decide +kernel
theorem witness_SiteMessages_requests :
    (siteUp1 st1).carries 1 63 0x02 (msg 0x01 3 0) = false ∧ (siteUp1 st1).carries 1 63 0x01 (msg 0x01 3 0) = true ∧
    (siteUp1 { st1 with chans := [(63, { ch63 with tags := [5] })] }).tagRoom 1 63 (msg 0x01 3 0) = false ∧ (siteUp1 st1).tagRoom 1 63 (msg 0x01 3 0) = true ∧
    (siteUp1 st1).funcMay 1 63 { msg 0x01 3 0 with func := 3 } = false ∧ (siteUp1 st1).funcMay 1 63 (msg 0x01 3 0) = true ∧
    (((siteUp1 st1).tagged 1 63 (msg 0x01 3 0)).physAddr 1 (msg 0x04 3 0) 0).isSome = true ∧
    ((siteUp1 st1).tagged 1 63 (msg 0x01 3 (2 ^ 63))).physAddr 1 (msg 0x04 3 (2 ^ 63)) (2 ^ 63) = none ∧
    ((siteUp1 st1).tagged 1 63 (msg 0x05 0 0)).ownsPasid 3 0 = false := by decide +kernel
theorem witness_SiteMessages_services :
    ({ siteUp1 st1 with atu := { State.reset.atu with ctx := [(2, some ⟨0, 3, false, false, 0⟩)] } } : State).ownsPasid 3 0 = true ∧
    (siteUp1 st1).carries 1 63 0x0A (msg 0x0A 0 0) = true ∧ (siteUp1 st1).carries 1 63 0x0B (msg 0x0B 0 (17 * 2 ^ 32)) = true ∧
    natBit (({ siteUp1 st1 with dsp := { State.reset.dsp with queues := [(17, { act with siteMask := 2 })] } } : State).queue 17).siteMask 1 = true ∧
    natBit ((siteUp1 st1).queue 17).siteMask 1 = false ∧ (siteUp1 st1).carries 1 63 0x0D (msg 0x0D 0 0) = true ∧ (siteUp1 st1).carries 1 63 0x0E (msg 0x0E 0 0) = true ∧
    (siteUp1 st1).carries 1 63 0x0F (msg 0x0F 3 0) = true ∧ (siteUp1 st1).siteHome 1 (msg 0x0F 3 0) false = none ∧ (siteUp1 st1).carries 1 63 0x10 (msg 0x10 3 0) = true := by
  decide +kernel
def snpTxn (ph : TxnPhase) : Txn := { id := 4, slice := 2, line := 1, part := 3, req := some { acc := accOf (.dpa 64) 8 3, op := .read, coh := .rdShared, agent := 1 }, snoops := [⟨1, .inv, false⟩], phase := ph, idx := 6 }
def siteTxn (ph : TxnPhase) : State := { siteUp1 st1 with mem := { State.reset.mem with txns := [snpTxn ph] } }
theorem witness_SiteMessages_answers :
    (siteUp1 st1).carries 1 63 0x30 (msg 0x30 3 0) = true ∧ (siteUp1 st1).txnByTag 1 5 = none ∧ ((siteTxn .snoop).txnByTag 1 (2 * 128 + 6)).map (fun k => decide (k.phase = .place)) = some false ∧
    ((siteTxn .place).txnByTag 1 (2 * 128 + 6)).map (fun k => decide (k.phase = .place)) = some true ∧ (siteUp1 st1).carries 1 63 0x36 (msg 0x36 3 0) = true ∧ (snpTxn .ack).phase = .ack ∧
    (siteUp1 st1).carries 1 63 0x41 { msg 0x41 3 0 with fwdTo := 63, fwdSite := 1 } = true ∧ natBit 63 7 = false ∧ natBit 128 7 = true ∧
    (siteUp1 st1).carries 1 63 0x37 (msg 0x37 3 0) = true ∧ (siteTxn .place).filterFree 2 1 ≠ none ∧ (siteUp1 st1).carries 1 63 0x39 (msg 0x39 3 0) = true := by decide +kernel

def timeAt (st : Nat) (t : TimeSt) : State :=
  { ((idle cMGT 0).setFld pMGT PgMGT.TIME_STATUS_STATE st).setFld pMGT PgMGT.TIME_STATUS_PARENT 11 with mil := { State.reset.mil with time := t } }
def rootAt (st : Nat) : State := (timeAt st {}).setFld pMGT PgMGT.TIME_CFG_ROOT 1
theorem witness_TimeTree :
    (timeAt tmOFF {}).opens .mgmt cMGT 0 = true ∧ (timeAt tmMEASURING {}).timeState = tmMEASURING ∧
    ({ (timeAt tmMEASURING {}).setStrandState 20 ssUP with fab := {} } : State).portUp 10 = true ∧ NMap.find? (timeAt tmMEASURING {}).mil.time.delay 10 = none ∧
    (NMap.getD (timeAt tmMEASURING {}).mil.time.samples [] 10).length < 1023 ∧ (timeAt tmLOCKING {}).isRoot = false ∧ (timeAt tmLOCKING {}).parentPort = some 11 ∧
    (timeAt tmLOCKING {}).timeState = tmLOCKING ∧ (timeAt tmRUNNING {}).timeState = tmRUNNING ∧ (timeAt tmRUNNING { children := [(4, none)] }).childPorts.contains 4 = true ∧
    (rootAt tmLOCKING).isRoot = true ∧ (timeAt tmLOST {}).timeState ≠ tmOFF := by decide +kernel
def ent2 : SchedEnt := ⟨0, 1, 2, true, 1, 0, 64, 0, 0, 0, 0⟩
def milWith (x : MilPort) : State := { timeAt tmRUNNING {} with mil := { State.reset.mil with ports := [(11, x)] } }
def run0 : MilRun := { ent := 0, occ := 2 ^ 48 - 1, need := 64 }
theorem witness_Boundaries :
    (timeAt tmRUNNING {}).tick ≤ 5 ∧ (timeAt tmRUNNING { epoch := some 0 }).mil.time.epoch = some 0 ∧ (timeAt tmRUNNING {}).tick < 9 ∧ (rootAt tmRUNNING).isRoot = true ∧
    (timeAt tmRUNNING { go := [(3, 0, 7)] }).mil.time.go = (3, 0, 7) :: [] ∧
    ((milWith { active := some ⟨9, 1, [ent2]⟩, runs := [run0] }).milPort 11).ent? 0 = some ent2 ∧
    ((milWith { active := some ⟨9, 1, [ent2]⟩, runs := [run0] }).milPort 11).runs.find? (fun r => r.ent = 0 && r.endTick = none &&
      0 ≤ msDiff (milWith {}).msNow ((r.occ + ent2.span) % 2 ^ 48)) = some run0 ∧ ent2.kind = 2 ∧
    ((timeAt tmRUNNING {}).setFld pGLB PgGLB.TICK_NOW_TICK 401).held = true ∧ (timeAt tmRUNNING {}).held = false ∧
    ((milWith { active := some ⟨9, 1, [ent2]⟩, runs := [{ run0 with endTick := some 4 }] }).milPort 11).runs.any (fun r => r.ent = 0 && r.endTick ≠ none &&
      decide (r.moved < r.need)) = true := by decide +kernel
def milOn : State := idle cMIL 11
def colOn : State := idle cCOL 0
/-- PLY_ARG names a gather window, whose bytes only its engine gives. -/
def colWin : State := colOn.setFld pCOL PgCOL.PLY_ARG_DESC 0x100000000
/-- A ply of one member: algorithm 0, job 9, this node. -/
def plyB : List Byte := descOf 64 [(0, 1), (4, 9)]
def ply1 : Ply := { alg := 0, sched := false, part := 0, job := 9, origin := 0, extent := 0, order := 0, scratch := 0 }
theorem witness_SchedulesAndPlies :
    milOn.opens .mgmt cMIL 11 = true ∧ milOn.flag (pg cMIL 11) PgMIL.LOAD_CMD_BUSY = false ∧ milOn.milCommit 11 = false ∧
    (milOn.setFld (pg cMIL 11) PgHDR.PAGE_STATE_COMMIT_BUSY 1).milCommit 11 = true ∧ (milOn.setFld (pg cMIL 11) PgHDR.PAGE_STATE_COMMIT_BUSY 1).opens .mgmt cMIL 11 = true ∧
    (milOn.setFld (pg cMIL 11) PgMIL.LOAD_CMD_BUSY 1).flag (pg cMIL 11) PgMIL.LOAD_CMD_BUSY = true ∧ colOn.opens .mgmt cCOL 0 = true ∧
    colOn.flag pCOL PgCOL.PLY_CMD_BUSY = false ∧ checkOk (plyB.take 64) = true ∧ checkOk ((List.replicate 64 (1 : Byte)).take 64) = false ∧
    colOn.ply? 1023 = none ∧ colOn.plyInUse 1023 = false ∧ (readyT (tk 5 [255, 3])).plyInUse 1023 = true := by decide +kernel
def collRun0 : CollRun := { task := ⟨0, 0⟩, ply := 1023, op := 0, dtype := 0, steps := [], input := [], result := [], srcBase := 0, srcPages := [], dstBase := 0, dstPages := [], phase := 1 }
def colling : State := { State.reset with mil := { State.reset.mil with plies := [(1023, some ply1)], colls := [collRun0] } }
theorem witness_SchedulesAndPlies_tasks :
    (((colOn.setFld pCOL PgCOL.PLY_CMD_PLY 1023).plyOf plyB)).isSome = true ∧
    (colWin.setFld pCOL PgCOL.PLY_CMD_PLY 1023).plyDesc (some plyB) = some plyB ∧ ((colWin.setFld pCOL PgCOL.PLY_CMD_PLY 1023).plyOf plyB).isSome = true ∧
    (colWin.setFld pCOL PgCOL.PLY_CMD_PLY 1023).plyDesc (some (List.replicate 64 1)) = some (List.replicate 64 1) ∧
    colWin.opens .mgmt cCOL 0 = true ∧ colWin.flag pCOL PgCOL.PLY_CMD_BUSY = false ∧ colWin.ply? 1023 = none ∧ colWin.plyInUse 1023 = false ∧
    ((readyT (tk 4 [11])).pick 4 (fun t => (readyT (tk 4 [11])).milBound (t.body.getD 0 0).toNat < 1024)).map Prod.fst = some (tk 4 [11]) ∧
    ((readyT (tk 5 [255, 3])).pick 5 (fun t => let k := leNat (t.body.take 2)
      (readyT (tk 5 [255, 3])).mil.colls.length < 16 && !(readyT (tk 5 [255, 3])).mil.colls.any (fun c => c.ply = k) &&
        (List.range 12).all (fun p => !(match ((readyT (tk 5 [255, 3])).milPort p).active with | some _ => true | none => false)))).map Prod.fst = some (tk 5 [255, 3]) ∧
    State.reset.jobMatches (pktOf 4 false) = false ∧ colling.coll? ⟨0, 0⟩ = some collRun0 ∧ colling.ply? 1023 = some ply1 ∧ ply1.sched = false := by decide +kernel
def imgAt (st : Nat) (x : ImgSt) : State := { (idle cMGT 0).setFld pMGT PgMGT.IMG_STATUS_STATE st with mil := { State.reset.mil with img := x } }
theorem witness_Images :
    (imgAt imIDLE {}).opens .mgmt cMGT 0 = true ∧ (imgAt imIDLE {}).childPorts = [] ∧ (imgAt imRECEIVING { image := 65535, held := [3] }).imgState = imRECEIVING ∧
    (imgAt imRECEIVING { image := 65535, held := [3] }).mil.img.held.contains ((3 * 4096 + 4095) / 4096) = true ∧
    (imgAt imRECEIVING { image := 65535 }).mil.img.held.contains 0 = false ∧ (imgAt imRECEIVING { image := 65535 }).imgState ≠ imIDLE ∧
    (imgAt imREPAIRING { asking := some (2, [11]) }).imgState = imREPAIRING ∧ (imgAt imREPAIRING { asking := some (2, [11]) }).mil.img.asking = some (8192 / 4096, [11]) ∧
    ([11] : List Nat).getLast? = some 11 ∧ (∀ c, c < 1 → (imgAt imRECEIVING { held := [0] }).mil.img.held.contains c = true) ∧
    (imgAt imREPAIRING { chunks := 1, held := [0] }).mil.img.missing = [] ∧ (imgAt imREPAIRING { chunks := 2, held := [0] }).mil.img.missing ≠ [] ∧
    ((imgAt imREPAIRING { chunks := 2 }).setFld pMGT PgMGT.IMG_STATUS_ROUND 3).fld pMGT PgMGT.IMG_STATUS_ROUND = 3 := by decide +kernel

def ethOn (e : Nat) (x : EthPortSt) : State :=
  { (idle cETH e).setFld (pg cETH e) PgETH.STATUS_LINK_UP 1 with eth := { State.reset.eth with ports := [(e, x)] } }
theorem witness_EthernetTraffic_frames :
    State.reset.ethUp 1 = false ∧ (ethOn 1 {}).ethUp 1 = true ∧ 1024 * 1024 < ((ethOn 1 { buf := [(0, 1024 * 1024)] }).ethPort 1).bytes + 1 ∧
    ((ethOn 1 {}).ethPort 1).bytes + 1024 * 1024 ≤ 1024 * 1024 ∧ State.reset.ethMayUp 1 = false ∧ (ethOn 1 {}).ethMayUp 1 = true ∧ State.reset.live (.eth 1) = true ∧
    ((ethOn 1 {}).ethPort 1).lane ≠ some 7 ∧ ((ethOn 1 { lane := some 7 }).ethPort 1).lane = some 7 := by decide +kernel
def qpWith (x : QpSt) : State := { idle cETH 0 with eth := { State.reset.eth with qps := [(16383, x)], mrs := [(5, some ⟨2, 6, 0, 7, 0, 4096⟩)] } }
def rts : QpSt := { st := 1, part := 2, rxPsn := 3, cqHead := 0, ctx := { rqLog := 4 }, rqTail := 2 }
def wqe0 : Wqe := ⟨true, false, 0, 0, 64, 0, 0, 0, 0, 77, true⟩
def req3 (psn len : Nat) : RdmaReq := ⟨psn, 5 * 256 + 6, 0, len, [], none, true, 0, 0, false, some wqe0, []⟩
/-- Rings in a granule of partition 1 that holds zeros. -/
def ringS : State := { cxlUp owned0 with eth := { State.reset.eth with
  qps := [(16383, { rts with part := 1, sqTail := 1, ctx := { sqBase := 2 ^ 63, rqBase := 2 ^ 63, rqLog := 4 } })] } }
def wrun : WqeRun := { idx := 0, op := 0, wqe := wqe0, psn := 0, packets := 1 }
theorem witness_EthernetTraffic_rdma :
    ((qpWith rts).takeFrame 0).qp 16383 = rts ∧ (req3 4 64).psn ≠ rts.rxPsn ∧ (4 + 2 ^ 24 - rts.rxPsn) % 2 ^ 24 < 2 ^ 23 ∧ 2 ^ 23 ≤ (2 + 2 ^ 24 - rts.rxPsn) % 2 ^ 24 ∧
    (qpWith rts).rdmaReady 16383 (req3 3 64) = true ∧ (let f := (qpWith rts).takeFrame 0; f.recvRoom 16383 (f.recvRead 16383 (req3 3 64))) = true ∧
    (let f := (qpWith { rts with rqTail := 0 }).takeFrame 0; f.recvRoom 16383 (f.recvRead 16383 (req3 3 64))) = false ∧
    (let f := ringS.takeFrame 0; f.recvRoom 16383 (f.recvRead 16383 (req3 3 64))) = false ∧ ringS.rdmaReady 16383 (req3 3 64) = true ∧
    (((qpWith rts).takeFrame 0).mrCheck 16383 1 (req3 3 64)).isSome = true ∧ ((qpWith rts).takeFrame 0).mrCheck 16383 1 (req3 3 5000) = none := by decide +kernel
theorem witness_EthernetTraffic_answers :
    ((qpWith rts).qp 16383).st = 1 ∧ ((qpWith {}).qp 16383).st ≠ 1 ∧ ((qpWith { rts with runs := [{ wrun with psn := 9 }] }).qp 16383).runs = { wrun with psn := 9 } :: [] ∧
    psnLe ({ wrun with psn := 9 } : WqeRun).lastPsn 3 = false ∧ ((qpWith rts).qp 16383).runs = [] ∧ ({ wrun with rnrWait := true } : WqeRun).rnrWait = true ∧
    (rts.ctx.retry ≤ wrun.tries + 1) ∧ wrun.tries + 1 < ({ rts.ctx with retry := 2 } : QpCtx).retry := by decide +kernel
/-- A queue pair context of port 1: rings at 0 in partition 2's space, no event. -/
def qpB : List Byte := descOf 128 [(0, 1), (1, 1), (2, 3), (0x20, 4), (0x22, 4), (0x24, 0xFF), (0x25, 0xFF), (0x27, 1), (0x34, 1), (4, 7)]
def ethCtx (x : QpSt) : State :=
  { (qpWith x).setFld (pg cPRT 2) PgPRT.ETH_QUOTA_QP_LIMIT 1 with atu := { State.reset.atu with ctx := [(3, some ⟨7, 2, false, false, 0⟩)] } }
/-- QP_ARG names a gather window, whose bytes only its engine gives. -/
def ethArg : State := ((ethCtx {}).setFld pETH PgETH.QP_CMD_PART 2).setFld pETH PgETH.QP_CMD_QP 16383
theorem witness_QueuePairs_commands :
    (idle cETH 0).opens .mgmt cETH 0 = true ∧ ((idle cETH 0).setFld pETH PgETH.QP_CMD_BUSY 1).flag pETH PgETH.QP_CMD_BUSY = true ∧
    ((idle cETH 0).setFld pETH PgETH.MR_CMD_BUSY 1).flag pETH PgETH.MR_CMD_BUSY = true ∧ checkOk (qpB.take 128) = true ∧
    (ethArg.qpCtxAt 2).getD (some qpB) = none ∧ ((ethArg.setFld pETH PgETH.QP_ARG_CTX 0x100000000).qpCtxAt 2).getD (some qpB) = some qpB ∧
    (qpCtxOf qpB).map (fun c => (c.port, c.event, c.pasid)) = some (1, 0xFFFF, 7) ∧ (ethCtx {}).live (.eth 1) = true ∧ ((ethCtx {}).qp 16383).st = 0 ∧
    (ethCtx {}).qpsOf 2 < (ethCtx {}).fld (pg cPRT 2) PgPRT.ETH_QUOTA_QP_LIMIT ∧ (ethCtx {}).ownsPasid 2 7 = true ∧ (ethCtx {}).ownsPasid 2 8 = false ∧
    ((ethCtx {}).setFld (pg cPRT 2) PgPRT.ETH_QUOTA_QP_LIMIT 0).fld (pg cPRT 2) PgPRT.ETH_QUOTA_QP_LIMIT ≤ (ethCtx {}).qpsOf 2 ∧
    ((ethCtx rts).qp 16383).st ≠ 0 ∧ ((ethCtx rts).qp 16383).part = 2 := by decide +kernel
theorem witness_QueuePairs_regions :
    (qpWith rts).flag pETH PgETH.MR_CMD_BUSY = false ∧ ((qpWith rts).setFld pETH PgETH.MR_ARG0_BASE (2 ^ 63 + 2 ^ 62)).fld pETH PgETH.MR_ARG0_BASE / 2 ^ 62 = 3 ∧
    (qpWith rts).fld pETH PgETH.MR_ARG0_BASE = 0 ∧ (qpWith rts).fld pETH PgETH.MR_ARG1_HINT = 0 ∧ (qpWith rts).mr 5 = some ⟨2, 6, 0, 7, 0, 4096⟩ ∧
    (2 : Nat) ≠ (qpWith rts).fld pETH PgETH.MR_ARG1_PART ∧ ((qpWith rts).setFld pETH PgETH.MR_ARG1_PART 2).fld pETH PgETH.MR_ARG1_PART = 2 ∧ (qpWith rts).mr 4 = none ∧
    ((qpWith rts).setFld (pg cPRT 0) PgPRT.ETH_QUOTA_MR_LIMIT 0).fld (pg cPRT 0) PgPRT.ETH_QUOTA_MR_LIMIT ≤ (qpWith rts).mrsOf 0 ∧
    (qpWith rts).mrsOf 0 < ((qpWith rts).setFld (pg cPRT 0) PgPRT.ETH_QUOTA_MR_LIMIT 1).fld (pg cPRT 0) PgPRT.ETH_QUOTA_MR_LIMIT := by decide +kernel
theorem witness_QueuePairs_rings :
    (16 + 2 ^ 32 - rts.sqHead) % 2 ^ 32 ≤ 2 ^ rts.ctx.sqLog ∧ (16 + 2 ^ 32 - rts.sqTail) % 2 ^ 32 < 2 ^ 31 ∧ ¬ ((17 + 2 ^ 32 - rts.sqHead) % 2 ^ 32 ≤ 2 ^ rts.ctx.sqLog) ∧
    (ringS.sendEntry 16383 2 wqe0).1 = 0 ∧ (ringS.sendEntry 16383 0 wqe0).2.checkOk = false ∧ (qpWith rts).sendEntry 16383 6 wqe0 = (6, wqe0) ∧
    ({ rts with sqTail := 1 } : QpSt).sqHead ≠ ({ rts with sqTail := 1 } : QpSt).sqTail ∧ (qpWith rts).accepts (pg cETH 0) = true ∧ State.reset.accepts (pg cETH 0) = false ∧
    natBit ((qpWith rts).ethPort 0).paused rts.ctx.prio = false ∧ rts.runs.any (fun r => 4 ≤ r.op) = false ∧
    (qpWith rts).wqeCheck 16383 0 { wqe0 with checkOk := false } (.ok [] [] false) ≠ 0 ∧ (qpWith rts).wqeCheck 16383 0 { wqe0 with length := 0 } (.ok [] [] false) = 0 := by
  decide +kernel
def cqe0 : Cqe := ⟨some 1, 0, 0, 0, 0, false⟩
theorem witness_QueuePairs_completions :
    ({ rts with cqes := [cqe0] } : QpSt).cqes = cqe0 :: [] ∧ cqe0.host = false ∧ 2 ^ rts.ctx.cqLog ≤ (16 + 2 ^ 32 - rts.cqHead) % 2 ^ 32 ∧
    (rts.cqTail + 2 ^ 32 - rts.cqHead) % 2 ^ 32 < 2 ^ rts.ctx.cqLog ∧ rts.dying = false ∧ rts.ctx.event = 0xFFFF ∧ rts.ctx.cqBase / 2 ^ 62 = 0 ∧
    (2 ^ 63 : Nat) / 2 ^ 62 ≠ 0 ∧ ((qpWith rts).setFld (pg cPRT 2) PgPRT.T2_WIN_T2_LEN 1).objWindow 2 (2 ^ 63 + 32 * 0) = some (.dpa 0) := by decide +kernel
def oneTick : State := { State.reset with pending := [.tokenRefill] }
theorem witness_StepRunsTheFront : oneTick.pending = .tokenRefill :: [] ∧ State.reset.pending = [] := by decide +kernel
/-- A step that is a command, from a state whose memories hold something. -/
def written : State := { oneTick with mem := { oneTick.mem with banks := [(3, 7)], hbm := [(2 ^ 40, 255)] } }
theorem witness_MemoryStaysCanonical :
    Memory.wf written.mem = true ∧ step written = .next (after .tokenRefill { written with pending := [] }) := ⟨by decide +kernel, rfl⟩
theorem witness_OtpBitsStay : step written = .next (after .tokenRefill { written with pending := [] }) := rfl


/-! ### Ill-formed commands, one for each check -/

theorem test_wf_pages :
    Instr.wf (.fenceSet .mgmt 32 0) = false ∧ Instr.wf (.quiesceReqSet .rot 3 2048) = false ∧ Instr.wf (.enableSet .hub 3 0) = false ∧
    Instr.wf (.quiesceComplete 40 0) = false ∧ Instr.wf (.paritySweep 3 5000 none) = false ∧ Instr.wf (.dmmFault 32 0 1) = false ∧
    Instr.wf (.ownerWrite .hub 3 0 1) = false ∧ Instr.wf (.dbgHalt .mgmt 3 2048) = false ∧ Instr.wf (.powerRequest .mgmt 32 0 1) = false ∧
    Instr.wf (.fenceSet .mgmt 3 399) = true := by decide

theorem test_wf_register_accesses :
    Instr.wf (.registerWrite .mgmt 2 4 0) = false ∧ Instr.wf (.registerWrite .mgmt 8 2 0) = false ∧ Instr.wf (.registerWrite .mgmt 8 4 (2 ^ 32)) = false ∧
    Instr.wf (.registerWrite .hub 8 4 0) = false ∧ Instr.wf (.rcFieldRead .host 4 8) = false ∧ Instr.wf (.regRead 0 12 8) = false ∧
    Instr.wf (.regWrite 0 8 8 (2 ^ 64)) = false ∧ Instr.wf (.dmmCfgWrite .mgmt 8 true 0) = false ∧ Instr.wf (.spFenceWrite .mgmt 0 4 true (2 ^ 32)) = false ∧
    Instr.wf (.intTestWrite .mgmt 3 0 2 false 0) = false ∧ Instr.wf (.invalidAccess .hub 0 3 false) = false ∧
    Instr.wf (.registerWrite .mgmt 8 8 (2 ^ 64 - 1)) = true ∧ Instr.wf (.dmmCfgWrite .mgmt 4 true 0) = true := by decide

theorem test_wf_units :
    Instr.wf (.floorPlanChange (.hank 400) .fused 0) = false ∧ Instr.wf (.floorPlanChange (.spindle 0 64) .fused 0) = false ∧
    Instr.wf (.floorPlanChange (.slice 400) .fused 0) = false ∧ Instr.wf (.floorPlanChange (.router 448) .fused 0) = false ∧
    Instr.wf (.floorPlanChange (.hbmCh 8 0) .fused 0) = false ∧ Instr.wf (.floorPlanChange (.hbmCh 0 32) .fused 0) = false ∧
    Instr.wf (.floorPlanChange (.hbmAtt 8) .fused 0) = false ∧ Instr.wf (.floorPlanChange (.site 4) .fused 0) = false ∧
    Instr.wf (.floorPlanChange (.siteCh 0 64) .fused 0) = false ∧ Instr.wf (.floorPlanChange (.lane 0 17) .fused 0) = false ∧
    Instr.wf (.floorPlanChange (.strand 6 0) .fused 0) = false ∧ Instr.wf (.floorPlanChange (.eth 2) .fused 0) = false ∧
    Instr.wf (.floorPlanChange (.optAtt 6) .fused 0) = false ∧ Instr.wf (.floorPlanChange (.spindle 399 63) .fenced 0) = true := by decide

theorem test_wf_tasks :
    Instr.wf (.taskDone ⟨4096, 0⟩ 0) = false ∧ Instr.wf (.taskDone ⟨0, 2 ^ 32⟩ 0) = false ∧ Instr.wf (.taskDone ⟨0, 0⟩ 256) = false ∧
    Instr.wf (.distaffArrival ⟨4096, 0⟩) = false ∧ Instr.wf (.fenceComplete ⟨4096, 0⟩ none) = false ∧ Instr.wf (.queueCreate .mgmt 16 0) = false ∧
    Instr.wf (.dbTail 0 (2 ^ 32)) = false ∧ Instr.wf (.dbEvent 0 16384) = false ∧ Instr.wf (.eventRead .mgmt 0 16384 .good) = false ∧
    Instr.wf (.taskDone ⟨4095, 2 ^ 32 - 1⟩ 255) = true := by decide

theorem test_wf_accesses :
    Instr.wf (.sectorRead (acc0 0 0) {}) = false ∧ Instr.wf (.sectorRead (acc0 32 64) {}) = false ∧ Instr.wf (.sectorRead (accOf (.t0 0) 64 16) {}) = false ∧
    Instr.wf (.sectorRead { acc0 0 64 with cls := 4 } {}) = false ∧ Instr.wf (.homeAccess (acc0 0 64) (.write [] 4) {}) = false ∧
    Instr.wf (.homeAccess (acc0 0 4) (.atomic 16 0 false []) {}) = false ∧ Instr.wf (.gatherRowReturn 400 0) = false ∧ Instr.wf (.gatherDescLoaded 0 4) = false ∧
    Instr.wf (.atomicAdd (acc0 63 2) 0 false [] {}) = false ∧ Instr.wf (.operandFill 0 (.slice 21) false) = false ∧ Instr.wf (.sectorRead (acc0 0 64) {}) = true := by decide

theorem test_wf_memory_commands :
    Instr.wf (.hbmCommandSlot 256 0 [] .good) = false ∧ Instr.wf (.hbmTempRead 8 0) = false ∧ Instr.wf (.alloc .mgmt 16 0 1 0) = false ∧
    Instr.wf (.tierEpoch 0 8) = false ∧ Instr.wf (.stageIssue 64) = false ∧ Instr.wf (.ctxBind .mgmt 4096) = false ∧
    Instr.wf (.translate 87 0 none 0 0 0 true false 0) = false ∧ Instr.wf (.translate 0 0 none 0 1048576 0 true false 0) = false ∧
    Instr.wf (.translate 0 0 none 0 0 (2 ^ 57) true false 0) = false ∧ Instr.wf (.prgResponse 512 0) = false ∧
    Instr.wf (.hbmReadReturn 0 [⟨40, 1⟩] []) = false ∧ Instr.wf (.hbmReadReturn 0 [⟨39, 256⟩] []) = false ∧ Instr.wf (.hbmCommandSlot 255 1 [] .good) = true := by decide

theorem test_wf_links :
    Instr.wf (.flitHop ⟨0, 448, 0, 0, false, 0, 0⟩ true true) = false ∧ Instr.wf (.flitHop ⟨0, 0, 0, 3, false, 0, 0⟩ true true) = false ∧
    Instr.wf (.tollgatePass ⟨491, 0, none, 0, 0, none, 64, 0, false⟩) = false ∧ Instr.wf (.tollgatePass ⟨0, 0, none, 0, 3, none, 64, 0, false⟩) = false ∧
    Instr.wf (.aspFlitReceive 0 0 { seq := 128 } true) = false ∧ Instr.wf (.aspFlitReceive 0 0 { link := some [0] } true) = false ∧
    Instr.wf (.aspRdown 4 0 { op := 2 }) = false ∧ Instr.wf (.aspRdown 0 64 { op := 2 }) = false ∧ Instr.wf (.aspRdown 0 0 { op := 256 }) = false ∧
    Instr.wf (.put 6 (pktOf 1 true)) = false ∧ Instr.wf (.put 0 { pktOf 1 true with offset := 2 ^ 48 }) = false ∧
    Instr.wf (.fabricFrameReceive 24 ⟨0, false, false, false, false, false, 0, 0, 0, 0, [], none⟩ .ok) = false ∧
    Instr.wf (.fabricFrameReceive 0 ⟨0, false, false, false, false, false, 0, 4096, 0, 0, [], none⟩ .ok) = false ∧
    Instr.wf (.timeGo 12 0 0 0) = false ∧ Instr.wf (.put 5 (pktOf 1 true)) = true := by decide

theorem test_wf_ports :
    Instr.wf (.configRequest 4096 none) = false ∧ Instr.wf (.linkUp 5 17 true false) = false ∧ Instr.wf (.linkUp 5 2 true false) = false ∧ Instr.wf (.linkUp 5 16 false true) = false ∧ Instr.wf (.keyProg 256 0) = false ∧
    Instr.wf (.ethFrameReceive 2 0 0 64) = false ∧ Instr.wf (.rdmaReadIn 0 ⟨2 ^ 24, 0, 0, 0, [], none, false, 0, 0, false, none, []⟩) = false ∧
    Instr.wf (.wqeWrite 0 ⟨true, false, 2 ^ 32, 0, 0, 0, 0, 0, 0, 0, true⟩ .refused) = false ∧ Instr.wf (.cqeWrite 16384 0 none) = false ∧
    Instr.wf (.linkUp 5 16 true false) = true := by decide

theorem test_wf_trust :
    Instr.wf (.setOwner 0 ⟨2 ^ 192 * 2 ^ 192, ⟨[0, 0, 0, 0, 0, 0], false, false, false⟩⟩) = false ∧
    Instr.wf (.setPolicy 0 ⟨[0], false, false, false⟩ true) = false ∧ Instr.wf (.loadJobKeys 0 ⟨1, 65536, true, true, []⟩) = false ∧
    Instr.wf (.loadJobKeys 0 ⟨1, 0, true, true, [⟨0, 256, false, 0⟩]⟩) = false ∧ Instr.wf (.fwStage 0 3 ⟨0, 2 ^ 32, 0, 0, true, true⟩) = false ∧
    Instr.wf (.lcsTargetWrite .mgmt 16) = false ∧ Instr.wf (.bypass 256 0) = false ∧ Instr.wf (.getCertificate .i3c 16 0) = false ∧
    Instr.wf (.fwStage 0 3 ⟨0, 1, 0, 0, true, true⟩) = true := by decide


/-! ### Single results, expected values from the spec's worked examples -/

/-- "Example: locating a register" (02_register_pages.md). -/
theorem test_register_addresses : regAddr (pg cMSH 437) 0x10 = 0x059B_5010 ∧ regAddr (pg cHCH 169) 0 = 0x078A_9000 := by decide

/-- "Example: a commit under load" (02_register_pages.md): T2 to T4 of a page whose COMMIT_SEQ reads 17. -/
def loaded17 : State := ((at_ State.reset cTIR 0 stBUSY).setFld (pg cTIR 0) PgHDR.PAGE_COMMIT_COMMIT_SEQ 17).setFld (pg cTIR 0) PgHDR.PAGE_STATE_STAGED_PENDING 1
theorem test_commit_request : (after (.commitRequest .mgmt cTIR 0) loaded17).fld (pg cTIR 0) PgHDR.PAGE_STATE_COMMIT_BUSY = 1 := by decide +kernel
theorem test_commit_done :
    (loaded17.commitDone (pg cTIR 0)).fld (pg cTIR 0) PgHDR.PAGE_COMMIT_COMMIT_SEQ = 18 ∧
    (loaded17.commitDone (pg cTIR 0)).fld (pg cTIR 0) PgHDR.PAGE_STATE_STAGED_PENDING = 0 := by decide +kernel

/-- "Example: locating a home" (07_skein_memory.md): 399 slices, entry 246 and set 133 of line 1, entry 94 and set 11 of line 2. -/
theorem test_home_of_lines : homeIndex 1 399 = 246 ∧ homeSet 1 = 133 ∧ homeIndex 2 399 = 94 ∧ homeSet 2 = 11 := by decide

/-- "Example: placing a DPA" (08_memory_tiers.md): six attachments, attachment 2 without its channel 5. -/
def example48 : State :=
  let all := List.range 32
  { State.reset with mem := { State.reset.mem with layout :=
      [⟨1, all, 24576⟩, ⟨2, all.erase 5, 23808⟩, ⟨3, all, 24576⟩, ⟨4, all, 24576⟩, ⟨5, all, 24576⟩, ⟨6, all, 24576⟩] } }
theorem test_dpa_place : example48.granuleCount = 146688 ∧ example48.hbmPlace 0x30_D461_2340 = some (82, 4404398) := by decide +kernel

/-- "Example: a host request around router 137" (11_mesh_and_regulation.md): the part of its route from (6, 15) on. The routers around
rows 6 and 7 from column 14 on are dead too, which takes nothing from the shortest routes and keeps the search small. -/
def without137 : State :=
  (137 :: 133 :: 153 :: ((List.range 6).map (fun k => 114 + k) ++ (List.range 6).map (fun k => 174 + k))).foldl
    (fun s n => s.setUnit (.router n) { boot := .good, live := .faulted }) State.reset
theorem test_detour_around_a_dead_router :
    without137.nextHop 135 139 = some 136 ∧ without137.nextHop 136 139 = some 156 ∧ without137.routeQ 136 139 = (2, 5) ∧
    without137.nextHop 156 139 = some 157 ∧ without137.nextHop 159 139 = some 139 := by decide +kernel

/-- "Example: a route across the reference torus" (14_fabric_links.md): MINUS in x, PLUS in y, MINUS in z; the dateline. -/
def torusAt (x y z : Nat) : State :=
  let f := pg cFAB 0
  (((((State.reset.setFld f PgFAB.TOPO_SZ_X 31).setFld f PgFAB.TOPO_SZ_Y 31).setFld f PgFAB.TOPO_SZ_Z 47).setFld f PgFAB.TOPO_WRAP 7).setFld f
    PgFAB.TOPO_NODE (x + 64 * y + 4096 * z))
def torusPkt : FabPkt := { pktOf 1 true with src := 3 + 64 * 30 + 4096 * 5, dst := 29 + 64 * 2 + 4096 * 40 }
theorem test_torus_route :
    ((torusAt 3 30 5).route torusPkt).1 = some (0, false) ∧ ((torusAt 0 30 5).route torusPkt).2.dl = true ∧
    ((torusAt 1 30 5).route torusPkt).2.dl = false ∧ ((torusAt 29 30 5).route torusPkt).1 = some (1, true) ∧
    ((torusAt 29 2 5).route torusPkt).1 = some (2, false) ∧ ((torusAt 29 2 40).route torusPkt).1 = none := by decide +kernel

/-- "Example: a min-plus relaxation sweep" (05_spindle_arithmetic.md): five terms of one element, in units of INT16. -/
theorem test_min_plus_terms :
    semTerm false 16 0 5210 = (5210, false) ∧ semTerm false 16 310 4850 = (5160, false) ∧ semTerm false 16 0x7FFF 4400 = (semInf, false) ∧
    semTerm false 16 32000 900 = (32766, true) := by decide

/-- "Example: a max-plus arrival-time pass" (05_spindle_arithmetic.md): 0.3 in BF16 is 0x3E9A, read as 0.30078125; 100.80078125 rounds to 101.0. -/
theorem test_bf16_rounding :
    (elemEnc 8 false none (.fin false 0x4CCCCD (-24))).1 = 0x3E9A ∧ (elemVal 8 0x3E9A).eqv (.fin false 77 (-8)) = true ∧
    (elemVal 8 (elemEnc 8 false none (.fin false 25805 (-8))).1).eqv (.fin false 101 0) = true := by decide +kernel

/-- "Example: combining a split K exactly" (07_skein_memory.md): AUTO ACC_BASE of E4M3 carries L = -39; 3 and -2 leave 1 in either order. -/
theorem test_exact_containers :
    ({ patOf [] with op := 0, aFmt := 0, bFmt := 0, accBase := 0x8000 } : PatDesc).lsb = -39 ∧
    atomVec 6 7 16 1 (natLe 16 (3 + (2 ^ 16 - 39) <<< 96)) (natLe 16 (2 ^ 96 - 2 + (2 ^ 16 - 39) <<< 96)) = (natLe 16 (1 + (2 ^ 16 - 39) <<< 96), false) ∧
    atomVec 6 7 16 1 (natLe 16 (2 ^ 96 - 2 + (2 ^ 16 - 39) <<< 96)) (natLe 16 (3 + (2 ^ 16 - 39) <<< 96)) = (natLe 16 (1 + (2 ^ 16 - 39) <<< 96), false) := by
  decide +kernel

/-- "Example: two engines fault on one page" (10_address_translation.md): slot 12, VPN2 0x3F9_D603, set 707. -/
theorem test_translation_set : l2Set 12 0x3F9_D603 false = 707 := by decide

/-- "Example: an excursion interrupted by power failure" (18_life_cycle.md): intent slot 5, cell 2. -/
def excursion (stage : Nat) : State :=
  { State.reset with lc := { State.reset.lc with stateWord := 0xFFFFFF, excWord := 0xF, stage := stage, state := lcDEPLOYED, src := lcDEPLOYED, target := lcFIELD_DEBUG, wipe := true, slot := 5 } }
theorem test_excursion_intent :
    NMap.getD (after (.lcIntentProgrammed false) (excursion 2)).lc.slots 0 5 = 0xFEBC_0143 ∧
    NMap.getD (after (.lcEraseDone false) { excursion 3 with lc := { (excursion 3).lc with slots := [(5, 0xFEBC_0143)] } }).lc.slots 0 5 =
      0x4000_0000_FEBC_0143 := by decide +kernel
theorem test_excursion_cell : (after (.lcStateProgrammed none) (excursion 4)).lc.excWord = 0x3F := by decide +kernel

/-- "Example: moving a window under live peer traffic" (16_host_endpoint.md): the window after the commit, and what offsets it maps. -/
def movedWin : State :=
  let p := pHEP
  ((((linked.setActWord p (PgHEP.WIN_MAP_ENABLE 0).off (BitVec.ofNat 64 (natSetBits (natSetBits (natSetBits (natSetBits (natSetBits 0 (PgHEP.WIN_MAP_ENABLE 0).hi
    (PgHEP.WIN_MAP_ENABLE 0).lo 1) (PgHEP.WIN_MAP_WRITE 0).hi (PgHEP.WIN_MAP_WRITE 0).lo 1) (PgHEP.WIN_MAP_WINSEL 0).hi (PgHEP.WIN_MAP_WINSEL 0).lo 1)
    (PgHEP.WIN_MAP_PART 0).hi (PgHEP.WIN_MAP_PART 0).lo 5) (PgHEP.WIN_MAP_LEN 0).hi (PgHEP.WIN_MAP_LEN 0).lo 4096))).setActWord p
    (PgHEP.WIN_TGT_TGT_OFFSET 0).off (BitVec.ofNat 64 (natSetBits 0 (PgHEP.WIN_TGT_TGT_OFFSET 0).hi (PgHEP.WIN_TGT_TGT_OFFSET 0).lo 0x8000)))))
theorem test_window_maps : movedWin.winOf 0x1000 = some 0 ∧ movedWin.winOf 0x2_8000_0000 = none ∧ movedWin.winOf 0x3_0000_0000 = none ∧ movedWin.winPart 0 = 5 ∧
    movedWin.actFld pHEP (PgHEP.WIN_TGT_TGT_OFFSET 0) * 0x200000 + 0x1000 = 0x10_0000_1000 := by decide +kernel
theorem test_posted_write_to_a_closed_offset :
    let t := after (.bar4Write 0x2_8000_0000 7 false false [1, 2, 3, 4]) { movedWin with host := { movedWin.host with bar4Log := 6 } }
    t.fld pHEP PgHEP.CLOSED_LOG_VALID = 1 ∧ t.fld pHEP PgHEP.CLOSED_LOG_POSTED = 1 ∧ t.fld pHEP PgHEP.CLOSED_LOG_KIND = 0 ∧
    t.fld pHEP PgHEP.CLOSED_CNT_P_DROPPED = 1 := by decide +kernel

/-- "Example: a width dispute after a partial reset of site 2" (13_chiplet_sites.md): channel 40 at tile 321, and its TX word. -/
theorem test_width_dispute : siteChTile 2 40 = 321 ∧ lanesRec [0x2F, 0x12, 0x10, 0x2E, 0x11] = 0x2E12_1110 ∧
    State.reset.tooNarrow 2 ⟨40, [0x10, 0x11, 0x12, 0x2E, 0x2F], []⟩ = true ∧ State.reset.tooNarrow 2 ⟨40, [0x10, 0x11, 0x12], []⟩ = false := by decide +kernel

/-- "Example: parking an idle partition with a wake during save" (20_power_domains.md): a demand in SAVE aborts the entry. -/
def saving : State := ((State.reset.setReq 612 1).setDom 612 { State.reset.domSt 612 with target := 1 }).setPhase 612 3
theorem test_wake_during_save :
    let t := saving.wakeDom 612
    t.phase 612 = 0 ∧ t.domReq 612 = 0 ∧ t.fld (pg cPWR 612) PgPWR.COUNT_ABORTED = 1 ∧ t.fld (pg cPWR 612) PgPWR.STATUS_LAST_RESULT = 3 := by decide +kernel

/-- "Example: a stuck cell in one spindle" (22_fault_detection.md): the two events of the removal of spindle 30. -/
def stuckHank : State :=
  ((State.reset.setFld (pg cHNK 118) PgHDR.OWNER_PARTITION 3).setHank 118 { (State.reset.hank 118) with steps := 100, recent := [([⟨12, 4411⟩], 80)] })
theorem test_suspect_tile :
    ((stuckHank.suspects 118 30).saf.evq.map (fun e => (e.ev.addr, e.ev.part, e.ev.cls, e.ev.inst))) = [(0x0000_000C_0000_113B, 3, cHNK, 118)] := by decide +kernel

/-- The code of a sector (09_memory_integrity.md R270 to R272): a stored sector has no syndrome; a failed lane pair damages one symbol, which is
corrected; two damaged symbols are detected; a 1 left in a reserved metadata bit is uncorrectable. -/
theorem test_sector_code :
    (List.range 3).all (fun j => syndrome j (sectorWord ((List.range 32).map (BitVec.ofNat 8)) 5) = 0) = true ∧
    decodeSector [⟨6, 0xFF⟩, ⟨7, 0xA5⟩] = (.corrected 3, List.replicate 20 0) ∧ (decodeSector [⟨6, 1⟩, ⟨8, 1⟩]).1 = .bad := by decide +kernel

/-- A doorbell behind a posted write that is not yet accepted waits, and TAIL with it (06_task_graphs.md R166). -/
theorem test_doorbell_waits :
    (after (.dbTail 17 9) writingHost).dsp.bells.map (fun b => (b.queue, b.tail)) = [(17, 9)] ∧ ((after (.dbTail 17 9) writingHost).queue 17).tail = 3 := by
  decide +kernel

/-- A fence in OFF is stored and the page stays OFF (02_register_pages.md R65). -/
theorem test_fence_in_off :
    let t := after (.fenceSet .mgmt cHNK 7) (at_ State.reset cHNK 7 stOFF)
    t.flag (pg cHNK 7) PgHDR.PAGE_CTRL_FENCE = true ∧ t.pageState (pg cHNK 7) = stOFF := by decide +kernel

/-- A gather window read under a descriptor in force, past its last row, reads zeros (07_skein_memory.md R215). -/
theorem test_gather_past_the_end :
    (after (.gatherWindowRead (gacc 256 64)) (gatherOn { desc := some gd })).out = [.memResp 7 9 0 (List.replicate 64 0) 0] := by decide +kernel

end Sys2Proof.Tests
end

section
/-! PROOFS of the family 02_register_pages.md: refused accesses (R47), reserved offsets (R51), the access class of a page (R75). -/
namespace Sys2Proof.Machine

/-! ### Pages -/

theorem pgCls_pg (c : Nat) {i : Nat} (h : i < 2048) : pgCls (pg c i) = c := by
  simp only [pgCls, pg]; omega

theorem pgInst_pg (c : Nat) {i : Nat} (h : i < 2048) : pgInst (pg c i) = i := by
  simp only [pgInst, pg]; omega

/-- No header register is shared: those of the FAB pages that are lie in the block (14_fabric_links.md R452). -/
theorem homePage_of_header (p : Nat) {off : Nat} (h : off < 0x100) : homePage p off = p := by
  have : ¬ 0x108 ≤ off := by omega
  simp [homePage, this]

/-- A byte address gives back its page's class and number in the class, and the offset (R42). -/
theorem address_fields {c i off : Nat} (hi : i < 2048) (ho : off < 0x1000) :
    (c * 0x800000 + i * 0x1000 + off) / 0x800000 = c ∧ (c * 0x800000 + i * 0x1000 + off) / 0x1000 % 2048 = i ∧
      (c * 0x800000 + i * 0x1000 + off) % 0x1000 = off := by omega

/-! ### Accesses that reach a page -/

/-- What it takes for an access to reach a page, part by part. -/
theorem State.reaches_iff {s : State} {r : Requester} {c i : Nat} :
    s.reaches r c i = true ↔ i < 2048 ∧ s.pageAbsent (pg c i) = false ∧ sees r (s.accessClass (pg c i)) = true ∧
      (r ≠ .host ∨ s.hostReach = true ∧ s.ideShut = false) := by
  simp [State.reaches, and_assoc]

theorem State.arrived_of_ne_host (s : State) {r : Requester} (h : r ≠ .host) : s.arrived r = s := by
  cases r with
  | host => exact absurd rfl h
  | mgmt | rot | hub => rfl

/-- The ATU's client pages above 86 are absent (log entry 38). -/
theorem State.atu_inst_le_of_present {s : State} {i : Nat} (hi : i < 2048) (h : s.pageAbsent (pg cATU i) = false) : i ≤ 86 := by
  by_contra hc
  have : 86 < pgInst (pg cATU i) := by rw [pgInst_pg _ hi]; omega
  simp [State.pageAbsent, pgCls_pg cATU hi, this] at h

theorem State.rxTlp_linkStatus (s : State) (f : Fld) (h : f.off = PgHEP.LINK_STATUS_DL_UP.off) : s.rxTlp.fld pHEP f = s.fld pHEP f := by
  rw [State.fld, State.fld, h, s.rxTlp_word _ _ (by decide)]

/-- The counted TLP does not close the way of the host. -/
theorem State.rxTlp_hostReach (s : State) : s.rxTlp.hostReach = s.hostReach := by
  have hup : s.rxTlp.dlUp = s.dlUp := by rw [State.dlUp, State.dlUp, State.flag, State.flag, s.rxTlp_linkStatus _ rfl]
  have hd3 : s.rxTlp.d3hot = s.d3hot := by rw [State.d3hot, State.d3hot, s.rxTlp_linkStatus PgHEP.LINK_STATUS_DSTATE rfl]
  have hm : s.rxTlp.host.mse = s.host.mse := s.rxTlp_of (fun t => t.host.mse = s.host.mse) (by simp) rfl
  have hr : s.rxTlp.host.drsSent = s.host.drsSent := s.rxTlp_of (fun t => t.host.drsSent = s.host.drsSent) (by simp) rfl
  simp only [State.hostReach, hup, hd3, hm, hr]

theorem State.rxTlp_ideShut (s : State) : s.rxTlp.ideShut = s.ideShut := by
  simp only [State.ideShut, State.rxTlp_rot]

/-- Arriving makes no page absent. -/
theorem State.arrived_pageAbsent (s : State) (r : Requester) (p : Nat) : (s.arrived r).pageAbsent p = s.pageAbsent p := by
  cases r with
  | host => exact State.pageAbsent_congr s.rxTlp_plan p
  | mgmt | rot | hub => rfl

/-! ### What setting an interrupt bit leaves (R57, R500) -/

theorem State.onlyIrq.trans {s t u : State} (h : s.onlyIrq t) (k : t.onlyIrq u) : s.onlyIrq u := by
  simp only [State.onlyIrq] at h k ⊢
  rw [h] at k
  exact k

theorem State.setWord_onlyIrq (s : State) (p off : Nat) (v : Word) : s.onlyIrq (s.setWord p off v) := rfl

theorem State.pendVec_onlyIrq (s : State) (v : Nat) : s.onlyIrq (s.pendVec v) := by
  simp only [State.pendVec]; split <;> rfl

theorem State.sendVector_onlyIrq (s : State) (v : Nat) : s.onlyIrq (s.sendVector v) := by
  simp only [State.sendVector]
  split
  · exact s.pendVec_onlyIrq v
  · rfl

theorem State.deliverIrq_onlyIrq (s : State) (p : Nat) : s.onlyIrq (s.deliverIrq p) := by
  simp only [State.deliverIrq]
  split
  · rfl
  · split
    · exact s.sendVector_onlyIrq _
    · rfl

theorem State.setInt_onlyIrq (s : State) (p b : Nat) : s.onlyIrq (s.setInt p b) := by
  simp only [State.setInt, State.withIrq]
  split
  · exact (s.setWord_onlyIrq p 0x30 _).trans (State.deliverIrq_onlyIrq _ p)
  · exact s.setWord_onlyIrq p 0x30 _

/-! ### PAGE_ERR (R56, R57) -/

theorem natBit_natSetBits_one (n i : Nat) : natBit (natSetBits n i i 1) i = true := by
  have h := natBits_natSetBits_self n 1 (Nat.le_refl i)
  simp only [natBits, Nat.add_sub_cancel_left, pow_one, Nat.shiftRight_eq_div_pow] at h
  simpa [natBit, Nat.testBit_eq_decide_div_mod_eq] using h

/-- Recording an error changes nothing that an interrupt does not: registers, MSI-X state and outputs. -/
theorem State.pageErr_onlyIrq (s : State) (p : Nat) (e : PErr) (r : Requester) (off : Nat) : s.onlyIrq (s.pageErr p e r off) := by
  simp only [State.pageErr]
  split
  · exact s.setWord_onlyIrq p 0x28 _
  · exact (s.setWord_onlyIrq p 0x28 _).trans (State.setInt_onlyIrq _ p iERR)

/-- Recording an error changes PAGE_ERR and INT_STATUS of its page and no other register. -/
theorem State.pageErr_regsBut (s : State) (p : Nat) (e : PErr) (r : Requester) (off : Nat) :
    s.regsBut (s.pageErr p e r off) [(p, 0x28), (p, 0x30)] := by
  intro q o h
  have hErr := h (p, 0x28) (by simp)
  have hInt := h (p, 0x30) (by simp)
  simp only [State.pageErr]
  split
  · exact s.word_setWord_ne _ hErr
  · rw [State.setInt_word _ hInt, s.word_setWord_ne _ hErr]

/-- The recorded error's bit of PAGE_ERR is set. -/
theorem State.pageErr_bit (s : State) (p : Nat) (e : PErr) (r : Requester) (off : Nat) :
    natBit ((s.pageErr p e r off).word p 0x28).toNat e.bit = true := by
  have hb : e.bit < 64 := by cases e <;> decide
  have hne : homePage p 0x28 * 512 + 0x28 / 8 ≠ homePage p 0x30 * 512 + 0x30 / 8 := by
    rw [homePage_of_header p (by decide), homePage_of_header p (by decide)]; omega
  have hset (n : Nat) : natBit (BitVec.ofNat 64 (natSetBits n e.bit e.bit 1)).toNat e.bit = true := by
    have h1 := natBit_natSetBits_one n e.bit
    rw [natBit] at h1 ⊢
    rw [BitVec.toNat_ofNat, Nat.testBit_mod_two_pow, h1]
    simp [hb]
  simp only [State.pageErr]
  split
  · rw [State.word_setWord_self]; exact hset _
  · rw [State.setInt_word _ hne, State.word_setWord_self]; exact hset _

/-! ### Accesses of another size or alignment (R47) -/

theorem exec_registerWrite (r : Requester) (addr size data : Nat) (s : State) :
    exec (.registerWrite r addr size data) s = .next (s.regWrite r addr size data).kick.atuWork := by rfl

theorem exec_rcFieldRead (r : Requester) (addr size : Nat) (s : State) :
    exec (.rcFieldRead r addr size) s = .next (s.readReq r addr size) := by rfl

theorem exec_invalidAccess (r : Requester) (addr size : Nat) (write : Bool) (s : State) :
    exec (.invalidAccess r addr size write) s = .next (s.badAccess r addr size write) := by rfl

section BadAccess
variable {s : State} {r : Requester} {addr size : Nat}

/-- A write of a refused size or alignment records ACCESS at its byte offset and is dropped. -/
theorem State.regWrite_of_bad (data : Nat) (hbad : goodAccess addr size = false) (hlow : addr < 2 ^ 28) (harea : hostArea addr = false)
    (hr : s.reaches r (addr / 0x800000) (addr / 0x1000 % 2048) = true) :
    s.regWrite r addr size data =
      (s.arrived r).pageErr (pg (addr / 0x800000) (addr / 0x1000 % 2048)) .access r (addr % 0x1000) := by
  have hlow' : ¬ 2 ^ 28 ≤ addr := by omega
  simp only [State.regWrite, hlow', harea, hbad, if_false, Bool.false_and, Bool.false_eq_true, State.gateHdr_of_reaches s hr,
    Bool.not_false, if_true]

/-- A read of a refused size or alignment records ACCESS at its byte offset and reads 0. -/
theorem State.regRead_of_bad (hbad : goodAccess addr size = false) (hlow : addr < 2 ^ 28) (harea : hostArea addr = false)
    (hpage : s.pageAbsent (pg (addr / 0x800000) (addr / 0x1000 % 2048)) = false) :
    s.regRead r addr size = (s.pageErr (pg (addr / 0x800000) (addr / 0x1000 % 2048)) .access r (addr % 0x1000), 0) := by
  have hlow' : ¬ 2 ^ 28 ≤ addr := by omega
  simp only [State.regRead, hlow', harea, hbad, hpage, if_false, Bool.false_eq_true, Bool.not_false, Bool.or_true, if_true]

end BadAccess

/-- A read by a requester other than the host is answered at once. -/
theorem State.readReq_of_ne_host (s : State) {r : Requester} (h : r ≠ .host) (addr size : Nat) :
    s.readReq r addr size = (s.regRead r addr size).1.emit (.regValue r addr (s.regRead r addr size).2) := by
  simp only [State.readReq, ne_eq, h, not_false_eq_true, if_true]

/-- A read of the host whose way is open is answered through the link, after the posted writes before it. -/
theorem State.readReq_of_host {s : State} (hreach : s.hostReach = true) (hide : s.ideShut = false) (addr size : Nat) :
    s.readReq .host addr size = (s.rxTlp.regRead .host addr size).1.hostReply
      ⟨(s.rxTlp.regRead .host addr size).1.nextJoin, some addr, 0, false, natLe size (s.rxTlp.regRead .host addr size).2⟩ := by
  have hup : s.dlUp = true := by
    simp only [State.hostReach, Bool.and_eq_true] at hreach
    exact hreach.1.1.1
  simp [State.readReq, hup, s.rxTlp_hostReach, s.rxTlp_ideShut, hreach, hide]

/-- Settles O2: the access is refused before anything of the page is read or stored, so the state is that of one recorded error. -/
theorem invalidAccesses : Obligations.InvalidAccesses := by
  unfold Obligations.InvalidAccesses
  intro s r addr size c i p hbad hlow harea hr _
  obtain ⟨-, hpage, -, hway⟩ := State.reaches_iff.mp hr
  have hwrite (data : Nat) : s.regWrite r addr size data = (s.arrived r).pageErr p .access r (addr % 0x1000) :=
    State.regWrite_of_bad data hbad hlow harea hr
  have hread : (s.arrived r).regRead r addr size = ((s.arrived r).pageErr p .access r (addr % 0x1000), 0) :=
    State.regRead_of_bad hbad hlow harea (by rw [State.arrived_pageAbsent]; exact hpage)
  refine ⟨_, ⟨rfl, State.pageErr_bit _ p .access r _, State.pageErr_regsBut _ p .access r _⟩, fun hne => ?_, fun hhost => ?_, ?_,
    fun data => ?_⟩
  · rw [State.arrived_of_ne_host s hne] at hread ⊢
    simp [exec_invalidAccess, exec_rcFieldRead, State.badAccess, hbad, State.readReq_of_ne_host s hne, hread]
  · subst hhost
    obtain ⟨hreach, hide⟩ := hway.resolve_left (fun h => h rfl)
    have hread' : s.rxTlp.regRead .host addr size = _ := hread
    simp [exec_invalidAccess, State.badAccess, hbad, State.readReq_of_host hreach hide, hread']
  · simp [exec_invalidAccess, State.badAccess, hbad, hwrite]
  · rw [exec_registerWrite, hwrite]

/-! ### Reserved offsets (R51) -/

/-- No command register lies past the end of its page's block: a write there starts nothing. -/
theorem State.cmdStart_of_past_block (s : State) (r : Requester) {c i off : Nat} (hi : i < 2048) (hatu : c = cATU → i ≤ 86)
    (h : 0x100 + 8 * blkLen (pg c i) ≤ off) (v w : Nat) (low wide : Bool) : s.cmdStart r c i off v w low wide = none := by
  simp only [blkLen, pgCls_pg c hi, pgInst_pg c hi] at h
  unfold State.cmdStart
  split
  -- Registers of ATU page 0 alone: CTX_CMD, INV_CMD, FQ_CMD.
  case h_4 | h_5 | h_6 => by_cases h0 : i = 0 <;> simp_all
  -- L1_FLUSH of the ATU's client pages.
  case h_7 => by_cases h0 : i = 0 <;> simp_all [cATU]
  case h_24 => rfl
  -- Every other command register is a register of each page of its class.
  all_goals exact absurd h (by simp)

/-- Header offsets past OWNER hold no register: a write does nothing. -/
theorem State.hdrWrite_of_past_owner (s : State) (r : Requester) (p : Nat) {off : Nat} (h : 0x70 ≤ off) (v w : Nat) (low : Bool) :
    s.hdrWrite r p off v w low = s := by
  have hne (k : Nat) (hk : k < 0x70) : off ≠ k := by omega
  simp [State.hdrWrite, hne]

/-- Header offsets past OWNER read 0. -/
theorem State.readHdr_of_past_owner (s : State) (p : Nat) {off : Nat} (h : 0x70 ≤ off) : s.readHdr p off = 0 := by
  have hne (k : Nat) (hk : k < 0x70) : off ≠ k := by omega
  simp [State.readHdr, hne, h]

/-- A write past OWNER in the header, or past the block, does nothing but arrive (R51). -/
theorem State.regWrite_of_reserved {s : State} {r : Requester} {c i off : Nat} (data : Nat) (hc : c < 32) (hoff : off < 0x1000)
    (h8 : off % 8 = 0) (hres : 0x70 ≤ off ∧ off ≤ 0xF8 ∨ 0x100 + 8 * blkLen (pg c i) ≤ off) (hr : s.reaches r c i = true)
    (harea : hostArea (c * 0x800000 + i * 0x1000 + off) = false) :
    s.regWrite r (c * 0x800000 + i * 0x1000 + off) 8 data = s.arrived r := by
  obtain ⟨hi, hpage, -, -⟩ := State.reaches_iff.mp hr
  obtain ⟨ec, ei, eo⟩ := address_fields (c := c) hi hoff
  have hlow : ¬ 2 ^ 28 ≤ c * 0x800000 + i * 0x1000 + off := by omega
  have hgood : goodAccess (c * 0x800000 + i * 0x1000 + off) 8 = true := by
    have : (c * 0x800000 + i * 0x1000 + off) % 8 = 0 := by omega
    simp [goodAccess, this]
  have h8' : off / 8 * 8 = off := by omega
  have hatu : c = cATU → i ≤ 86 := fun e => State.atu_inst_le_of_present hi (e ▸ hpage)
  simp only [State.regWrite, ec, ei, eo, hlow, harea, hgood, h8', if_false, Bool.false_eq_true]
  rcases hres with ⟨hlo, hhi⟩ | hblk
  · have hhdr : ¬ 0x100 ≤ off := by omega
    have hlt : off < 0x100 := by omega
    rw [State.gateHdr_of_reaches s hr]
    simp [hhdr, hlt, State.hdrWrite_of_past_owner _ r _ hlo]
  · have hge : 0x100 ≤ off := by omega
    rw [State.cmdStart_of_past_block s r hi hatu hblk, State.gateHdr_of_reaches s hr]
    simp [hblk, hge]

theorem State.readWord_of_reserved (s : State) {p off : Nat} (h : 0x70 ≤ off ∧ off ≤ 0xF8 ∨ 0x100 + 8 * blkLen p ≤ off) :
    s.readWord p off = 0 := by
  rcases h with ⟨hlo, hhi⟩ | hblk
  · have hlt : off < 0x100 := by omega
    rw [State.readWord, if_pos hlt, s.readHdr_of_past_owner p hlo]
  · have hge : ¬ off < 0x100 := by omega
    simp [State.readWord, hge, hblk]

/-- Settles O4: a reserved offset is neither a register of the page nor a command, so nothing but the arrival remains. -/
theorem reservedOffsets : Obligations.ReservedOffsets := by
  unfold Obligations.ReservedOffsets
  intro s r c i off data addr hc hoff h8 hres hr harea
  refine ⟨s.readWord_of_reserved hres, ?_⟩
  rw [exec_registerWrite, State.regWrite_of_reserved data hc hoff h8 hres hr harea]

/-! ### The access class of a page (R75) -/

theorem exec_ownerWrite (r : Requester) (c i data : Nat) (s : State) :
    exec (.ownerWrite r c i data) s = .next (s.gateHdr r c i 0x68 (fun p s => s.ownerWrite r p data)) := by rfl

/-- The state in which OWNER holds a partition and an access class. -/
def State.ownerStored (s : State) (p part ac : Nat) : State :=
  (s.setFld p PgHDR.OWNER_PARTITION part).setFld p PgHDR.OWNER_ACCESS_CLASS ac

theorem State.ownerStored_accessClass (s : State) (p part : Nat) {ac : Nat} (h : ac < 4) : (s.ownerStored p part ac).accessClass p = ac := by
  rw [State.accessClass, State.ownerStored, State.fld_setFld_self _ _ _ _ (by decide) (by decide)]
  exact Nat.mod_eq_of_lt h

theorem State.ownerStored_ownerPart (s : State) (p ac : Nat) {part : Nat} (h : part < 32) : (s.ownerStored p part ac).ownerPart p = part := by
  rw [State.ownerPart, State.ownerStored,
    State.fld_setFld_apart _ _ PgHDR.OWNER_ACCESS_CLASS PgHDR.OWNER_PARTITION _ (by decide) (by decide) rfl (by decide),
    State.fld_setFld_self _ _ _ _ (by decide) (by decide)]
  exact Nat.mod_eq_of_lt h

theorem State.ownerStored_onlyRegs (s : State) (p part ac : Nat) : s.onlyRegs (s.ownerStored p part ac) := rfl

theorem State.ownerStored_regsBut (s : State) (p part ac : Nat) : s.regsBut (s.ownerStored p part ac) [(p, 0x68)] := by
  intro q o h
  have hOwner := h (p, 0x68) (by simp)
  exact (State.word_setWord_ne _ _ hOwner).trans (State.word_setWord_ne _ _ hOwner)

section Owner
variable {s : State} {r : Requester} {p data : Nat}

/-- A write of OWNER stores a legal partition and class on a quiet page where the requester may set the class: management one that stays, or
HOST-PRIV and MGMT-ONLY on a page of a HOST-PRIV class; the ROT any. -/
theorem State.ownerWrite_stores (hpart : natBits data 12 8 < 16 ∨ natBits data 12 8 = 31) (hac : natBits data 1 0 ≤ 2)
    (hq : s.quiet p = true) (hhost : r ≠ .host)
    (hmay : r = .mgmt → natBits data 1 0 = s.accessClass p ∨ classAccess (pgCls p) = 0 ∧ natBits data 1 0 ≤ 1) :
    s.ownerWrite r p data = s.ownerStored p (natBits data 12 8) (natBits data 1 0) := by
  have hlegal : ¬ ((16 ≤ natBits data 12 8 ∧ natBits data 12 8 ≤ 30) ∨ natBits data 1 0 = 3) := by omega
  have hright : ¬ (r = .mgmt ∧ natBits data 1 0 ≠ s.accessClass p ∧ (classAccess (pgCls p) ≠ 0 ∨ natBits data 1 0 = 2)) := by
    rintro ⟨hm, hne, hbar⟩
    rcases hmay hm with h | ⟨hc, h1⟩ <;> omega
  simp only [State.ownerWrite, hhost, if_false, Bool.or_eq_true, Bool.and_eq_true, decide_eq_true_eq, hlegal, and_assoc, hright, hq,
    Bool.not_true, Bool.false_eq_true]
  rfl

/-- A change of class that management may not make is refused with ACCESS, and OWNER stays. -/
theorem State.ownerWrite_mgmt_refused (hpart : natBits data 12 8 < 16 ∨ natBits data 12 8 = 31) (hac : natBits data 1 0 ≤ 2)
    (hne : natBits data 1 0 ≠ s.accessClass p) (hbar : classAccess (pgCls p) ≠ 0 ∨ natBits data 1 0 = 2) :
    s.ownerWrite .mgmt p data = s.pageErr p .access .mgmt 0x68 := by
  have hlegal : ¬ ((16 ≤ natBits data 12 8 ∧ natBits data 12 8 ≤ 30) ∨ natBits data 1 0 = 3) := by omega
  have hright : natBits data 1 0 ≠ s.accessClass p ∧ (classAccess (pgCls p) ≠ 0 ∨ natBits data 1 0 = 2) := ⟨hne, hbar⟩
  simp [State.ownerWrite, hlegal, hright]

end Owner

/-- A write of OWNER by management or the ROT acts on a present page it sees. -/
theorem exec_ownerWrite_of_sees {s : State} {r : Requester} {c i : Nat} (data : Nat) (hi : i < 2048) (hpage : s.pageAbsent (pg c i) = false)
    (hsees : sees r (s.accessClass (pg c i)) = true) (hhost : r ≠ .host) :
    exec (.ownerWrite r c i data) s = .next (s.ownerWrite r (pg c i) data) := by
  rw [exec_ownerWrite, State.gateHdr_of_reaches s (State.reaches_iff.mpr ⟨hi, hpage, hsees, .inl hhost⟩), State.arrived_of_ne_host s hhost]

/-- What a stored OWNER shows: the class and partition written, and nothing else of the hub changed. -/
theorem State.ownerStored_spec (s : State) (p data : Nat) :
    (s.ownerStored p (natBits data 12 8) (natBits data 1 0)).accessClass p = natBits data 1 0 ∧
      (s.ownerStored p (natBits data 12 8) (natBits data 1 0)).ownerPart p = natBits data 12 8 ∧
      s.onlyRegs (s.ownerStored p (natBits data 12 8) (natBits data 1 0)) ∧
      s.regsBut (s.ownerStored p (natBits data 12 8) (natBits data 1 0)) [(p, 0x68)] :=
  ⟨s.ownerStored_accessClass p _ (natBits_lt data 1 0), s.ownerStored_ownerPart p _ (natBits_lt data 12 8), s.ownerStored_onlyRegs p _ _,
    s.ownerStored_regsBut p _ _⟩

/-- Settles O9: each clause is one branch of the write of OWNER, under the rights of its requester. -/
theorem ownerClasses : Obligations.OwnerClasses := by
  unfold Obligations.OwnerClasses
  intro s c i data _ hi hpage hq hpart p ac
  have hcls : pgCls p = c := pgCls_pg c hi
  refine ⟨fun hsees hpriv hac => ?_, fun hsees hac hne hbar => ?_, fun hac => ?_⟩
  · have hw : s.ownerWrite .mgmt p data = s.ownerStored p (natBits data 12 8) (natBits data 1 0) :=
      State.ownerWrite_stores hpart (hac.trans (by decide)) hq (by decide) (fun _ => .inr ⟨hcls ▸ hpriv, hac⟩)
    exact ⟨_, hw ▸ exec_ownerWrite_of_sees data hi hpage (decide_eq_true hsees) (by decide), s.ownerStored_spec p data⟩
  · have hw : s.ownerWrite .mgmt p data = s.pageErr p .access .mgmt 0x68 :=
      State.ownerWrite_mgmt_refused hpart hac hne (hcls ▸ hbar)
    have hbut : s.regsBut (s.pageErr p .access .mgmt 0x68) [(p, 0x28), (p, 0x30)] := s.pageErr_regsBut p .access .mgmt 0x68
    exact ⟨_, hw ▸ exec_ownerWrite_of_sees data hi hpage (decide_eq_true hsees) (by decide),
      hbut p 0x68 (by simp [homePage_of_header]), s.pageErr_bit p .access .mgmt 0x68,
      s.pageErr_onlyIrq p .access .mgmt 0x68, hbut⟩
  · have hw : s.ownerWrite .rot p data = s.ownerStored p (natBits data 12 8) (natBits data 1 0) :=
      State.ownerWrite_stores hpart hac hq (by decide) (fun h => absurd h (by decide))
    exact ⟨_, hw ▸ exec_ownerWrite_of_sees data hi hpage rfl (by decide), s.ownerStored_spec p data⟩

end Sys2Proof.Machine
end
